-- ==== Sys2Proof/Word.lean ====
section
/-! DEFINITION. The word types of the Arbedon 2460 (Shared-Memory Formats): a byte, the 32-bit and 64-bit quantities that
wrap, the numbers of lanes, channels, slips and slots, and a memory as a list of cells. -/

namespace Sys2Proof

/-- One byte of host memory, of a landing ring or of an extent. -/
abbrev Byte := BitVec 8

/-- A 32-bit quantity that wraps: a digest (R19), a notice counter (R195), a register of four bytes (R184). -/
abbrev Word32 := BitVec 32

/-- A switch's 32-bit sequence number, which wraps (Sequence numbers). -/
abbrev SeqNo := BitVec 32

/-- A 64-bit quantity that wraps: the charge balance (R8), a register of eight bytes (R184). -/
abbrev Word64 := BitVec 64

/-- A lane number (R123). -/
abbrev LaneNo := Fin 16

/-- A feed channel number (R43). -/
abbrev ChanNo := Fin 8

/-- A slip number of the work desk (R200). -/
abbrev SlipNo := Fin 64

/-- An edition slot number (R89). -/
abbrev SlotNo := Fin 32

/-- A retention group (R139). -/
abbrev GroupNo := Fin 4

/-- A memory: (address, byte) pairs, addresses strictly rising, no pair holding what an unlisted address reads as. -/
abbrev Memory := List Host.Cell

end Sys2Proof
end

