-- ==== Sys2Proof/Syntax.lean ====
section
/-! DEFINITION. The commands of the engine: one constructor for each row of spec/opcode_table.json, with what comes to the
engine from outside at that step (a register's value, a lane or channel, a module's answer, what the bus brings). -/

namespace Sys2Proof

/-- What the bus brings to a command that reads host memory: the bytes the host has written into its memory since the
commands before, and the address ranges (first, count) in which the engine's bus reads fail at this command (R45, R46,
R96, R186, R193). -/
structure Bus where
  writes : List (Nat × Byte)
  fails  : List (Nat × Nat)
deriving DecidableEq, Repr

/-- A module's answer to a fetch (R131): the bytes as the module holds them, after the stated bytes have changed on the
module since they were written, or a media error. -/
inductive Fetched where
  | success (changed : List (Nat × Byte))
  | mediaError
deriving DecidableEq, Repr

/-- What a start-up finds and how far it goes in one step: the bytes that the requests in progress had already changed on the
modules when they were cut off (R136), and, where the engine recovers, how many of the eight restorations of R197 it makes in
this step: all 8, or fewer where a further event comes while it is RECOVERING (log 10). -/
structure Start where
  torn : List (Nat × Byte)
  made : Fin 9
deriving DecidableEq, Repr

/-- The commands, in the order of the table. A slip's own row is the step at which the engine runs that slip (log 6): its
parameters stand in the slip that the sweep admitted. -/
inductive Instr where
  /-- POWER_ON: the mask of lanes whose module answers (R123), and the start-up (R136, R197). -/
  | powerOn (present : BitVec 16) (start : Start)
  /-- POWER_LOSS: the power-loss input falls (R197). -/
  | powerLoss
  /-- ENGINE_RESET: a write of ENGINE CONTROL (R198), with what POWER_ON carries. -/
  | engineReset (value : Word32) (present : BitVec 16) (start : Start)
  /-- DESK_BASE: a write of DESK BASE (R184, R199). -/
  | deskBase (value : Word64)
  /-- SWEEP_PERIOD: a write of SWEEP PERIOD (R184, R185). -/
  | sweepPeriod (value : Word32)
  /-- NUDGE: a write of NUDGE (R185). -/
  | nudge (value : Word32)
  /-- SWEEP_TIMER_EXPIRY: the sweep timer's count reaches SWEEP PERIOD (R185). -/
  | sweepTimerExpiry
  /-- SWEEP: a sweep that was asked for begins (R186). -/
  | sweep (bus : Bus)
  /-- FORMAT: the executor first runs a FORMAT (R39). -/
  | format (bus : Bus)
  /-- FORMAT_ERASE_COMPLETION: the FORMAT erase in progress on a lane completes (R40). -/
  | formatEraseCompletion (lane : LaneNo) (ok : Bool) (bus : Bus)
  /-- INGEST: a FREE channel takes the first slip of the admission list (R43). -/
  | ingest (bus : Bus)
  /-- HEADER_TAKE: a channel in HEADER takes and judges the header (R49). -/
  | headerTake (chan : ChanNo) (bus : Bus)
  /-- RECORD_TAKE: a channel in RUNNING takes and judges the next record (R51). -/
  | recordTake (chan : ChanNo) (bus : Bus)
  /-- COMMIT_POINT: a channel makes the commit point it has reached (R57, R59). -/
  | commitPoint (chan : ChanNo) (bus : Bus)
  /-- CODING_COMPLETE: the coding of the block in hand completes (R114). -/
  | codingComplete
  /-- SEGMENT_OPEN: the waiting open request is granted an extent and opened (R25, R26). -/
  | segmentOpen
  /-- SHARE_WINDOW_END: a lane's share window is complete (R130). -/
  | shareWindowEnd (lane : LaneNo)
  /-- STORE_COMPLETION: the store in progress on a lane completes (R29, R30). -/
  | storeCompletion (lane : LaneNo) (ok : Bool)
  /-- LANE_OFFLINE: a lane whose error run is 3 goes OFFLINE (R133). -/
  | laneOffline (lane : LaneNo) (bus : Bus)
  /-- FETCH_COMPLETION: the fetch in progress on a lane completes (R157). -/
  | fetchCompletion (lane : LaneNo) (outcome : Fetched) (bus : Bus)
  /-- ERASE_COMPLETION: the erase in progress on a lane completes (R147). -/
  | eraseCompletion (lane : LaneNo) (ok : Bool)
  /-- JOURNAL_WRITE_COMPLETION: the journal write in progress on a lane completes (R179). -/
  | journalWriteCompletion (lane : LaneNo) (ok : Bool) (bus : Bus)
  /-- ADVANCE: the executor first runs an ADVANCE (R152). -/
  | advance (bus : Bus)
  /-- EXPIRE: the executor first runs an EXPIRE (R153). -/
  | expire (bus : Bus)
  /-- EXPIRY_PASS_STEP: the running pass judges the segment at its cursor (R145). -/
  | expiryPassStep (bus : Bus)
  /-- RETAIN: a shortening runs (R142), or the executor first runs a lengthening (R143). -/
  | retain (bus : Bus)
  /-- RETENTION_WALK_STEP: the running walk judges the segment at its cursor (R143). -/
  | retentionWalkStep (bus : Bus)
  /-- VERIFY: the executor first runs a VERIFY (R162). -/
  | verify (bus : Bus)
  /-- VERIFY_CURSOR_STEP: the running VERIFY judges the segment at its cursor (R162). -/
  | verifyCursorStep (bus : Bus)
  /-- EXTRACT: the executor first runs an EXTRACT (R168, R170). -/
  | extract (bus : Bus)
  /-- EXTRACT_PART_STEP: the running EXTRACT moves to its next part (R169). -/
  | extractPartStep (bus : Bus)
  /-- CATALOG_READ: the executor first runs a CATALOG-READ (R38). -/
  | catalogRead (bus : Bus)
  /-- CATALOG_READ_STEP: the running catalog walk judges the segment at its number (R37). -/
  | catalogReadStep (bus : Bus)
  /-- JOURNAL_READ: the executor first runs a JOURNAL-READ (R180). -/
  | journalRead (bus : Bus)
  /-- JOURNAL_READ_STEP: the running journal read writes its next entry (R180). -/
  | journalReadStep (bus : Bus)
  /-- JOURNAL_RELEASE: the quick slip runs (R181). -/
  | journalRelease (bus : Bus)
  /-- CLOSE: the quick slip runs (R32). -/
  | close (bus : Bus)
  /-- CLASSMAP: the quick slip runs (R139). -/
  | classmap (bus : Bus)
  /-- HOLD: the quick slip runs (R149). -/
  | hold (bus : Bus)
  /-- RELEASE: the quick slip runs (R150). -/
  | release (bus : Bus)
  /-- CUT: the quick slip runs (R93). -/
  | cut (bus : Bus)
  /-- EDITION_LOAD: the quick slip runs (R95). -/
  | editionLoad (bus : Bus)
  /-- CONTEXT_READ: the quick slip runs (R82). -/
  | contextRead (bus : Bus)
  /-- CONTEXT_WRITE: the quick slip runs (R83). -/
  | contextWrite (bus : Bus)
  /-- RESOLVE: the quick slip runs (R167). -/
  | resolve (bus : Bus)
  /-- SETTINGS: the quick slip runs (R140). -/
  | settings (bus : Bus)
  /-- SCRUB_STEP: the walking scrub judges the segment at its cursor (R165). -/
  | scrubStep
deriving DecidableEq, Repr

end Sys2Proof
end

