-- ==== Sys2Proof/Decode.lean ====
section
/-! DEFINITION. The command that a word of the opcode table spells. The table gives bits to no row (its commands are events
at registers, pins, lanes and slips), so no word spells a command. -/

namespace Sys2Proof

/-- The command whose bits are w: none, because no row of the table has bits (log 7). -/
def decodeTableWord (_nbits _w : Nat) : Option Instr := none

end Sys2Proof
end

