-- ==== Sys2Proof/Config.lean ====
section
/-! DEFINITION. The fixed sizes of the engine (Capacities, and the rule named at each), and the values that the spec leaves
open, as constants without a body. -/

namespace Sys2Proof.Config

/-- Extents of one lane (R16). -/
abbrev extentsPerLane : Nat := 16384
/-- One past the last segment number (R16). -/
abbrev segmentEnd : Nat := 262144
/-- Journal extents of one lane, indices 0 to 3 (R16). -/
abbrev journalExtents : Nat := 4
/-- Usable extents of one lane (R16). -/
abbrev usablePerLane : Nat := 16380
/-- Bytes of one extent (The Segment Catalog). -/
abbrev extentBytes : Nat := 67108864
/-- Greatest part number of a stream key (R23). -/
abbrev partMax : Nat := 65535
/-- Most FILLING segments (R27). -/
abbrev fillingMax : Nat := 256
/-- The erase count at which an extent is retired (R34). -/
abbrev wearLimit : Nat := 10000
/-- Greatest value of a saturating archive day, expiry day or erase count (R18, R138). -/
abbrev dayMax : Nat := 65535
/-- Staging pages of the pool (R52). -/
abbrev poolPages : Nat := 8192
/-- Records of one staging page, and the commit interval (R52, R56). -/
abbrev pageRecords : Nat := 1024
/-- Most entries of a pending gap list (R75). -/
abbrev pendingMax : Nat := 256
/-- Most ranges of the gap table (R76). -/
abbrev gapTableMax : Nat := 4096
/-- Slots of one tally (R85). -/
abbrev tallySlots : Nat := 512
/-- Greatest tally count (R85). -/
abbrev tallyMax : Nat := 4294967295
/-- Most entries of an edition table (R88). -/
abbrev tableMax : Nat := 256
/-- Most records of a column block (R106). -/
abbrev blockRecords : Nat := 64
/-- Window grants of one share window (R130). -/
abbrev windowGrants : Nat := 256
/-- Consecutive media errors that take a lane OFFLINE (R132). -/
abbrev errorLimit : Nat := 3
/-- Most active holds (R148). -/
abbrev holdsMax : Nat := 64
/-- Greatest retention count (R141). -/
abbrev retentionMax : Nat := 16383
/-- Greatest late window (R140). -/
abbrev lateWindowMax : Nat := 31
/-- Greatest gap horizon (R140). -/
abbrev gapHorizonMax : Nat := 366
/-- Bytes of one fetch (R157). -/
abbrev fetchBytes : Nat := 1048576
/-- Most pins of one segment (R156). -/
abbrev pinMax : Nat := 4
/-- Greatest fail count (R161). -/
abbrev failMax : Nat := 15
/-- Entries of the journal buffer (R175). -/
abbrev journalBuffer : Nat := 4096
/-- Most unreleased entries, the journal window (R176). -/
abbrev journalWindow : Nat := 1048576
/-- Room kept for producers that are already running (R177). -/
abbrev journalReserve : Nat := 65536
/-- Most entries of one run (R178). -/
abbrev runMax : Nat := 128
/-- Entry places of one journal extent (R178). -/
abbrev extentEntries : Nat := 2097152
/-- Entry places of one lane's journal area (R178). -/
abbrev areaEntries : Nat := 8388608
/-- Least and greatest sweep period other than 0, in microseconds (R184). -/
abbrev periodMin : Nat := 100
abbrev periodMax : Nat := 10000000
/-- Suspended operations of the service executor (R190). -/
abbrev suspendedMax : Nat := 2
/-- The header marker H and the record marker R (Day-file header and record). -/
abbrev headerMarker : Byte := 0x48
abbrev recordMarker : Byte := 0x52
/-- The bound of a gap and of a restart in sequence distance (R68). -/
abbrev aheadLimit : Nat := 1048576
abbrev behindLimit : Nat := 2147483648
/-- What a byte of host memory that nothing has written reads as. DESIGN CHOICE, unsafe (log 2). -/
abbrev hostFill : Byte := 0
/-- What a byte not written since the extent's last erase reads as (R131). -/
abbrev mediaFill : Byte := 0xFF

/-- FREE VALUE (log 3). The byte the engine takes when a bus read fails at a place for which the spec states no result
(a slip's kind or parameters, an answer status at the rebuild): of the model's counter and of the address. -/
opaque unreadByte : Nat → Nat → Byte

/-- FREE VALUE (log 4). The revision shown in ENGINE STATE bits 48 to 55, which the spec does not give. -/
opaque revision : Byte

/-- FREE VALUE (log 3). The position a VERIFY-FAIL of cause DECODE carries when every block decodes and the totals disagree:
no block fails, and the spec states no index for it (R159, R161). -/
opaque totalsPosition : Nat → Nat

end Sys2Proof.Config
end

