-- ==== Sys2Proof/Machine/State.lean ====
section
/-! DEFINITION. State of the Arbedon 2460 as plain data: one structure for each block of the block overview, what each
block keeps, the reasons a step can stop, and the state right after power-on with the validity stamp absent. -/

namespace Sys2Proof.Machine

/-! ## Names the manual fixes -/

/-- The engine states, in the order of ENGINE STATE's codes 0 to 3 (R197, Register fields). -/
inductive EngineState where
  | blank | formatting | recovering | ready
deriving DecidableEq, Repr

/-- The causes of RESTART, in the order of R183. -/
inductive StartCause where
  | powerOn | engineReset
deriving DecidableEq, Repr

/-- The recovery under way, kept for as long as the engine is RECOVERING: its cause and how many of the eight restorations of
R197 it has made. In the other engine states it is `Recovery.start .powerOn`. -/
structure Recovery where
  cause : StartCause
  made : Nat
deriving DecidableEq, Repr

/-- A recovery of which nothing has been made. -/
def Recovery.start (cause : StartCause) : Recovery := { cause := cause, made := 0 }

/-- Answer statuses, in the order of their codes 1 to 21 (Shared-Memory Formats). -/
inductive Status where
  | done | partialDone | busy | streamBusy | range | badSwitch | badHeader | badTable | futureDay | notFound
  | duplicateHold | holdListFull | editionStoreFull | journalFull | ringFault | gapOverflow | wrongState | unknownKind
  | restarted | mediaError | gone
deriving DecidableEq, Repr

/-- Slip kinds, in the order of their codes 1 to 20 (Parameters and answers by kind). -/
inductive Kind where
  | format | ingest | advance | expire | retain | verify | extract | journalRead | catalogRead | close | classmap | hold
  | release | cut | editionLoad | contextRead | contextWrite | journalRelease | resolve | settings
deriving DecidableEq, Repr

/-- Notice counters, in mask order (R195). -/
inductive Counter where
  | answers | findings | freeWatch | stalls | editions | scrubLaps | laneFaults | restarts
deriving DecidableEq, Repr

/-- Journal entry kinds, in the order of their codes 1 to 31 (R174, R202). -/
inductive EntryKind where
  | fileClosed | fileAborted | balanceMismatch | lateFile | repeatFile | trailingBytes | gapOpened | gapAbandoned | lateFill
  | sequenceRestart | contextWritten | segmentClosed | storeFailed | streamLimit | segmentExpired | extentRetired
  | expirySummary | holdPlaced | holdReleased | retentionChanged | classmapChanged | settingsChanged | editionCut
  | editionFreed | verifyFail | suspectResolved | scrubLap | laneOffline | dayAdvanced | restart | formatted
deriving DecidableEq, Repr

/-- A stream key: switch, record day, retention group (Conventions). -/
structure StreamKey where
  switch : Nat
  day : Nat
  group : Nat
deriving DecidableEq, Repr

/-! ## The catalog unit -/

/-- The states of an extent that holds a segment (R18). -/
inductive LiveState where
  | filling | closed | erasing
deriving DecidableEq, Repr

/-- A segment's verification standing (R18, glossary). -/
inductive AuditMark where
  | unverified | verified | suspect
deriving DecidableEq, Repr

/-- A segment's binding to an edition: slot and serial (R97). -/
structure EditionRef where
  slot : SlotNo
  serial : Word32
deriving DecidableEq, Repr

/-- The segment fields of a segment record, with the reserve mark and the stores in flight (R18, R28). -/
structure Segment where
  key : StreamKey
  part : Nat
  edition : Option EditionRef
  records : Nat
  blocks : Nat
  bytes : Nat
  firstSeq : Option SeqNo
  lastSeq : Option SeqNo
  digest : Word32
  link : Word32
  expiry : Nat
  mark : AuditMark
  verified : Option Nat
  fails : Nat
  pins : Nat
  reserve : Nat
  inFlight : Nat
deriving DecidableEq, Repr

/-- What an extent holds: nothing (FREE), a segment, or nothing ever again (RETIRED). The segment fields are present
exactly in FILLING, CLOSED and ERASING (R18). -/
inductive Content where
  | free
  | live (st : LiveState) (seg : Segment)
  | retired
deriving DecidableEq, Repr

/-- A segment record: what every record has, and its content (R18). -/
structure Extent where
  content : Content
  erases : Nat
  fault : Bool
deriving DecidableEq, Repr

/-- The record that FORMAT gives an erased extent (R40); the record of a usable extent that the table does not list. -/
def Extent.fresh : Extent := { content := .free, erases := 0, fault := false }

/-- A directory entry (R22). -/
structure DirEntry where
  highest : Nat
  digest : Word32
  filling : Option Nat
  count : Nat
  limited : Bool
deriving DecidableEq, Repr

/-- The coder's open request as the catalog holds it: before or after its arrival stage (R26). -/
structure OpenRequest where
  key : StreamKey
  arrived : Bool
deriving DecidableEq, Repr

/-- The free-space watch (R35). -/
structure Watch where
  level : Nat
  falling : Bool
  rising : Bool
  low : Bool
deriving DecidableEq, Repr

/-- The catalog unit. The segment table lists, by segment number, the records of the usable set that differ from
`Extent.fresh`; the stream directory is listed by key code. A lane's free pool (R24) is read from the table: it holds
exactly that lane's FREE extents (R21). -/
structure Catalog where
  usable : BitVec 16
  table : List (Nat × Extent)
  dir : List (Nat × DirEntry)
  rotation : LaneNo
  openReq : Option OpenRequest
  watch : Watch
  /-- FORMAT erases not yet completed, and the extents whose FORMAT erase failed (R40). -/
  eraseLeft : Nat
  eraseFailed : List Nat
deriving DecidableEq, Repr

/-! ## Records and staging -/

/-- A record as it is staged and coded, after the corrections of R10: each number is its effective digits. -/
structure Rec where
  cls : Nat
  cause : Nat
  seq : SeqNo
  start : Nat
  duration : Nat
  route : Nat
  site : Nat
  charge : Nat
  calling : List Nat
  called : List Nat
deriving DecidableEq, Repr

/-- The standing of a written place (R52). -/
inductive Standing where
  | held | inFlight | released
deriving DecidableEq, Repr

/-- A written place of a staging page. -/
structure Place where
  data : Rec
  standing : Standing
deriving DecidableEq, Repr

/-- A staging page that is not FREE: OPEN or SEALED (R52). The written count is the length of `places`. -/
structure Page where
  key : StreamKey
  owner : Option ChanNo
  serial : Nat
  sealedUp : Bool
  committed : Nat
  places : List Place
deriving DecidableEq, Repr

/-- The staging pool: the pages in use, in staging order, and the serial counter (R52). The counter holds the serial that the next
page takes (DESIGN CHOICE, log 40) and counts on past 2⁶⁴ − 1 (DESIGN CHOICE, log 38). -/
structure Pool where
  pages : List Page
  serial : Nat
deriving DecidableEq, Repr

/-! ## The reconciliation unit -/

/-- The state of a switch (R66). -/
inductive SwitchState where
  | unseen | idle | feeding
deriving DecidableEq, Repr

/-- A switch context (R66). -/
structure SwitchCtx where
  state : SwitchState
  expected : Option SeqNo
  highDay : Option Nat
  register : Option (Nat × Nat)
  accepted : Nat
  duplicates : Nat
deriving DecidableEq, Repr

/-- The context of a switch that nothing has touched since FORMAT (R84). -/
def SwitchCtx.unseen : SwitchCtx :=
  { state := .unseen, expected := none, highDay := none, register := none, accepted := 0, duplicates := 0 }

/-- A range of the gap table (R76). -/
structure Range where
  switch : Nat
  first : SeqNo
  count : Nat
  day : Nat
deriving DecidableEq, Repr

/-- An entry of a pending gap list (R75). A range of the channel's switch is named by its first number. -/
inductive GapEntry where
  | new (first : SeqNo) (count : Nat)
  | fill (range : SeqNo) (first : SeqNo) (count : Nat)
  | displace (range : SeqNo)
deriving DecidableEq, Repr

/-- The reconciliation unit: the switch contexts that differ from `SwitchCtx.unseen`, by switch id, and the gap table,
oldest range first (R66, R76). -/
structure Recon where
  switches : List (Nat × SwitchCtx)
  gaps : List Range
deriving DecidableEq, Repr

/-! ## The feed unit -/

/-- The states of a feed channel (R44). -/
inductive ChanState where
  | free | header | running | stalled | ending
deriving DecidableEq, Repr

/-- The six per-file counts of R14. -/
structure Counts where
  seen : Nat
  rejected : Nat
  clamped : Nat
  expired : Nat
  duplicates : Nat
  accepted : Nat
deriving DecidableEq, Repr

def Counts.zero : Counts := { seen := 0, rejected := 0, clamped := 0, expired := 0, duplicates := 0, accepted := 0 }

/-- What a channel counts for its file and copies at each commit point: the six counts, the restart count and the two
balances (R14, R50, R72). -/
structure Account where
  counts : Counts
  restarts : Nat
  countBal : Int
  chargeBal : Word64
deriving DecidableEq, Repr

def Account.zero : Account := { counts := Counts.zero, restarts := 0, countBal := 0, chargeBal := 0 }

/-- What a channel keeps of the file whose header it accepted: the switch (bound until R59 step 3 or R60 step 4), the
record day, the working context, the pending gap list, the running account, the filled count, whether a commit point has
been reached and not yet made, the record held while STALLED with its group, and a trailing fragment's length. -/
structure File where
  switch : Nat
  bound : Bool
  day : Nat
  work : SwitchCtx
  pendingGaps : List GapEntry
  account : Account
  filled : Nat
  commitDue : Bool
  held : Option (Rec × Nat)
  trailing : Nat
deriving DecidableEq, Repr

/-- How far a channel's end has come: not begun; the final commit point made, with entries of its merge still waiting (R59
step 1, R50); or the closing entries submitted, to end with an answer or without one. -/
inductive Closing where
  | none
  | committed
  | answer (status : Status) (values : List Byte)
  | silent
deriving DecidableEq, Repr

/-- A channel's binding, kept in retained memory: the slip, and, once a header is accepted, the switch and the committed
copy (R64). -/
structure Binding where
  slip : Option SlipNo
  file : Option (Nat × Account)
deriving DecidableEq, Repr

/-- A feed channel's working state; `slip` is none in a channel detached from its slip. -/
structure Channel where
  state : ChanState
  slip : Option SlipNo
  ringBase : Nat
  ringSize : Nat
  filledSeen : Nat
  drained : Nat
  finalTotal : Option Nat
  file : Option File
  closing : Closing
deriving DecidableEq, Repr

def Channel.idle : Channel :=
  { state := .free, slip := none, ringBase := 0, ringSize := 0, filledSeen := 0, drained := 0, finalTotal := none,
    file := none, closing := .none }

/-- The feed unit: eight channels, their retained bindings, and the channels that are STALLED, longest waiting first. -/
structure Feed where
  chans : Vector Channel 8
  bindings : Vector (Option Binding) 8
  stalled : List ChanNo
deriving DecidableEq, Repr

/-! ## Tallies and editions -/

/-- A tally: its occupied slots by slot number, each a value and a count (R85). -/
abbrev Tally (α : Type) := List (Nat × (α × Nat))

/-- The three tables of an edition (R88). -/
structure Edition where
  routes : List Nat
  sites : List Nat
  prefixes : List (List Nat)
deriving DecidableEq, Repr

def Edition.empty : Edition := { routes := [], sites := [], prefixes := [] }

/-- The states of an edition slot (R89). -/
inductive SlotState where
  | free | current | retained
deriving DecidableEq, Repr

/-- An edition slot (R89). A FREE slot holds serial 0, count 0 and no table entries. -/
structure EditionSlot where
  state : SlotState
  serial : Word32
  refs : Nat
  edition : Edition
deriving DecidableEq, Repr

def EditionSlot.freeSlot : EditionSlot := { state := .free, serial := 0, refs := 0, edition := Edition.empty }

/-- The tally and edition unit. -/
structure Editions where
  routes : Tally Nat
  sites : Tally Nat
  prefixes : Tally (List Nat)
  slots : Vector EditionSlot 32
  serial : Word32
deriving DecidableEq, Repr

/-! ## The coder -/

/-- The states of the coder (R102). -/
inductive CoderState where
  | idle | coding | waitingExtent | waitingLane
deriving DecidableEq, Repr

/-- A staged place, named by its page's serial and its index. -/
abbrev PlaceId := Nat × Nat

/-- A block buffer (R103). FORMING holds the block in hand: its key and places. IN-FLIGHT keeps the segment, the offset,
the places and the bytes. -/
inductive Buffer where
  | free
  | forming (key : StreamKey) (places : List PlaceId)
  | inFlight (seg : Nat) (offset : Nat) (places : List PlaceId) (first last : SeqNo) (bytes : List Byte)
deriving DecidableEq, Repr

/-- The coder: its state, its two buffers, and its target segment while CODING (R102, R113). -/
structure Coder where
  state : CoderState
  buffers : Vector Buffer 2
  target : Option Nat
deriving DecidableEq, Repr

/-! ## The lanes -/

/-- Who reads a segment: an operation of the executor, by admission number, or the scrub (R156). -/
inductive Reader where
  | op (adm : Nat)
  | scrub
deriving DecidableEq, Repr

/-- A lane's requests (R124). -/
inductive Request where
  | store (seg offset : Nat) (buf : Fin 2) (bytes : List Byte)
  | fetch (seg offset length : Nat) (reader : Reader)
  | erase (seg : Nat)
  | journalWrite (extent position : Nat) (bytes : List Byte)
deriving DecidableEq, Repr

/-- A lane: its state, its three queues, the request in progress, the error run with the last request that failed, and
its window counters (R123, R125, R129, R132). -/
structure Lane where
  online : Bool
  inProgress : Option Request
  journalQ : List Request
  foreQ : List Request
  backQ : List Request
  errorRun : Nat
  lastError : Option Request
  window : Word32
  grants : Nat
  backGrants : Nat
  quota : Option Nat
deriving DecidableEq, Repr

/-- A lane just after lane start (R136). -/
def Lane.start (online : Bool) : Lane :=
  { online := online, inProgress := none, journalQ := [], foreQ := [], backQ := [], errorRun := 0, lastError := none,
    window := 0, grants := 0, backGrants := 0, quota := none }

/-- The lane arbiter and lanes: the sixteen lanes and the current share (R128). -/
structure Lanes where
  lane : Vector Lane 16
  share : Nat
deriving DecidableEq, Repr

/-! ## The retention and expiry unit -/

/-- A group of the retention table: its days and, while its walk-pending mark is raised, the old and new count of the
pending walk (R141, R143). -/
structure Group where
  days : Nat
  walk : Option (Nat × Nat)
deriving DecidableEq, Repr

/-- A switch selector with a day range and a group mask: a selection of VERIFY and CATALOG-READ, and what a hold covers
(R37, R148, R162). -/
structure Selection where
  switch : Nat
  all : Bool
  mask : Byte
  first : Nat
  last : Nat
deriving DecidableEq, Repr

/-- A hold (R148). -/
structure Hold where
  id : Word32
  cover : Selection
  placed : Nat
deriving DecidableEq, Repr

/-- The retention and expiry unit. Erase completions held for journal room (R147) stand in the journal's line. -/
structure Retention where
  day : Nat
  classMap : Vector GroupNo 8
  groups : Vector Group 4
  holds : List Hold
  lateWindow : Nat
  gapHorizon : Nat
  autoCut : Bool
deriving DecidableEq, Repr

/-! ## The audit unit -/

/-- The decoding position of a reader: the bytes not yet decoded, the counts of the blocks taken, the first and last
decoded sequence, and the index of the block that failed (R159). -/
structure BlockWalk where
  rest : List Byte
  blocks : Nat
  records : Nat
  first : Option SeqNo
  last : Option SeqNo
  bad : Option Nat
deriving DecidableEq, Repr

def BlockWalk.start : BlockWalk := { rest := [], blocks := 0, records := 0, first := none, last := none, bad := none }

/-- One reader's visit of the segment it has pinned: the read length, how many bytes have been asked for, whether a fetch
is outstanding, the bytes of a fetch that completed at its suspension (R163), the partial digest (bytes folded so far), the
decoding position, and whether the verdict has been given and waits for its entry (R156 to R161). -/
structure Visit where
  seg : Nat
  length : Nat
  asked : Nat
  waiting : Bool
  kept : Option (List Byte)
  digest : Word32
  walk : BlockWalk
  judged : Bool
deriving DecidableEq, Repr

/-- The states of the scrub (R164). -/
inductive ScrubState where
  | resting | walking | stepping
deriving DecidableEq, Repr

/-- The scrub: cursor, lap counts and start day, state, whether it waits at its cursor for journal room, the two settings, and
the step in progress (R164, R165). -/
structure Scrub where
  cursor : Nat
  checked : Nat
  failed : Nat
  startDay : Option Nat
  state : ScrubState
  awaitsRoom : Bool
  enable : Bool
  period : Nat
  visit : Option Visit
deriving DecidableEq, Repr

/-! ## The journal -/

/-- An entry's subject (R174). -/
inductive Subject where
  | none
  | key (k : StreamKey)
  | segment (n : Nat)
  | switch (n : Nat)
  | hold (id : Word32)
deriving DecidableEq, Repr

/-- What a submitting block gives: kind, subject and three values (R174). -/
structure EntryBody where
  kind : EntryKind
  subject : Subject
  v1 : Int
  v2 : Nat
  v3 : Nat
deriving DecidableEq, Repr

/-- An entry as the journal holds it; `second` tells the two entries of a pair apart (R174, R202). -/
structure Entry where
  seq : Nat
  day : Nat
  second : Bool
  body : EntryBody
deriving DecidableEq, Repr

/-- Which producer waits with a submission (R175). -/
inductive Producer where
  | chan (c : ChanNo)
  | op (adm : Nat)
  | scrub
  | block
deriving DecidableEq, Repr

/-- What happens at the event at which the journal takes a submission: a channel's binding is cleared (R59), a channel goes on
from its wait (R50) or ends (R59, R60), an erase is completed in the catalog (R147), a reader's verdict is finished
(R161), a scrub lap ends (R166), an operation ends (R144, R146), RESTARTS advances (R183). -/
inductive OnTake where
  | clearBinding (c : ChanNo)
  | chanOn (c : ChanNo)
  | chanDone (c : ChanNo)
  | eraseDone (seg : Nat) (ok : Bool)
  | verdict (r : Reader)
  | lapEnd
  | endOp (adm : Nat)
  | restarted
deriving DecidableEq, Repr

/-- A submission: one entry or a pair, its producer, and what its taking brings about (R175). -/
structure Submission where
  entries : List EntryBody
  who : Producer
  acts : List OnTake
deriving DecidableEq, Repr

/-- The outstanding journal write: its lane, its first entry and its length (R178). -/
structure Run where
  lane : LaneNo
  first : Nat
  count : Nat
deriving DecidableEq, Repr

/-- The journal: the entry store (from the release mark to the head), the journal buffer (from the settled mark to the
head), the three marks, the outstanding write, the write pointer and the line of waiting submissions (The Audit
Journal, R183). The marks count on past 2⁶⁴ − 1 (DESIGN CHOICE, log 38). -/
structure Journal where
  store : List Entry
  buffer : List Entry
  head : Nat
  release : Nat
  settled : Nat
  out : Option Run
  pointer : LaneNo
  line : List Submission
deriving DecidableEq, Repr

/-! ## The service executor -/

/-- The parameters of FORMAT (R39). -/
structure FormatParams where
  day : Nat
  horizon : Nat
  days : List Nat
  window : Nat
deriving DecidableEq, Repr

/-- An expiry pass: its cursor and four counts (R145), and whether it waits at its cursor for journal room (R146). -/
structure Pass where
  cursor : Nat
  issued : Nat
  held : Nat
  deferred : Nat
  blocked : Nat
  awaitsRoom : Bool
deriving DecidableEq, Repr

def Pass.start : Pass := { cursor := 0, issued := 0, held := 0, deferred := 0, blocked := 0, awaitsRoom := false }

/-- The outcome of an ADVANCE's automatic cut, in the order of its codes (R94, R152). -/
inductive CutOutcome where
  | made (serial : Word32) | full | off
deriving DecidableEq, Repr

/-- The figures of VERIFY's answer (R162). -/
structure VerifyCounts where
  checked : Nat
  passed : Nat
  failed : Nat
  skipped : Nat
deriving DecidableEq, Repr

/-- The parameters of EXTRACT (R168). -/
structure ExtractParams where
  switch : Nat
  day : Nat
  mask : Byte
  range : Option (Nat × Nat)
  resume : Option (Nat × Nat × Nat)
  buffer : Nat
  capacity : Nat
deriving DecidableEq, Repr

/-- The progress of an EXTRACT (R169): the groups still to visit, the key under way with its next part and its highest
part, the visit with the block and record before which nothing is written, and the four counts. -/
structure ExtractState where
  groups : List Nat
  key : Option (Nat × Nat × Nat)
  visit : Option Visit
  skip : Option (Nat × Nat)
  written : Nat
  read : Nat
  skipped : Nat
  missing : Nat
deriving DecidableEq, Repr

def ExtractState.start : ExtractState :=
  { groups := [], key := none, visit := none, skip := none, written := 0, read := 0, skipped := 0, missing := 0 }

/-- A long operation's parameters and progress. An ADVANCE keeps what its first four steps answered. -/
inductive OpBody where
  | format (p : FormatParams)
  | advance (newDay closed abandoned : Nat) (cut : CutOutcome) (pass : Pass)
  | expire (pass : Pass)
  | walk (group : GroupNo) (cursor raised : Nat)
  | verify (sel : Selection) (cursor : Nat) (counts : VerifyCounts) (visit : Option Visit)
  | extract (p : ExtractParams) (st : ExtractState)
  | journalRead (start capacity buffer : Nat) (stop next : Nat)
  | catalogRead (sel : Selection) (buffer capacity : Nat) (cursor written : Nat)
deriving DecidableEq, Repr

/-- An operation of the service executor (R190): its slip (none when detached, R199, or placed by recovery, R154), its
admission number, priority and urgent flag, whether it has first run, whether a withdrawal stops it (R192), and whether it
has come to its end and waits for its closing entry. -/
structure Op where
  slip : Option SlipNo
  adm : Nat
  prio : Nat
  urgent : Bool
  begun : Bool
  stopping : Bool
  ended : Bool
  body : OpBody
deriving DecidableEq, Repr

/-- The service executor: the running operation, the suspended ones (most recently suspended first), the waiting list in
admission order, and the admission number of the operation whose preemption is requested (R190, R191). -/
structure Exec where
  running : Option Op
  suspended : List Op
  waiting : List Op
  preempt : Option Nat
deriving DecidableEq, Repr

/-! ## The desk unit -/

/-- A slip admitted by a sweep: its number, priority, admission number, urgent flag, kind and parameter area (R188). -/
structure Admitted where
  slip : SlipNo
  prio : Nat
  adm : Nat
  urgent : Bool
  kind : Kind
  params : List Byte
deriving DecidableEq, Repr

/-- The sweep under way: quick slips still to run, in order, and the long operations to hand over, in admission order. -/
structure Sweep where
  quick : List Admitted
  long : List Op
deriving DecidableEq, Repr

/-- Whether the engine holds a slip, and whether a withdrawal of it has been noted (R187, R192). -/
inductive Holding where
  | notHeld | held | withdrawn
deriving DecidableEq, Repr

/-- The desk unit (R184 to R196): the DESK BASE register and the desk now in use, whether a write of DESK BASE waits for the
sweep under way to end (R199), SWEEP PERIOD, the sweep timer's count, whether a sweep has been asked for, the sweep under
way, whether the next sweep is the first after a start-up or desk change, the settings taken from the header, the held
slips, the next admission number (which counts on past 2⁶⁴ − 1: DESIGN CHOICE, log 38), the admission list, the answer map
(0 clear, otherwise the status code), the notice counters, and the notice gate with its kept values. `messages` counts the
interrupt messages sent: the model's own record of an output. -/
structure Desk where
  base : Word64
  place : Nat
  baseWritten : Bool
  period : Word32
  timer : Nat
  asked : Bool
  sweep : Option Sweep
  first : Bool
  threshold : Nat
  enable : Byte
  held : Vector Holding 64
  nextAdm : Nat
  list : List Admitted
  map : Vector Byte 64
  counters : Vector Word32 8
  gateOpen : Bool
  kept : Vector Word32 8
  messages : Nat
deriving DecidableEq, Repr

/-! ## The whole state -/

/-- The state of the engine with what lies beside it: host memory as the bus shows it and the flash modules' bytes. -/
structure State where
  /-- The commands that are waiting, first in, first out. -/
  pending : List Instr
  /-- Whether the board is powered (R197, Board notes). -/
  powered : Bool
  /-- The validity stamp of retained memory (R41). -/
  stamp : Bool
  engine : EngineState
  /-- The recovery under way while the engine is RECOVERING (R197). -/
  recovery : Recovery
  desk : Desk
  exec : Exec
  feed : Feed
  pool : Pool
  recon : Recon
  eds : Editions
  coder : Coder
  cat : Catalog
  lanes : Lanes
  ret : Retention
  scrub : Scrub
  jnl : Journal
  /-- Host memory: desk, landing rings, tables and buffers. -/
  mem : Memory
  /-- The address ranges (first, count) in which bus reads fail at the command under way. -/
  fails : List (Nat × Nat)
  /-- The modules' bytes: byte b of the extent with segment number n stands at n × 67,108,864 + b. -/
  media : Memory
  /-- The model's own counter, from which each command draws its free values (log 3). -/
  fresh : Nat
deriving DecidableEq, Repr

/-! ## How a step can stop -/

/-- Faults. There is none: every command the spec describes leaves the engine in a next state, so nothing raises a fault. -/
inductive Fault where
deriving DecidableEq, Repr

/-- Refusals. `notModelled` stands for a command without a meaning in the model; it would be raised by exec's arm alone,
and no arm of this model raises it. Safe. -/
inductive Refusal where
  | notModelled (mnemonic : String)
deriving DecidableEq, Repr

/-! ## The state right after power-on with the validity stamp absent -/

def Watch.start : Watch := { level := 0, falling := false, rising := false, low := false }

def Catalog.blank : Catalog :=
  { usable := 0, table := [], dir := [], rotation := 0, openReq := none, watch := Watch.start, eraseLeft := 0,
    eraseFailed := [] }

def Feed.blank : Feed :=
  { chans := Vector.replicate 8 Channel.idle, bindings := Vector.replicate 8 none, stalled := [] }

def Pool.blank : Pool := { pages := [], serial := 0 }

def Recon.blank : Recon := { switches := [], gaps := [] }

def Editions.blank : Editions :=
  { routes := [], sites := [], prefixes := [], slots := Vector.replicate 32 EditionSlot.freeSlot, serial := 0 }

def Coder.blank : Coder := { state := .idle, buffers := Vector.replicate 2 Buffer.free, target := none }

/-- R155. -/
def Retention.blank : Retention :=
  { day := 0, classMap := Vector.replicate 8 0, groups := Vector.replicate 4 { days := 1, walk := none }, holds := [],
    lateWindow := 7, gapHorizon := 62, autoCut := true }

/-- R173; the scrub period before the first sweep is named in log 5. -/
def Scrub.blank : Scrub :=
  { cursor := 0, checked := 0, failed := 0, startDay := none, state := .resting, awaitsRoom := false, enable := false,
    period := 1, visit := none }

/-- R183. -/
def Journal.blank : Journal :=
  { store := [], buffer := [], head := 1, release := 1, settled := 1, out := none, pointer := 0, line := [] }

def Exec.blank : Exec := { running := none, suspended := [], waiting := [], preempt := none }

/-- R184, R185, R195, R196; the settings before the first sweep are named in log 5. -/
def Desk.blank : Desk :=
  { base := 0, place := 0, baseWritten := false, period := 0, timer := 0, asked := false, sweep := none, first := true,
    threshold := 0, enable := 0, held := Vector.replicate 64 .notHeld, nextAdm := 0, list := [],
    map := Vector.replicate 64 0, counters := Vector.replicate 8 0, gateOpen := false, kept := Vector.replicate 8 0,
    messages := 0 }

/-- Every lane OFFLINE: lane start with no module answering (R123; log 1). -/
def Lanes.blank : Lanes := { lane := Vector.replicate 16 (Lane.start false), share := 0 }

/-- The engine right after a power-on with the validity stamp absent and no module answering: BLANK (R197, R41; log 1). -/
def State.reset : State :=
  { pending := [], powered := true, stamp := false, engine := .blank, recovery := Recovery.start .powerOn, desk := Desk.blank,
    exec := Exec.blank, feed := Feed.blank, pool := Pool.blank, recon := Recon.blank, eds := Editions.blank, coder := Coder.blank,
    cat := Catalog.blank, lanes := Lanes.blank, ret := Retention.blank, scrub := Scrub.blank, jnl := Journal.blank,
    mem := [], fails := [], media := [], fresh := 0 }

end Sys2Proof.Machine
end

