-- ==== Sys2Proof/Machine/Ops.lean ====
section
/-! DEFINITION. The named operations over tables, memories and banks: a table sorted by key, a memory in its one canonical
form, a fixed bank, little-endian fields, the update of one block of State, and host memory as the bus reaches it. -/

namespace Sys2Proof.Machine

/-! ## Tables sorted by key -/

/-- What a table holds at a key. -/
def tfind {α : Type} (k : Nat) : List (Nat × α) → Option α
  | [] => none
  | (a, v) :: t => if a = k then some v else tfind k t

/-- The table with a value at a key, keys strictly rising. -/
def tput {α : Type} (k : Nat) (v : α) : List (Nat × α) → List (Nat × α)
  | [] => [(k, v)]
  | (a, w) :: t => if k < a then (k, v) :: (a, w) :: t else if k = a then (k, v) :: t else (a, w) :: tput k v t

/-- The table without a key. -/
def tdrop {α : Type} (k : Nat) : List (Nat × α) → List (Nat × α)
  | [] => []
  | (a, w) :: t => if a = k then t else (a, w) :: tdrop k t

/-- A table in which an unlisted key holds `d`: what it holds at a key. -/
def dfind {α : Type} (d : α) (k : Nat) (t : List (Nat × α)) : α := (tfind k t).getD d

/-- A table in which an unlisted key holds `d`: the table with a value at a key, in canonical form. -/
def dput {α : Type} [DecidableEq α] (d : α) (k : Nat) (v : α) (t : List (Nat × α)) : List (Nat × α) :=
  if v = d then tdrop k t else tput k v t

/-- Whether keys rise strictly. -/
def rising {α : Type} : List (Nat × α) → Bool
  | [] => true
  | [_] => true
  | (a, _) :: (b, w) :: t => decide (a < b) && rising ((b, w) :: t)

/-- The canonical form of a table in which an unlisted key holds `d`. -/
def canonical {α : Type} [DecidableEq α] (d : α) (t : List (Nat × α)) : Bool :=
  rising t && t.all fun p => decide (p.2 ≠ d)

/-! ## Memories -/

/-- The byte at an address, where an unlisted address reads as `fill`. -/
def Memory.byte (fill : Byte) (m : Memory) (a : Nat) : Byte := dfind fill a m

/-- A write of one byte. -/
def Memory.write (fill : Byte) (m : Memory) (a : Nat) (b : Byte) : Memory := dput fill a b m

/-- A write of bytes from an address upwards. -/
def Memory.writeAll (fill : Byte) (m : Memory) (a : Nat) : List Byte → Memory
  | [] => m
  | b :: bs => Memory.writeAll fill (Memory.write fill m a b) (a + 1) bs

/-- Writes of single bytes, in order. -/
def Memory.writeCells (fill : Byte) (m : Memory) : List (Nat × Byte) → Memory
  | [] => m
  | (a, b) :: cs => Memory.writeCells fill (Memory.write fill m a b) cs

/-- The bytes of a span, lowest address first. -/
def Memory.bytes (fill : Byte) (m : Memory) (a : Nat) : Nat → List Byte
  | 0 => []
  | n + 1 => Memory.byte fill m a :: Memory.bytes fill m (a + 1) n

/-- The memory with every byte of a span reading as `fill` again. -/
def Memory.clear (m : Memory) (a n : Nat) : Memory := m.filter fun c => !(a ≤ c.1 && c.1 < a + n)

/-- The canonical form of a memory. -/
def Memory.wf (fill : Byte) (m : Memory) : Bool := canonical fill m

/-! ## The staging pool -/

/-- The pages in use stand in the order of their staging serials, each below the serial counter, so that no two have one serial, and
there are at most 8,192 (R52, R105). -/
def Pool.legal (p : Pool) : Bool :=
  decide (p.pages.Pairwise fun a b => a.serial < b.serial) && (p.pages.all fun q => decide (q.serial < p.serial))
    && decide (p.pages.length ≤ Config.poolPages)

/-! ## Banks -/

/-- Entry i of a fixed bank. -/
def bget {α : Type} {n : Nat} (v : Vector α n) (i : Fin n) : α := v[i.val]'i.isLt

/-- The bank with entry i replaced. -/
def bset {α : Type} {n : Nat} (v : Vector α n) (i : Fin n) (x : α) : Vector α n := v.set i.val x i.isLt

/-- The bank with entry i changed. -/
def bmod {α : Type} {n : Nat} (v : Vector α n) (i : Fin n) (f : α → α) : Vector α n := bset v i (f (bget v i))

/-- The numbers 0 to n - 1 of a bank, in ascending order. -/
def indices (n : Nat) : List (Fin n) := (List.range n).attach.map fun i => ⟨i.1, List.mem_range.mp i.2⟩

/-! ## Fields -/

/-- The value of little-endian bytes. -/
def leValue : List Byte → Nat
  | [] => 0
  | b :: bs => b.toNat + 256 * leValue bs

/-- The n little-endian bytes of a value. -/
def leBytes : Nat → Nat → List Byte
  | 0, _ => []
  | n + 1, v => BitVec.ofNat 8 v :: leBytes n (v / 256)

/-- A field of n bytes at an offset of a structure's bytes; bytes beyond its end count as 0. -/
def field (bs : List Byte) (offset n : Nat) : Nat := leValue ((bs.drop offset).take n)

/-- An unsigned quantity in a field of n bytes saturates at the field's maximum (R200). -/
def unsignedField (n v : Nat) : List Byte := leBytes n (min v (256 ^ n - 1))

/-- A signed quantity in a signed 4-byte field is clamped (R200). -/
def signedField (v : Int) : List Byte :=
  leBytes 4 ((max (-(2 ^ 31)) (min v (2 ^ 31 - 1)) % 2 ^ 32).toNat)

/-- A flag byte is set when non-zero; the engine writes a set flag as 1 (R200). -/
def flagSet (b : Byte) : Bool := b != 0
def flagByte (b : Bool) : Byte := if b then 1 else 0

/-! ## Blocks of State -/

namespace State

def onDesk (f : Desk → Desk) (s : State) : State := { s with desk := f s.desk }
def onExec (f : Exec → Exec) (s : State) : State := { s with exec := f s.exec }
def onFeed (f : Feed → Feed) (s : State) : State := { s with feed := f s.feed }
def onPool (f : Pool → Pool) (s : State) : State := { s with pool := f s.pool }
def onRecon (f : Recon → Recon) (s : State) : State := { s with recon := f s.recon }
def onEds (f : Editions → Editions) (s : State) : State := { s with eds := f s.eds }
def onCoder (f : Coder → Coder) (s : State) : State := { s with coder := f s.coder }
def onCat (f : Catalog → Catalog) (s : State) : State := { s with cat := f s.cat }
def onLanes (f : Lanes → Lanes) (s : State) : State := { s with lanes := f s.lanes }
def onRet (f : Retention → Retention) (s : State) : State := { s with ret := f s.ret }
def onScrub (f : Scrub → Scrub) (s : State) : State := { s with scrub := f s.scrub }
def onJnl (f : Journal → Journal) (s : State) : State := { s with jnl := f s.jnl }
def onMem (f : Memory → Memory) (s : State) : State := { s with mem := f s.mem }
def onMedia (f : Memory → Memory) (s : State) : State := { s with media := f s.media }

/-- The change of one lane, channel or binding. -/
def onLane (l : LaneNo) (f : Lane → Lane) (s : State) : State := s.onLanes fun a => { a with lane := bmod a.lane l f }
def onChan (c : ChanNo) (f : Channel → Channel) (s : State) : State :=
  s.onFeed fun a => { a with chans := bmod a.chans c f }
def setBinding (c : ChanNo) (b : Option Binding) (s : State) : State :=
  s.onFeed fun a => { a with bindings := bset a.bindings c b }
def onSlot (i : SlotNo) (f : EditionSlot → EditionSlot) (s : State) : State :=
  s.onEds fun a => { a with slots := bmod a.slots i f }

/-! ## Host memory as the bus reaches it -/

/-- Host addresses are 64-bit; a write beyond them reaches nothing (log 2). -/
def hostWrite (a : Nat) (bs : List Byte) (s : State) : State :=
  if a + bs.length ≤ 2 ^ 64 then s.onMem (Memory.writeAll Config.hostFill · a bs) else s

/-- Whether a bus read that touches a span fails: one of its addresses lies in a failing range, or beyond the 64-bit
address space (log 2). -/
def readFails (s : State) (a n : Nat) : Bool :=
  decide (2 ^ 64 < a + n) || s.fails.any fun (lo, len) => decide (lo < a + n ∧ a < lo + len)

/-- The bytes a bus read of a span brings when it does not fail. -/
def hostBytes (s : State) (a n : Nat) : List Byte := Memory.bytes Config.hostFill s.mem a n

/-- FREE VALUE (log 3). The bytes the engine takes from a span where the spec states no result of a failed read. -/
def freeBytes (s : State) (a : Nat) : Nat → List Byte
  | 0 => []
  | n + 1 => Config.unreadByte s.fresh a :: freeBytes s (a + 1) n

/-- A bus read for whose failure the spec states no result. -/
def readOrFree (s : State) (a n : Nat) : List Byte :=
  if s.readFails a n then s.freeBytes a n else s.hostBytes a n

/-- A bus read of one byte for whose failure the spec states no result. -/
def byteOrFree (s : State) (a : Nat) : Byte := (s.readOrFree a 1).getD 0 0

/-- A structure's bytes with one field, given by its offset and size, read from host memory. -/
def readField (s : State) (a : Nat) (bs : List Byte) (f : Nat × Nat) : List Byte :=
  bs.take f.1 ++ s.readOrFree (a + f.1) f.2 ++ bs.drop (f.1 + f.2)

/-- The named fields of a structure of n bytes, each read on its own; bytes that no field names are not read and count as 0
(R200). A failed read leaves the field it touches open and no other (log 34). -/
def readFields (s : State) (a n : Nat) (fs : List (Nat × Nat)) : List Byte := fs.foldl (s.readField a) (List.replicate n 0)

/-- What the bus brings at a command: the host's writes reach host memory, the failing ranges are those of the command, and
the model's own counter moves on. -/
def onBus (b : Bus) (s : State) : State :=
  { s with mem := Memory.writeCells Config.hostFill s.mem (b.writes.filter fun c => decide (c.1 < 2 ^ 64)),
           fails := b.fails, fresh := s.fresh + 1 }

/-- A register write, the sweep timer and a microsecond of time act on a powered engine in any engine state; without power
they change nothing (R184, R185, R197, Board notes). -/
def attended (f : State → State) (s : State) : State := if s.powered then f s else s

/-- A lane makes grants and completes requests in every engine state (R126, R132), so its commands act on a powered engine, and on
a RECOVERING one once its first restoration has queued what a lane can grant (log 10). -/
def laneActs (s : State) : Bool := s.powered && (s.engine != .recovering || s.recovery.made != 0)
def laneEvent (f : State → State) (s : State) : State := if s.laneActs then f s else s

/-- Every other command acts on a powered engine that is not RECOVERING. Without power it changes nothing, and while the engine
restores its blocks no sweep, file or operation, and no store or fetch, has yet begun anything that could bring the command about
(R197, Board notes; log 10). -/
def commanded (f : State → State) (s : State) : State := if s.powered && s.engine != .recovering then f s else s

/-- A command that brings something over the bus: host memory changes whether or not the engine acts. -/
def commandedOn (b : Bus) (f : State → State) (s : State) : State := (s.onBus b).commanded f
def laneEventOn (b : Bus) (f : State → State) (s : State) : State := (s.onBus b).laneEvent f

end State

end Sys2Proof.Machine
end

