-- ==== Sys2Proof/Machine/Operands.lean ====
section
/-! DEFINITION. Every layout of Shared-Memory Formats (R200, R202, the desk, parameters and answers by kind, the day file, the
register fields): the codes, the places in the desk, the parameters of each slip kind, and what the engine writes. -/

namespace Sys2Proof.Machine

/-! ## Codes -/

/-- Status codes (The desk). -/
def Status.code : Status → Byte
  | .done => 1 | .partialDone => 2 | .busy => 3 | .streamBusy => 4 | .range => 5 | .badSwitch => 6 | .badHeader => 7
  | .badTable => 8 | .futureDay => 9 | .notFound => 10 | .duplicateHold => 11 | .holdListFull => 12
  | .editionStoreFull => 13 | .journalFull => 14 | .ringFault => 15 | .gapOverflow => 16 | .wrongState => 17
  | .unknownKind => 18 | .restarted => 19 | .mediaError => 20 | .gone => 21

/-- Kind codes 1 to 20; 0 and above 20 name no kind (Parameters and answers by kind). -/
def Kind.ofCode : Nat → Option Kind
  | 1 => some .format | 2 => some .ingest | 3 => some .advance | 4 => some .expire | 5 => some .retain | 6 => some .verify
  | 7 => some .extract | 8 => some .journalRead | 9 => some .catalogRead | 10 => some .close | 11 => some .classmap
  | 12 => some .hold | 13 => some .release | 14 => some .cut | 15 => some .editionLoad | 16 => some .contextRead
  | 17 => some .contextWrite | 18 => some .journalRelease | 19 => some .resolve | 20 => some .settings
  | _ => none

/-- The counter's position in the mask and in the desk header (R195). -/
def Counter.index : Counter → Fin 8
  | .answers => 0 | .findings => 1 | .freeWatch => 2 | .stalls => 3 | .editions => 4 | .scrubLaps => 5 | .laneFaults => 6
  | .restarts => 7

/-- Journal entry kind codes 1 to 31, in the order of R174 (R202). -/
def EntryKind.code : EntryKind → Byte
  | .fileClosed => 1 | .fileAborted => 2 | .balanceMismatch => 3 | .lateFile => 4 | .repeatFile => 5 | .trailingBytes => 6
  | .gapOpened => 7 | .gapAbandoned => 8 | .lateFill => 9 | .sequenceRestart => 10 | .contextWritten => 11
  | .segmentClosed => 12 | .storeFailed => 13 | .streamLimit => 14 | .segmentExpired => 15 | .extentRetired => 16
  | .expirySummary => 17 | .holdPlaced => 18 | .holdReleased => 19 | .retentionChanged => 20 | .classmapChanged => 21
  | .settingsChanged => 22 | .editionCut => 23 | .editionFreed => 24 | .verifyFail => 25 | .suspectResolved => 26
  | .scrubLap => 27 | .laneOffline => 28 | .dayAdvanced => 29 | .restart => 30 | .formatted => 31

/-- The kinds that are findings (the asterisks of R174). -/
def EntryKind.finding : EntryKind → Bool
  | .balanceMismatch | .repeatFile | .trailingBytes | .gapAbandoned | .sequenceRestart | .contextWritten | .storeFailed
  | .streamLimit | .verifyFail | .laneOffline => true
  | _ => false

/-- The place of a value in the list of the rule that defines it, counted from 1 (R200). -/
def SwitchState.code : SwitchState → Nat
  | .unseen => 1 | .idle => 2 | .feeding => 3
def LiveState.code : LiveState → Nat
  | .filling => 2 | .closed => 3 | .erasing => 4
def AuditMark.code : AuditMark → Nat
  | .unverified => 1 | .verified => 2 | .suspect => 3

/-- Causes of closing, in the order of R31's table. -/
inductive CloseCause where
  | full | slip | lateWindow | openLimit | storeError | recovery
deriving DecidableEq, Repr
def CloseCause.code : CloseCause → Nat
  | .full => 1 | .slip => 2 | .lateWindow => 3 | .openLimit => 4 | .storeError => 5 | .recovery => 6

/-- Causes of an abort, in the order of R61's table. -/
inductive AbortCause where
  | withdrawn | ringFault | gapOverflow | deskChange | restart
deriving DecidableEq, Repr
def AbortCause.code : AbortCause → Nat
  | .withdrawn => 1 | .ringFault => 2 | .gapOverflow => 3 | .deskChange => 4 | .restart => 5

/-- Causes of a range's abandonment (R79). -/
inductive GapCause where
  | capacity | displaced | horizon
deriving DecidableEq, Repr
def GapCause.code : GapCause → Nat
  | .capacity => 1 | .displaced => 2 | .horizon => 3

/-- Sources of an edition (R91). -/
inductive CutSource where
  | slip | auto | load
deriving DecidableEq, Repr
def CutSource.code : CutSource → Nat
  | .slip => 1 | .auto => 2 | .load => 3

/-- Outcomes of an erase (R147). -/
inductive EraseOutcome where
  | free | wear | eraseFailed
deriving DecidableEq, Repr
def EraseOutcome.code : EraseOutcome → Nat
  | .free => 1 | .wear => 2 | .eraseFailed => 3

/-- Causes of a failed verification, in the order of R158's table. -/
inductive VerifyCause where
  | media | digest | decode | link
deriving DecidableEq, Repr
def VerifyCause.code : VerifyCause → Nat
  | .media => 1 | .digest => 2 | .decode => 3 | .link => 4

/-- Outcomes of an ADVANCE's automatic cut (R152). -/
def CutOutcome.code : CutOutcome → Nat
  | .made _ => 1 | .full => 2 | .off => 3
/-- The serial in an ADVANCE's answer: the new one with MADE, and 0 with FULL and OFF, with which R152 gives none (DESIGN CHOICE,
log 39). -/
def CutOutcome.serial : CutOutcome → Nat
  | .made n => n.toNat | _ => 0

/-- Kinds of request, in the order of R124's table (R133). -/
def Request.kindCode : Request → Nat
  | .store .. => 1 | .fetch .. => 2 | .erase .. => 3 | .journalWrite .. => 4

/-- Causes of RESTART (R183). -/
def StartCause.code : StartCause → Nat
  | .powerOn => 1 | .engineReset => 2

/-- Engine state codes (Register fields). -/
def EngineState.code : EngineState → Nat
  | .blank => 0 | .formatting => 1 | .recovering => 2 | .ready => 3

/-! ## Places in the desk -/

def markFree : Byte := 0
def markPosted : Byte := 1
def markTaken : Byte := 2
def markAnswered : Byte := 3

/-- Host address of slip i (The desk). -/
def State.slipAt (s : State) (i : SlipNo) : Nat := s.desk.place + 128 + 128 * i.val
def State.paramsAt (s : State) (i : SlipNo) : Nat := s.slipAt i + 32
def State.answerAt (s : State) (i : SlipNo) : Nat := s.slipAt i + 88
def State.counterAt (s : State) (c : Counter) : Nat := s.desk.place + 16 + 4 * c.index.val
def State.mapAt (s : State) (i : SlipNo) : Nat := s.desk.place + 48 + i.val

/-- The answer area: the status, three zeros, the values, and zeros up to 40 bytes (R200). -/
def answerBytes (st : Status) (values : List Byte) : List Byte :=
  (st.code :: 0 :: 0 :: 0 :: values ++ List.replicate 36 0).take 40

/-- Answer values of four bytes each. -/
def fours (vs : List Nat) : List Byte := vs.flatMap (unsignedField 4)

/-! ## Stream keys, selections -/

/-- The code of a key: keys are ordered by switch, then record day, then group (Conventions). -/
def StreamKey.code (k : StreamKey) : Nat := (k.switch * 65536 + k.day) * 4 + k.group

/-- Whether a group's flag is set in a mask. -/
def maskHas (m : Byte) (g : Nat) : Bool := decide (g < 4) && m.getLsbD g

/-- No group's flag is set. -/
def maskEmpty (m : Byte) : Bool := m &&& 0x0F == 0

/-- A selection matches a key: switch, record-day range and group mask (R37, R148, R162). -/
def Selection.covers (c : Selection) (k : StreamKey) : Bool :=
  (c.all || c.switch == k.switch) && decide (c.first ≤ k.day ∧ k.day ≤ c.last) && maskHas c.mask k.group

/-- The selection block of a parameter area. -/
def readSelection (p : List Byte) : Selection :=
  { switch := field p 0 2, all := flagSet (p.getD 2 0), mask := p.getD 3 0, first := field p 4 2, last := field p 6 2 }

/-! ## Parameters by kind -/

/-- The fields of a selection: switch, all, group mask, first day, last day. -/
def selectionFields : List (Nat × Nat) := [(0, 2), (2, 1), (3, 1), (4, 2), (6, 2)]

/-- The fields that a kind's row names, each with its offset and size (Parameters and answers by kind); the engine reads no
other byte of the parameter area (R200). -/
def Kind.fields : Kind → List (Nat × Nat)
  | .format => [(0, 2), (2, 2), (4, 2), (6, 2), (8, 2), (10, 2), (12, 1)]
  | .ingest => [(0, 8), (8, 4), (16, 8), (24, 1), (32, 8)]
  | .advance => [(0, 4)]
  | .expire => []
  | .retain => [(0, 1), (2, 2)]
  | .verify => selectionFields
  | .extract => [(0, 2), (2, 2), (4, 1), (5, 1), (8, 4), (12, 4), (16, 8), (24, 4), (28, 4), (32, 4), (36, 1)]
  | .journalRead => [(0, 8), (8, 4), (16, 8)]
  | .catalogRead => selectionFields ++ [(8, 8), (16, 4), (20, 4)]
  | .close => [(0, 2), (2, 1), (4, 2)]
  | .classmap => [(0, 1), (1, 1), (2, 1), (3, 1), (4, 1), (5, 1), (6, 1), (7, 1)]
  | .hold => [(0, 4), (4, 2), (6, 1), (7, 1), (8, 2), (10, 2)]
  | .release => [(0, 4)]
  | .cut => []
  | .editionLoad => [(0, 8), (8, 2), (16, 8), (24, 2), (32, 8), (40, 2)]
  | .contextRead => [(0, 2)]
  | .contextWrite => [(0, 2), (2, 1), (3, 1), (4, 4)]
  | .journalRelease => [(0, 8)]
  | .resolve => [(0, 4)]
  | .settings => [(0, 1), (1, 1), (2, 2)]

/-- The parameter area of a slip as the engine reads it for a kind. -/
def State.readParams (s : State) (k : Kind) (i : SlipNo) : List Byte := s.readFields (s.paramsAt i) 56 k.fields

def readFormat (p : List Byte) : FormatParams :=
  { day := field p 0 2, horizon := field p 2 2, days := [field p 4 2, field p 6 2, field p 8 2, field p 10 2],
    window := field p 12 1 }

/-- The filled mark, the final flag and the total length of an INGEST slip (R43). -/
structure RingMarks where
  filled : Nat
  final : Bool
  total : Nat
deriving DecidableEq, Repr

def readMarks (p : List Byte) : RingMarks :=
  { filled := field p 16 8, final := flagSet (p.getD 24 0), total := field p 32 8 }

def readExtract (p : List Byte) : ExtractParams :=
  { switch := field p 0 2, day := field p 2 2, mask := p.getD 4 0,
    range := if (p.getD 5 0).getLsbD 0 then some (field p 8 4, field p 12 4) else none,
    resume := if (p.getD 5 0).getLsbD 1 then some (field p 28 4, field p 32 4, field p 36 1) else none,
    buffer := field p 16 8, capacity := field p 24 4 }

def readHold (p : List Byte) : Word32 × Selection :=
  (BitVec.ofNat 32 (field p 0 4),
   { switch := field p 4 2, all := flagSet (p.getD 6 0), mask := p.getD 7 0, first := field p 8 2, last := field p 10 2 })

/-! ## Day-file header and record -/

/-- The header's fields as they stand in the file (R2). -/
structure Header where
  marker : Byte
  version : Nat
  switch : Nat
  day : Nat
  file : Nat
  declared : Nat
  charges : Nat
deriving DecidableEq, Repr

def readHeader (b : List Byte) : Header :=
  { marker := b.getD 0 0, version := field b 1 1, switch := field b 2 2, day := field b 4 2, file := field b 6 2,
    declared := field b 8 4, charges := field b 16 8 }

/-- Digit places packed two to a byte, the first in the low half. -/
def unpackDigits : List Byte → List Nat
  | [] => []
  | b :: bs => b.toNat % 16 :: b.toNat / 16 :: unpackDigits bs

def packDigits : List Nat → List Byte
  | [] => []
  | [d] => [BitVec.ofNat 8 d]
  | d :: e :: ds => BitVec.ofNat 8 (d + 16 * e) :: packDigits ds

/-- A record's fields as they stand in the file (R6, R7): each number a length and 18 digit places. -/
structure Raw where
  marker : Byte
  cls : Nat
  cause : Nat
  callingLen : Nat
  seq : SeqNo
  start : Nat
  duration : Nat
  route : Nat
  calledLen : Nat
  site : Nat
  charge : Nat
  callingDigits : List Nat
  calledDigits : List Nat
deriving DecidableEq, Repr

def readRecord (b : List Byte) : Raw :=
  { marker := b.getD 0 0, cls := field b 1 1, cause := field b 2 1, callingLen := field b 3 1,
    seq := BitVec.ofNat 32 (field b 4 4), start := field b 8 4, duration := field b 12 4, route := field b 16 2,
    calledLen := field b 18 1, site := field b 20 4, charge := field b 24 4,
    callingDigits := unpackDigits ((b.drop 28).take 9), calledDigits := unpackDigits ((b.drop 37).take 9) }

/-- Nine bytes of digit places, those beyond the number's length 0 (R169). -/
def numberBytes (ds : List Nat) : List Byte := (packDigits ds ++ List.replicate 9 0).take 9

/-- A record in the feed layout, as EXTRACT writes it: byte 19 and bytes 46 to 63 are 0 (R169). -/
def recordBytes (r : Rec) : List Byte :=
  [Config.recordMarker] ++ leBytes 1 r.cls ++ leBytes 1 r.cause ++ leBytes 1 r.calling.length ++ leBytes 4 r.seq.toNat
    ++ leBytes 4 r.start ++ leBytes 4 r.duration ++ leBytes 2 r.route ++ leBytes 1 r.called.length ++ [0]
    ++ leBytes 4 r.site ++ leBytes 4 r.charge ++ numberBytes r.calling ++ numberBytes r.called ++ List.replicate 18 0

/-! ## Edition tables in host memory (R95) -/

/-- The entries of a table of k-byte values. -/
def readValues (k : Nat) : Nat → List Byte → List Nat
  | 0, _ => []
  | n + 1, bs => leValue (bs.take k) :: readValues k n (bs.drop k)

/-- The entries of a prefix table: the length byte and the 8 digit places of each 8-byte entry. -/
def readPrefixes : Nat → List Byte → List (Nat × List Nat)
  | 0, _ => []
  | n + 1, bs => (field bs 0 1, unpackDigits ((bs.drop 1).take 4)) :: readPrefixes n (bs.drop 8)

/-! ## Journal entry and catalog summary (R202) -/

def Subject.kindCode : Subject → Nat
  | .none => 0 | .key _ => 1 | .segment _ => 2 | .switch _ => 3 | .hold _ => 4

def Subject.value : Subject → Nat
  | .none => 0
  | .key k => k.switch % 1024 + k.group % 4 * 1024 + k.day % 65536 * 65536
  | .segment n => n
  | .switch n => n
  | .hold id => id.toNat

/-- The first value's field: signed for a count balance, unsigned otherwise. -/
def EntryBody.firstField (e : EntryBody) : List Byte :=
  if e.kind = .balanceMismatch then signedField e.v1 else unsignedField 4 e.v1.toNat

/-- The 32 bytes of an entry. -/
def Entry.bytes (e : Entry) : List Byte :=
  leBytes 8 e.seq ++ leBytes 2 e.day ++ [e.body.kind.code]
    ++ leBytes 1 ((if e.body.kind.finding then 1 else 0) + (if e.second then 2 else 0) + 4 * e.body.subject.kindCode)
    ++ leBytes 4 e.body.subject.value ++ e.body.firstField ++ unsignedField 8 e.body.v2 ++ unsignedField 4 e.body.v3

/-- The 64 bytes of a catalog summary; fields absent from the record are 0. -/
def summaryBytes (n : Nat) (st : LiveState) (g : Segment) (e : Extent) : List Byte :=
  leBytes 4 n ++ leBytes 1 st.code ++ leBytes 1 g.mark.code
    ++ leBytes 1 ((if e.fault then 1 else 0) + (if g.verified.isSome then 2 else 0)) ++ leBytes 1 g.fails
    ++ unsignedField 2 e.erases ++ leBytes 1 g.pins ++ leBytes 1 g.key.group ++ leBytes 2 g.key.switch
    ++ leBytes 2 g.key.day ++ leBytes 2 g.part ++ leBytes 2 (g.verified.getD 0) ++ leBytes 2 g.expiry
    ++ leBytes 1 ((g.edition.map fun r => r.slot.val).getD 255) ++ [0]
    ++ leBytes 4 ((g.edition.map fun r => r.serial.toNat).getD 0) ++ unsignedField 4 g.records
    ++ unsignedField 4 g.blocks ++ unsignedField 4 g.bytes ++ leBytes 4 ((g.firstSeq.map BitVec.toNat).getD 0)
    ++ leBytes 4 ((g.lastSeq.map BitVec.toNat).getD 0) ++ leBytes 4 g.digest.toNat ++ leBytes 4 g.link.toNat
    ++ List.replicate 8 0

/-- The first entry of a pair or a single entry, and the second of a pair. -/
def EntryBody.mk0 (k : EntryKind) (sub : Subject) (v1 : Int) (v2 v3 : Nat) : EntryBody :=
  { kind := k, subject := sub, v1 := v1, v2 := v2, v3 := v3 }

/-! ## The registers as the host reads them (R184) -/

/-- The five registers. -/
inductive Register where
  | deskBase | sweepPeriod | nudge | engineState | engineControl
deriving DecidableEq, Repr

/-- The online-lane mask: one flag per lane, set while the lane is ONLINE (R123). -/
def State.onlineMask (s : State) : Nat :=
  (indices 16).foldr (fun l acc => (if (bget s.lanes.lane l).online then 2 ^ l.val else 0) + acc) 0

/-- ENGINE STATE (Register fields). -/
def State.engineStateWord (s : State) : Nat :=
  s.engine.code + s.onlineMask * 2 ^ 16 + 0x2460 * 2 ^ 32 + Config.revision.toNat * 2 ^ 48

/-- A read of a register. -/
def State.readRegister (s : State) : Register → Nat
  | .deskBase => s.desk.base.toNat
  | .sweepPeriod => s.desk.period.toNat
  | .nudge => 0
  | .engineState => s.engineStateWord
  | .engineControl => 0

end Sys2Proof.Machine
end

