-- ==== Sys2Proof/Machine/Coding.lean ====
section
/-! DEFINITION. The digest (R19) and the column block: how the coder writes it (R106 to R112, R201) and how a reader decodes it
(R159). Pure functions of records, an edition's tables and bytes. -/

namespace Sys2Proof.Machine

/-! ## The digest -/

/-- One bit of the reflected cyclic check with generator polynomial 0x1EDC6F41. -/
def crcBit (r : Word32) : Word32 := if r.getLsbD 0 then (r >>> 1) ^^^ 0x82F63B78 else r >>> 1

def crcBits : Nat → Word32 → Word32
  | 0, r => r
  | n + 1, r => crcBits n (crcBit r)

/-- One byte, least significant bit first. -/
def crcByte (r : Word32) (b : Byte) : Word32 := crcBits 8 (r ^^^ b.setWidth 32)

/-- A digest with further bytes folded in; the digest of no bytes is 0 (R19). -/
def foldDigest (d : Word32) (bs : List Byte) : Word32 := ~~~(bs.foldl crcByte (~~~d))

/-- The digest of a run of bytes. -/
def digestOf (bs : List Byte) : Word32 := foldDigest 0 bs

/-! ## Bit streams -/

/-- A value in a field of n bits, least significant bit first (R201). -/
def bitsOf : Nat → Nat → List Bool
  | 0, _ => []
  | n + 1, v => (v % 2 == 1) :: bitsOf n (v / 2)

/-- The value of bits, least significant first. -/
def bitsValue : List Bool → Nat
  | [] => 0
  | b :: bs => (if b then 1 else 0) + 2 * bitsValue bs

/-- A bit stream as bytes, each filled from its least significant bit. -/
def packBits : List Bool → List Byte
  | b0 :: b1 :: b2 :: b3 :: b4 :: b5 :: b6 :: b7 :: t =>
    BitVec.ofNat 8 (bitsValue [b0, b1, b2, b3, b4, b5, b6, b7]) :: packBits t
  | [] => []
  | t => [BitVec.ofNat 8 (bitsValue t)]

/-- Bytes as a bit stream. -/
def unpackBits (bs : List Byte) : List Bool := bs.flatMap fun b => bitsOf 8 b.toNat

/-- Zero bits that follow n bits up to the next multiple of 32. -/
def padding (n : Nat) : Nat := (32 - n % 32) % 32

/-! ## Step code and zigzag (R107) -/

def zigzag (d : Int) : Nat := if 0 ≤ d then (2 * d).toNat else (-2 * d - 1).toNat

def unzigzag (z : Nat) : Int := if z % 2 = 0 then (z / 2 : Nat) else -((z / 2 : Nat) : Int) - 1

def stepBits (v : Nat) : List Bool :=
  if v = 0 then bitsOf 2 0
  else if v < 16 then bitsOf 2 1 ++ bitsOf 4 v
  else if v < 4096 then bitsOf 2 2 ++ bitsOf 12 v
  else bitsOf 2 3 ++ bitsOf 32 v

/-! ## What an edition answers (R88) -/

/-- The code of a value in a table, or none. -/
def codeIn {α : Type} [DecidableEq α] (x : α) : List α → Option Nat
  | [] => none
  | y :: ys => if y = x then some 0 else (codeIn x ys).map (· + 1)

/-- The longest entry of at least 3 digits that is a prefix of a number, with its code, where entries are numbered from i. -/
def longestFrom (i : Nat) (ds : List Nat) : List (List Nat) → Option (Nat × List Nat)
  | [] => none
  | p :: ps =>
    let later := longestFrom (i + 1) ds ps
    if 3 ≤ p.length ∧ p.isPrefixOf ds then
      match later with
      | some (c, q) => if p.length < q.length then some (c, q) else some (i, p)
      | none => some (i, p)
    else later

def longestPrefix (ds : List Nat) (table : List (List Nat)) : Option (Nat × List Nat) := longestFrom 0 ds table

/-! ## The columns (R108 to R111) -/

/-- The sequence column: zigzagged differences of each record from its predecessor, less 1, modulo 2³², step coded. -/
def seqBits : List SeqNo → List Bool
  | a :: b :: t => stepBits (zigzag (b - a - 1).toInt) ++ seqBits (b :: t)
  | _ => []

/-- The start column: zigzagged differences of start times, step coded. -/
def startBits : List Nat → List Bool
  | a :: b :: t => stepBits (zigzag ((b : Int) - a)) ++ startBits (b :: t)
  | _ => []

/-- A route of 16 bits or a site of 32: flag and code, or an escape (R110). -/
def valueBits (w : Nat) (table : List Nat) (v : Nat) : List Bool :=
  match codeIn v table with
  | some c => true :: bitsOf 8 c
  | none => false :: bitsOf w v

def digitBits (ds : List Nat) : List Bool := ds.flatMap (bitsOf 4)

/-- A number: flag, code, length and remaining digits, or an escape with all digits (R111). -/
def numberBits (table : List (List Nat)) (ds : List Nat) : List Bool :=
  match longestPrefix ds table with
  | some (c, p) => true :: bitsOf 8 c ++ bitsOf 5 ds.length ++ digitBits (ds.drop p.length)
  | none => false :: bitsOf 5 ds.length ++ digitBits ds

/-- The ten columns in their order (R106). -/
def columnBits (ed : Edition) (rs : List Rec) : List Bool :=
  seqBits (rs.map Rec.seq) ++ (rs.map Rec.cls).flatMap (bitsOf 3) ++ startBits (rs.map Rec.start)
    ++ (rs.map Rec.duration).flatMap stepBits ++ (rs.map Rec.route).flatMap (valueBits 16 ed.routes)
    ++ (rs.map Rec.site).flatMap (valueBits 32 ed.sites) ++ (rs.map Rec.calling).flatMap (numberBits ed.prefixes)
    ++ (rs.map Rec.called).flatMap (numberBits ed.prefixes) ++ (rs.map Rec.charge).flatMap stepBits
    ++ (rs.map Rec.cause).flatMap (bitsOf 8)

/-- The slot byte of a block header: 255 for none (R201). -/
def slotByte (ref : Option EditionRef) : Byte :=
  match ref with
  | some r => BitVec.ofNat 8 r.slot.val
  | none => 255

/-- The block header of 12 bytes (R106, R201). -/
def blockHeader (ref : Option EditionRef) (rs : List Rec) : List Byte :=
  leBytes 1 rs.length ++ [slotByte ref, 0, 0] ++ leBytes 4 ((rs.head?.map fun r => r.seq.toNat).getD 0)
    ++ leBytes 4 ((rs.head?.map Rec.start).getD 0)

/-- A column block: header, columns, and zero bits up to the next multiple of 32 (R106, R112). -/
def encodeBlock (ed : Edition) (ref : Option EditionRef) (rs : List Rec) : List Byte :=
  let bits := columnBits ed rs
  blockHeader ref rs ++ packBits (bits ++ List.replicate (padding bits.length) false)

/-! ## Decoding (R159) -/

/-- What decoding answers: a value and the bits after it, bits that end too soon, or a broken condition. -/
inductive Dec (α : Type) where
  | ok (a : α) (rest : List Bool)
  | short
  | bad
deriving DecidableEq, Repr

/-- One decoder after another. -/
def Dec.andThen {α β : Type} (x : Dec α) (f : α → List Bool → Dec β) : Dec β :=
  match x with
  | .ok a rest => f a rest
  | .short => .short
  | .bad => .bad

/-- The first value only if a condition of R159 holds. -/
def Dec.check {α : Type} (p : α → Bool) (x : Dec α) : Dec α :=
  x.andThen fun a rest => if p a then .ok a rest else .bad

/-- A field of n bits. -/
def decBits : Nat → List Bool → Dec Nat
  | 0, bs => .ok 0 bs
  | _ + 1, [] => .short
  | n + 1, b :: bs => (decBits n bs).andThen fun v rest => .ok ((if b then 1 else 0) + 2 * v) rest

/-- A step code, whose selector's row must hold the payload value. -/
def decStep (bs : List Bool) : Dec Nat :=
  (decBits 2 bs).andThen fun sel rest =>
    match sel with
    | 0 => .ok 0 rest
    | 1 => (decBits 4 rest).check fun v => decide (1 ≤ v)
    | 2 => (decBits 12 rest).check fun v => decide (16 ≤ v)
    | _ => (decBits 32 rest).check fun v => decide (4096 ≤ v)

/-- n values one after another. -/
def decMany {α : Type} (d : List Bool → Dec α) : Nat → List Bool → Dec (List α)
  | 0, bs => .ok [] bs
  | n + 1, bs => (d bs).andThen fun a rest => (decMany d n rest).andThen fun as rest' => .ok (a :: as) rest'

/-- A route or site of w bits: a code must be below the table's length. -/
def decValue (w : Nat) (table : List Nat) (bs : List Bool) : Dec Nat :=
  (decBits 1 bs).andThen fun flag rest =>
    if flag = 1 then
      (decBits 8 rest).andThen fun c rest' =>
        match table[c]? with
        | some v => .ok v rest'
        | none => .bad
    else decBits w rest

/-- A digit is at most 11. -/
def decDigit (bs : List Bool) : Dec Nat := (decBits 4 bs).check fun d => decide (d ≤ 11)

/-- A number's length is at most 18. -/
def decLength (bs : List Bool) : Dec Nat := (decBits 5 bs).check fun l => decide (l ≤ 18)

/-- A number: a matched number's length is at least that of its entry. -/
def decNumber (table : List (List Nat)) (bs : List Bool) : Dec (List Nat) :=
  (decBits 1 bs).andThen fun flag rest =>
    if flag = 1 then
      (decBits 8 rest).andThen fun c rest' =>
        match table[c]? with
        | some p =>
          (decLength rest').andThen fun l rest'' =>
            if l < p.length then .bad
            else (decMany decDigit (l - p.length) rest'').andThen fun ds r => .ok (p ++ ds) r
        | none => .bad
    else (decLength rest).andThen fun l rest' => decMany decDigit l rest'

/-- The sequence numbers that follow a first one: each predecessor's plus 1 plus the difference, modulo 2³². -/
def seqsFrom (s : SeqNo) : List Nat → List SeqNo
  | [] => [s]
  | z :: zs => s :: seqsFrom (s + 1 + BitVec.ofInt 32 (unzigzag z)) zs

/-- The start times that follow a first one. -/
def startsFrom (t : Int) : List Nat → List Int
  | [] => [t]
  | z :: zs => t :: startsFrom (t + unzigzag z) zs

/-- The records of ten columns. -/
def assemble : List SeqNo → List Nat → List Nat → List Nat → List Nat → List Nat → List (List Nat) → List (List Nat) →
    List Nat → List Nat → List Rec
  | s :: ss, c :: cs, t :: ts, d :: ds, r :: rs, i :: is, a :: as, b :: bs, u :: us, e :: es =>
    { cls := c, cause := e, seq := s, start := t, duration := d, route := r, site := i, charge := u, calling := a,
      called := b } :: assemble ss cs ts ds rs is as bs us es
  | _, _, _, _, _, _, _, _, _, _ => []

/-- The columns of n records, from the header's first sequence and first start time. -/
def decColumns (ed : Edition) (n : Nat) (s0 : SeqNo) (t0 : Nat) (bits : List Bool) : Dec (List Rec) :=
  (decMany decStep (n - 1) bits).andThen fun zs b1 =>
  (decMany (decBits 3) n b1).andThen fun cs b2 =>
  (decMany decStep (n - 1) b2).andThen fun ws b3 =>
  let starts := startsFrom t0 ws
  if starts.any fun t => decide (t < 0 ∨ 863999 < t) then .bad
  else
    (decMany decStep n b3).andThen fun ds b4 =>
    (decMany (decValue 16 ed.routes) n b4).andThen fun rs b5 =>
    (decMany (decValue 32 ed.sites) n b5).andThen fun is b6 =>
    (decMany (decNumber ed.prefixes) n b6).andThen fun as b7 =>
    (decMany (decNumber ed.prefixes) n b7).andThen fun bs b8 =>
    (decMany decStep n b8).andThen fun us b9 =>
    (decMany (decBits 8) n b9).andThen fun es b10 =>
    .ok (assemble (seqsFrom s0 zs) cs (starts.map Int.toNat) ds rs is as bs us es) b10

/-- One block decoded from the front of a segment's bytes: its records and its length in bytes; too few bytes; or a broken
condition of R159. -/
inductive BlockResult where
  | ok (records : List Rec) (length : Nat)
  | short
  | bad
deriving DecidableEq, Repr

/-- The block at the front of some bytes, read against the segment's bound edition (R159, R201). -/
def decodeBlock (ed : Edition) (ref : Option EditionRef) (bytes : List Byte) : BlockResult :=
  if bytes.length < 12 then .short
  else
    let n := field bytes 0 1
    if n = 0 ∨ Config.blockRecords < n ∨ bytes.getD 1 0 ≠ slotByte ref then .bad
    else
      let bits := unpackBits (bytes.drop 12)
      match decColumns ed n (BitVec.ofNat 32 (field bytes 4 4)) (field bytes 8 4) bits with
      | .short => .short
      | .bad => .bad
      | .ok records rest =>
        let used := bits.length - rest.length
        let pad := padding used
        if rest.length < pad then .short
        else if (rest.take pad).any id then .bad
        else .ok records (12 + (used + pad) / 8)

/-- A reader's walk over the bytes it holds: it takes block after block, and stops at the end of the bytes, at a block whose
bytes have not all come, or at a broken block. At the last bytes of the read length, a block that would end beyond them is
broken (R159). The blocks taken come with their indices. -/
def walkBlocks (ed : Edition) (ref : Option EditionRef) (final : Bool) :
    Nat → BlockWalk → List (Nat × List Rec) × BlockWalk
  | 0, w => ([], w)
  | fuel + 1, w =>
    if w.bad.isSome || w.rest.isEmpty then ([], w)
    else
      match decodeBlock ed ref w.rest with
      | .bad => ([], { w with bad := some w.blocks })
      | .short => ([], if final then { w with bad := some w.blocks } else w)
      | .ok recs len =>
        let next := walkBlocks ed ref final fuel
          { w with rest := w.rest.drop len, blocks := w.blocks + 1, records := w.records + recs.length,
                   first := w.first.orElse fun _ => recs.head?.map Rec.seq,
                   last := (recs.getLast?.map Rec.seq).orElse fun _ => w.last }
        ((w.blocks, recs) :: next.1, next.2)

/-- A walk given further bytes. -/
def feedBlocks (ed : Edition) (ref : Option EditionRef) (final : Bool) (bytes : List Byte) (w : BlockWalk) :
    List (Nat × List Rec) × BlockWalk :=
  walkBlocks ed ref final (w.rest ++ bytes).length { w with rest := w.rest ++ bytes }

/-- The totals that the decode check compares when the walk has taken every block (R159). -/
def walkMatches (w : BlockWalk) (g : Segment) : Bool :=
  w.blocks == g.blocks && w.records == g.records && w.first == g.firstSeq && w.last == g.lastSeq

end Sys2Proof.Machine
end

