-- ==== Sys2Proof/Machine/Flags.lean ====
section
/-! DEFINITION. The engine's flags and figures that other state decides: the notice counters and the notice gate (R195, R196),
the usable set, the free count and the free-space watch (R16, R17, R35, R36), and the four writes of an answer (R193). -/

namespace Sys2Proof.Machine

namespace State

/-! ## Notice counters and the notice gate -/

/-- Whether a counter's flag is set in the notice enable mask. -/
def enabled (s : State) (c : Counter) : Bool := s.desk.enable.getLsbD c.index.val

/-- One interrupt message: the gate keeps the values of all eight counters and closes (R196). -/
def sendMessage (s : State) : State :=
  s.onDesk fun d => { d with messages := d.messages + 1, kept := d.counters, gateOpen := false }

/-- A counter's value written into the desk header; nothing is written while there is no desk (R195). -/
def writeCounter (c : Counter) (s : State) : State :=
  if s.desk.place = 0 then s else s.hostWrite (s.counterAt c) (leBytes 4 (bget s.desk.counters c.index).toNat)

/-- An advance of a notice counter: it wraps, its new value is written into the desk, and the first advance of an enabled
counter while the gate is OPEN sends one message (R195, R196). It sends it also while there is no desk to write into, where a desk
change to DESK BASE 0 has left the gate OPEN (DESIGN CHOICE, log 44: R195 has only the kept value change then, and R196 sends a message
after the value has been written into the desk). -/
def notice (c : Counter) (s : State) : State :=
  let t := (s.onDesk fun d => { d with counters := bset d.counters c.index (bget d.counters c.index + 1) }).writeCounter c
  if t.desk.gateOpen && t.enabled c then t.sendMessage else t

/-- All eight counters in mask order. -/
def allCounters : List Counter :=
  [.answers, .findings, .freeWatch, .stalls, .editions, .scrubLaps, .laneFaults, .restarts]

/-- The gate opens: one message goes at once when an enabled counter differs from its kept value (R196). -/
def openGate (s : State) : State :=
  if allCounters.any fun c => s.enabled c && bget s.desk.counters c.index != bget s.desk.kept c.index then s.sendMessage
  else s.onDesk fun d => { d with gateOpen := true }

/-! ## The usable set and the segment records -/

end State

/-- The lane of a segment number (Conventions). -/
def laneOf (n : Nat) : LaneNo := ⟨n / Config.extentsPerLane % 16, Nat.mod_lt _ (by decide)⟩

/-- The first segment number of a lane. -/
def laneBase (l : LaneNo) : Nat := l.val * Config.extentsPerLane

namespace State

/-- Whether a lane was online at the last FORMAT (R16). -/
def usableLane (s : State) (l : LaneNo) : Bool := s.cat.usable.getLsbD l.val

/-- Whether a segment number lies in the usable set (R16). -/
def usable (s : State) (n : Nat) : Bool :=
  decide (n < Config.segmentEnd ∧ Config.journalExtents ≤ n % Config.extentsPerLane) && s.usableLane (laneOf n)

/-- U (R16). -/
def usableCount (s : State) : Nat :=
  (indices 16).foldr (fun l acc => (if s.usableLane l then Config.usablePerLane else 0) + acc) 0

/-- The segment table exists outside BLANK and FORMATTING (R21, R41). -/
def tableBuilt (s : State) : Bool := s.engine == .ready || s.engine == .recovering

/-- The segment record of a number, none outside the usable set (R16, R18). -/
def extent? (s : State) (n : Nat) : Option Extent :=
  if s.tableBuilt && s.usable n then some (dfind Extent.fresh n s.cat.table) else none

/-- The segment that a number holds, with its state. -/
def live? (s : State) (n : Nat) : Option (LiveState × Segment) :=
  match s.extent? n with
  | some { content := .live st g, .. } => some (st, g)
  | _ => none

def isOnline (s : State) (l : LaneNo) : Bool := (bget s.lanes.lane l).online

/-- The size of a lane's free pool: its usable extents less those that are not FREE (R24). -/
def poolSize (s : State) (l : LaneNo) : Nat :=
  Config.usablePerLane - (s.cat.table.filter fun p => decide (laneOf p.1 = l ∧ p.2.content ≠ .free)).length

/-- The free count F: FREE extents on lanes of the usable set that are ONLINE; 0 in BLANK and FORMATTING (R17, R39). -/
def freeCount (s : State) : Nat :=
  if s.tableBuilt then
    (indices 16).foldr (fun l acc => (if s.usableLane l && s.isOnline l then s.poolSize l else 0) + acc) 0
  else 0

/-! ## The free-space watch -/

/-- The threshold T (R35). -/
def threshold (s : State) : Nat := s.cat.watch.level * s.usableCount / 16

/-- The side that F and T give. -/
def sideLow (s : State) : Bool := decide (s.freeCount < s.threshold)

/-- The watch at a change of F: a change of side is a crossing, and a crossing in an enabled direction advances FREE-WATCH
by 1 (R35). In FORMATTING there is no crossing (R36). -/
def judgeWatch (s : State) : State :=
  let low := s.sideLow
  if s.engine = .formatting ∨ low = s.cat.watch.low then s
  else
    let t := s.onCat fun c => { c with watch := { c.watch with low := low } }
    if (if low then s.cat.watch.falling else s.cat.watch.rising) then t.notice .freeWatch else t

/-- The side set from the current F without a notice (R36). -/
def setSide (s : State) : State := s.onCat fun c => { c with watch := { c.watch with low := s.sideLow } }

/-- The level and edge of the desk header taken at a sweep: a level above 15 is taken as 15, a changed level sets T and the
side anew without a notice, and an edge takes effect from the next crossing (R36). -/
def takeWatch (level : Nat) (edge : Byte) (s : State) : State :=
  let k := min level 15
  let t := s.onCat fun c => { c with watch := { c.watch with falling := edge.getLsbD 0, rising := edge.getLsbD 1 } }
  if k = s.cat.watch.level then t
  else (t.onCat fun c => { c with watch := { c.watch with level := k } }).setSide

/-! ## Answers -/

/-- The mark of a slip as host memory holds it. -/
def markOf (s : State) (i : SlipNo) : Byte := Memory.byte Config.hostFill s.mem (s.slipAt i)

/-- The engine writes a slip's mark. -/
def setMark (i : SlipNo) (m : Byte) (s : State) : State := s.hostWrite (s.slipAt i) [m]

/-- An answer-map entry, kept and written into the desk header (R194). -/
def setMap (i : SlipNo) (b : Byte) (s : State) : State :=
  let t := s.onDesk fun d => { d with map := bset d.map i b }
  t.hostWrite (t.mapAt i) [b]

def setHeld (i : SlipNo) (h : Holding) (s : State) : State := s.onDesk fun d => { d with held := bset d.held i h }

/-- A slip is the host's again. -/
def releaseSlip (i : SlipNo) (s : State) : State := s.setHeld i .notHeld

/-- The four writes of an answer, in order: the answer area, the mark ANSWERED, the answer-map entry, and the ANSWERS
counter. The slip is released with the last (R193). -/
def writeAnswer (i : SlipNo) (st : Status) (values : List Byte) (s : State) : State :=
  ((((s.hostWrite (s.answerAt i) (answerBytes st values)).setMark i markAnswered).setMap i st.code).notice .answers).releaseSlip i

/-- Whether an answer is dropped: a withdrawal has been noted, or the mark read is not TAKEN; a failed read counts as TAKEN
(R193). -/
def dropsAnswer (s : State) (i : SlipNo) : Bool :=
  bget s.desk.held i == .withdrawn || (!s.readFails (s.slipAt i) 1 && s.markOf i != markTaken)

/-- An operation ends with an answer: written, or dropped with the slip released; nothing for an operation without a slip
(R193, R199). -/
def answer (slip : Option SlipNo) (st : Status) (values : List Byte) (s : State) : State :=
  match slip with
  | none => s
  | some i => if s.dropsAnswer i then s.releaseSlip i else s.writeAnswer i st values

/-- An operation ends without an answer; its slip, if it has one, is released. -/
def noAnswer (slip : Option SlipNo) (s : State) : State :=
  match slip with
  | none => s
  | some i => s.releaseSlip i

/-! ## The engine's other figures -/

/-- The staging pages in use (R52). -/
def pagesInUse (s : State) : Nat := s.pool.pages.length

/-- The size of the journal window and its room (R176). -/
def windowSize (s : State) : Nat := s.jnl.head - s.jnl.release
def room (s : State) : Nat := Config.journalWindow - s.windowSize

/-- Whether a producer that waits has room, and whether admission finds the room at or above the reserve (R177). -/
def hasReserve (s : State) : Bool := decide (Config.journalReserve ≤ s.room)

/-- The expiry day of a stream key, by the retention table as it stands (R138). -/
def groupDays (s : State) (g : Nat) : Nat :=
  if h : g < 4 then (bget s.ret.groups ⟨g, h⟩).days else 0
def expiryDay (s : State) (k : StreamKey) : Nat := min (k.day + s.groupDays k.group) Config.dayMax

end State

end Sys2Proof.Machine
end

