-- ==== Sys2Proof/Machine/Journal.lean ====
section
/-! DEFINITION. The audit journal: taking entries (R174, R175), forming a run (R178), settling (R179), releasing (R181). -/

namespace Sys2Proof.Machine

namespace State

/-- Whether the journal can take a submission: places in the buffer and room in the window for all its entries (R175). -/
def canTake (s : State) (sub : Submission) : Bool :=
  decide (s.jnl.buffer.length + sub.entries.length ≤ Config.journalBuffer ∧
    s.windowSize + sub.entries.length ≤ Config.journalWindow)

/-- The journal takes one entry: it receives the head and D, joins the store and the buffer, the head gains 1, and a finding
advances FINDINGS (R174). The head goes on past 2⁶⁴ − 1, the last number that R174 gives an entry (DESIGN CHOICE, log 38). -/
def takeEntry (second : Bool) (b : EntryBody) (s : State) : State :=
  let e : Entry := { seq := s.jnl.head, day := s.ret.day, second := second, body := b }
  let t := s.onJnl fun j => { j with store := j.store ++ [e], buffer := j.buffer ++ [e], head := j.head + 1 }
  if b.kind.finding then t.notice .findings else t

/-- The entries of one submission, taken at one event: the first, then the second of a pair (R175). -/
def takeEntries : Bool → List EntryBody → State → State
  | _, [], s => s
  | second, b :: bs, s => takeEntries true bs (s.takeEntry second b)

/-! ## Runs -/

/-- The first ONLINE lane from a lane upwards, wrapping from 15 to 0 (R178). -/
def nextOnline (s : State) (l : LaneNo) : Option LaneNo :=
  ((indices 16).map fun i => l + i).find? fun x => s.isOnline x

/-- The length of the run that starts at the settled mark: at most 128 entries, up to the head, within one journal extent
(R178). -/
def runLength (s : State) : Nat :=
  min (min Config.runMax s.jnl.buffer.length)
    (Config.extentEntries - s.jnl.settled % Config.areaEntries % Config.extentEntries)

/-- The journal write of a run: its extent on a lane, its byte offset and its bytes (R178). -/
def runRequest (s : State) (l : LaneNo) : Request :=
  .journalWrite (laneBase l + s.jnl.settled % Config.areaEntries / Config.extentEntries)
    (s.jnl.settled % Config.areaEntries % Config.extentEntries * 32)
    ((s.jnl.buffer.take s.runLength).flatMap Entry.bytes)

/-- A run is formed when none is outstanding, the buffer is not empty and a lane is ONLINE: it goes to the journal queue of
that lane, and the write pointer moves past it (R178, R179). -/
def formRun (s : State) : State :=
  if s.jnl.out.isSome || s.jnl.buffer.isEmpty then s
  else
    match s.nextOnline s.jnl.pointer with
    | none => s
    | some l =>
      (s.onLane l fun a => { a with journalQ := a.journalQ ++ [s.runRequest l] }).onJnl fun j =>
        { j with out := some { lane := l, first := j.settled, count := s.runLength }, pointer := l + 1 }

/-- The journal takes a submission's entries at one event; taken into an empty buffer they form a run (R175, R178). -/
def takeSubmission (entries : List EntryBody) (s : State) : State :=
  let t := takeEntries false entries s
  if s.jnl.buffer.isEmpty then t.formRun else t

/-! ## Submitting -/

/-- BLANK and FORMATTING discard what is submitted (R175). -/
def journalOff (s : State) : Bool := s.engine == .blank || s.engine == .formatting

/-- A submission: discarded in BLANK and FORMATTING, taken at once when nothing waits and there is room, and otherwise put at
the back of the line. The flag says that its producer goes on (R175). -/
def submit (sub : Submission) (s : State) : State × Bool :=
  if s.journalOff then (s, true)
  else if s.jnl.line.isEmpty && s.canTake sub then (s.takeSubmission sub.entries, true)
  else (s.onJnl fun j => { j with line := j.line ++ [sub] }, false)

/-- A submission that no later event waits for (log 42). -/
def post (who : Producer) (entries : List EntryBody) (s : State) : State :=
  (s.submit { entries := entries, who := who, acts := [] }).1

/-- One entry of a block that does not wait with it: the block goes on at once, also where the journal cannot take the entry and
it joins the line. R189, R183 and R91 say so of a quick slip, of a recovery and of a cut; for SEGMENT-CLOSED, STORE-FAILED,
STREAM-LIMIT, EXTENT-RETIRED, EDITION-FREED of an unbinding and LANE-OFFLINE it is the model's choice (DESIGN CHOICE, log 42: R175
leaves the wait to each producer's own rule, and theirs are silent). -/
def log (k : EntryKind) (sub : Subject) (v1 : Int) (v2 v3 : Nat) (s : State) : State :=
  s.post .block [EntryBody.mk0 k sub v1 v2 v3]

/-- Entries submitted one after another at one event; what the last one's taking brings about stands with it. The flag says
that all have been taken, so that their producer goes on (R50, R175). -/
def submitAll (who : Producer) (acts : List OnTake) : List EntryBody → State → State × Bool
  | [], s => (s, true)
  | [e], s => s.submit { entries := [e], who := who, acts := acts }
  | e :: es, s => submitAll who acts es (s.post who [e])

/-- Whether a producer has a submission in the line, and so waits (R175). -/
def waits (s : State) (p : Producer) : Bool := s.jnl.line.any fun x => x.who == p

/-! ## Settling and releasing -/

/-- The outstanding run is settled: the settled mark rises by its length and the buffer loses its entries (R179). -/
def settleRun (s : State) : State :=
  match s.jnl.out with
  | none => s
  | some r => s.onJnl fun j => { j with settled := j.settled + r.count, buffer := j.buffer.drop r.count, out := none }

/-- The outstanding run has failed: the write pointer moves on past the lane that failed, and the run is to be formed anew
(R179). -/
def failRun (s : State) : State :=
  match s.jnl.out with
  | none => s
  | some r => s.onJnl fun j => { j with out := none, pointer := r.lane + 1 }

/-- The release mark rises to the lower of s and the head, if that is above it, and the entries below it leave the store
(R181). -/
def releaseTo (q : Nat) (s : State) : State :=
  let m := max s.jnl.release (min q s.jnl.head)
  s.onJnl fun j => { j with store := j.store.drop (m - j.release), release := m }

end State

end Sys2Proof.Machine
end

