-- ==== Sys2Proof/Machine/Editions.lean ====
section
/-! DEFINITION. The tally and edition unit: updating a tally (R86, R87), building tables (R90), installing an edition
(R89, R91, R92), binding and unbinding a segment (R97, R98). -/

namespace Sys2Proof.Machine

/-! ## Tallies -/

/-- The lowest slot number from i upwards that a tally does not list. -/
def lowestFree {α : Type} : Nat → Tally α → Nat
  | i, [] => i
  | i, (a, _) :: t => if a = i then lowestFree (i + 1) t else i

/-- The occupied slot with the lowest count; among equal counts the lowest-numbered. -/
def leastSlot {α : Type} : Tally α → Option (Nat × (α × Nat))
  | [] => none
  | p :: t =>
    match leastSlot t with
    | some q => if q.2.2 < p.2.2 then some q else some p
    | none => some p

/-- One update of a tally with one value (R86). -/
def tallyUpdate {α : Type} [DecidableEq α] (x : α) (t : Tally α) : Tally α :=
  match t.find? fun p => decide (p.2.1 = x) with
  | some p => tput p.1 (x, min (p.2.2 + 1) Config.tallyMax) t
  | none =>
    if t.length < Config.tallySlots then tput (lowestFree 0 t) (x, 1) t
    else
      match leastSlot t with
      | some p => tput p.1 (x, min (p.2.2 + 1) Config.tallyMax) t
      | none => t

/-- Every count halved, rounded down; a slot whose count becomes 0 is freed (R91). -/
def tallyHalve {α : Type} (t : Tally α) : Tally α :=
  (t.map fun p => (p.1, (p.2.1, p.2.2 / 2))).filter fun p => decide (p.2.2 ≠ 0)

/-- The tally's updates made by one accepted record, in the order route, site, calling prefix, called prefix (R87). -/
def Editions.count (r : Rec) (e : Editions) : Editions :=
  let e1 := { e with routes := tallyUpdate r.route e.routes, sites := tallyUpdate r.site e.sites }
  let e2 := if 6 ≤ r.calling.length then { e1 with prefixes := tallyUpdate (r.calling.take 6) e1.prefixes } else e1
  if 6 ≤ r.called.length then { e2 with prefixes := tallyUpdate (r.called.take 6) e2.prefixes } else e2

/-! ## Tables -/

/-- A value put into a list kept in an order. -/
def insertBy {α : Type} (before : α → α → Bool) (x : α) : List α → List α
  | [] => [x]
  | y :: ys => if before x y then x :: y :: ys else y :: insertBy before x ys

def sortBy {α : Type} (before : α → α → Bool) : List α → List α
  | [] => []
  | x :: xs => insertBy before x (sortBy before xs)

/-- Digit strings: shorter first, then by digit value from the first digit (R90). -/
def digitsBefore (a b : List Nat) : Bool :=
  decide (a.length < b.length) || (decide (a.length = b.length) && lexBefore a b)
where
  lexBefore : List Nat → List Nat → Bool
    | x :: xs, y :: ys => decide (x < y) || (decide (x = y) && lexBefore xs ys)
    | _, _ => false

/-- A table from a tally: the values by count, highest first, equal counts by value, the first 256 (R90). -/
def tallyTable {α : Type} (valueBefore : α → α → Bool) (t : Tally α) : List α :=
  ((sortBy (fun p q => decide (q.2 < p.2) || (decide (p.2 = q.2) && valueBefore p.1 q.1)) (t.map Prod.snd)).take
    Config.tableMax).map Prod.fst

/-- The edition that a cut builds from the tallies (R90). -/
def Editions.cutTables (e : Editions) : Edition :=
  { routes := tallyTable (fun a b => decide (a < b)) e.routes, sites := tallyTable (fun a b => decide (a < b)) e.sites,
    prefixes := tallyTable digitsBefore e.prefixes }

/-- The serial after a serial: after 2³² - 1 the next is 1 (R89). -/
def nextSerial (n : Word32) : Word32 := if n = 0xFFFFFFFF then 1 else n + 1

namespace State

/-- The CURRENT slot, if there is one (R89). -/
def currentSlot (s : State) : Option SlotNo := (indices 32).find? fun i => (bget s.eds.slots i).state == .current

/-- The lowest-numbered FREE slot (R91). -/
def freeSlot (s : State) : Option SlotNo := (indices 32).find? fun i => (bget s.eds.slots i).state == .free

/-- A slot becomes FREE, with an EDITION-FREED entry that carries its serial and number (R91, R98). -/
def dropEdition (i : SlotNo) (s : State) : State :=
  (s.onSlot i fun _ => EditionSlot.freeSlot).log .editionFreed .none (bget s.eds.slots i).serial.toNat i.val 0

/-- The slot that was CURRENT: RETAINED while segments are bound to it, and otherwise FREE (R91 step 2). -/
def retireCurrent (i : SlotNo) (s : State) : State :=
  if 1 ≤ (bget s.eds.slots i).refs then s.onSlot i fun x => { x with state := .retained } else s.dropEdition i

/-- An edition is installed as one event in the lowest-numbered FREE slot, or refused with the EDITIONS counter advanced
(R91, R92). The tallies are halved unless the edition was loaded (R95). -/
def install (ed : Edition) (src : CutSource) (s : State) : State × Option (SlotNo × Word32) :=
  match s.freeSlot with
  | none => (s.notice .editions, none)
  | some i =>
    let serial := nextSerial s.eds.serial
    let old := s.currentSlot
    let s1 := (s.onSlot i fun _ => { state := .current, serial := serial, refs := 0, edition := ed }).onEds
      fun e => { e with serial := serial }
    let s2 := match old with
      | some c => s1.retireCurrent c
      | none => s1
    let s3 := if src = .load then s2
      else s2.onEds fun e => { e with routes := tallyHalve e.routes, sites := tallyHalve e.sites,
                                       prefixes := tallyHalve e.prefixes }
    ((s3.log .editionCut .none serial.toNat i.val src.code).notice .editions, some (i, serial))

/-- A cut from the tallies (R90 to R92). -/
def cut (src : CutSource) (s : State) : State × Option (SlotNo × Word32) := s.install s.eds.cutTables src

/-- The edition a segment is bound to: the tables of its slot, or none (R97, R99). -/
def editionOf (s : State) (ref : Option EditionRef) : Edition :=
  match ref with
  | some r => (bget s.eds.slots r.slot).edition
  | none => Edition.empty

/-- The binding of a segment opened now: the CURRENT slot and its serial, or none (R97, R99). -/
def currentRef (s : State) : Option EditionRef :=
  s.currentSlot.map fun i => { slot := i, serial := (bget s.eds.slots i).serial }

/-- A binding adds 1 to its slot's reference count (R97). -/
def bindEdition (ref : Option EditionRef) (s : State) : State :=
  match ref with
  | some r => s.onSlot r.slot fun x => { x with refs := x.refs + 1 }
  | none => s

/-- An unbinding takes 1 from the slot's reference count; a RETAINED slot whose count is now 0 becomes FREE (R98). -/
def unbindEdition (ref : Option EditionRef) (s : State) : State :=
  match ref with
  | none => s
  | some r =>
    let t := s.onSlot r.slot fun x => { x with refs := x.refs - 1 }
    let x := bget t.eds.slots r.slot
    if x.state = .retained ∧ x.refs = 0 then t.dropEdition r.slot else t

/-- The slot and serial that a full store answers: those of the CURRENT edition, or 0 and 0 (R93). -/
def currentAnswer (s : State) : List Nat :=
  match s.currentSlot with
  | some i => [i.val, (bget s.eds.slots i).serial.toNat]
  | none => [0, 0]

end State

end Sys2Proof.Machine
end

