-- ==== Sys2Proof/Machine/Catalog.lean ====
section
/-! DEFINITION. The catalog unit: segment records and the directory (R18 to R23), pools and allocation (R24, R25), opening
(R26, R27), appending (R28 to R30), closing (R31), and what an erase's completion does to an extent (R34, R147). -/

namespace Sys2Proof.Machine

namespace State

/-! ## Records -/

def setExtent (n : Nat) (e : Extent) (s : State) : State :=
  s.onCat fun c => { c with table := dput Extent.fresh n e c.table }

/-- A usable extent's record changed; a number outside the usable set has no record (R16). -/
def onExtent (n : Nat) (f : Extent → Extent) (s : State) : State :=
  match s.extent? n with
  | some e => s.setExtent n (f e)
  | none => s

def setContent (n : Nat) (c : Content) (s : State) : State := s.onExtent n fun e => { e with content := c }

/-- The segment fields of a live record changed. -/
def onSegment (n : Nat) (f : Segment → Segment) (s : State) : State :=
  match s.live? n with
  | some (st, g) => s.setContent n (.live st (f g))
  | none => s

/-- A request addressed to the extent has completed with a media error (R20). -/
def markFault (n : Nat) (s : State) : State := s.onExtent n fun e => { e with fault := true }

/-! ## The stream directory (R22) -/

def dirEntry (s : State) (k : StreamKey) : Option DirEntry := tfind k.code s.cat.dir

def setDir (k : StreamKey) (d : DirEntry) (s : State) : State := s.onCat fun c => { c with dir := tput k.code d c.dir }

def onDir (k : StreamKey) (f : DirEntry → DirEntry) (s : State) : State :=
  match s.dirEntry k with
  | some d => s.setDir k (f d)
  | none => s

/-- One of the key's segments has become FREE or RETIRED: the count falls by 1, and an entry whose count is 0 is removed. -/
def dropFromDir (k : StreamKey) (s : State) : State :=
  match s.dirEntry k with
  | none => s
  | some d =>
    if d.count ≤ 1 then s.onCat fun c => { c with dir := tdrop k.code c.dir }
    else s.setDir k { d with count := d.count - 1 }

/-- The key's FILLING segment (R22). -/
def fillingOf (s : State) (k : StreamKey) : Option Nat := (s.dirEntry k).bind DirEntry.filling

/-- The segment that holds a key's part (R160, R169). -/
def partOf (s : State) (k : StreamKey) (part : Nat) : Option (Nat × LiveState × Segment) :=
  s.cat.table.findSome? fun p =>
    match s.live? p.1 with
    | some (st, g) => if g.key = k ∧ g.part = part then some (p.1, st, g) else none
    | none => none

/-- The FILLING segments, in rising segment number. -/
def fillings (s : State) : List (Nat × Segment) :=
  s.cat.table.filterMap fun p =>
    match s.live? p.1 with
    | some (.filling, g) => some (p.1, g)
    | _ => none

/-! ## Closing (R31) -/

/-- A FILLING segment is closed; a segment that is not FILLING is left alone. -/
def closeSegment (cause : CloseCause) (n : Nat) (s : State) : State :=
  match s.live? n with
  | some (.filling, g) =>
    let s1 := s.onDir g.key fun d => { d with filling := none }
    if g.reserve = 0 then
      ((((s1.setContent n .free).judgeWatch).unbindEdition g.edition).dropFromDir g.key).log .segmentClosed (.segment n)
        cause.code g.part 1
    else (s1.setContent n (.live .closed g)).log .segmentClosed (.segment n) cause.code g.part 2
  | _ => s

/-- Closes in turn, as one event, in the list's order. Every caller gives rising segment numbers: DESIGN CHOICE, log 30, since
R32, R33 and R42 give the SEGMENT-CLOSED entries of one event no order. -/
def closeAll (cause : CloseCause) : List Nat → State → State
  | [], s => s
  | n :: ns, s => closeAll cause ns (s.closeSegment cause n)

/-! ## Pools and allocation (R24, R25) -/

/-- The lowest number from n upwards that the table does not list: a FREE extent with erase count 0. -/
def firstFresh (table : List (Nat × Extent)) : Nat → Nat → Option Nat
  | 0, _ => none
  | fuel + 1, n => if (tfind n table).isNone then some n else firstFresh table fuel (n + 1)

/-- Whether one FREE extent stands before another in a pool: erase count, then extent index. -/
def poolBefore (a b : Nat × Nat) : Bool := decide (a.1 < b.1) || (decide (a.1 = b.1) && decide (a.2 < b.2))

/-- The listed FREE extents of a lane with their erase counts, and the lowest that is not listed. -/
def poolCandidates (s : State) (l : LaneNo) : List (Nat × Nat) :=
  (s.cat.table.filterMap fun p =>
      if laneOf p.1 = l ∧ p.2.content = .free then some (p.2.erases, p.1) else none)
    ++ ((firstFresh s.cat.table Config.usablePerLane (laneBase l + Config.journalExtents)).map fun n => (0, n)).toList

/-- The head of a lane's pool. -/
def poolHead (s : State) (l : LaneNo) : Option Nat :=
  ((s.poolCandidates l).foldr (fun a best =>
    match best with
    | some b => if poolBefore b a then some b else some a
    | none => some a) none).map Prod.snd

/-- The lane and extent that rotation grants: the first lane from the pointer upwards, wrapping, that is ONLINE, usable and
not empty. -/
def grantExtent (s : State) : Option (LaneNo × Nat) :=
  ((indices 16).map fun i => s.cat.rotation + i).findSome? fun l =>
    if s.usableLane l && s.isOnline l then (s.poolHead l).map fun n => (l, n) else none

/-! ## Opening (R26, R27) -/

/-- The segment the open limit closes: oldest record day, then lowest segment number. -/
def openVictim (s : State) : Option Nat :=
  (s.fillings.foldr (fun a best =>
    match best with
    | some b => if poolBefore (b.2.key.day, b.1) (a.2.key.day, a.1) then some b else some a
    | none => some a) none).map Prod.fst

def openLimit (s : State) : State :=
  if Config.fillingMax ≤ s.fillings.length then
    match s.openVictim with
    | some v => s.closeSegment .openLimit v
    | none => s
  else s

/-- The fields a new segment takes (R26). -/
def newSegment (s : State) (k : StreamKey) : Segment :=
  { key := k, part := ((s.dirEntry k).map fun d => d.highest + 1).getD 1, edition := s.currentRef, records := 0,
    blocks := 0, bytes := 0, firstSeq := none, lastSeq := none, digest := 0,
    link := ((s.dirEntry k).map DirEntry.digest).getD 0, expiry := s.expiryDay k, mark := .unverified, verified := none,
    fails := 0, pins := 0, reserve := 0, inFlight := 0 }

/-- A granted extent becomes the key's FILLING segment of the next part, bound to the CURRENT edition (R26, R97). -/
def openAt (n : Nat) (k : StreamKey) (s : State) : State :=
  let g := s.newSegment k
  let d : DirEntry := { highest := g.part, digest := 0, filling := some n,
                        count := ((s.dirEntry k).map DirEntry.count).getD 0 + 1,
                        limited := ((s.dirEntry k).map DirEntry.limited).getD false }
  (((s.setContent n (.live .filling g)).bindEdition g.edition).setDir k d).judgeWatch

/-- The highest part of a key still has stores in flight (R26, arrival). -/
def partBusy (s : State) (k : StreamKey) : Bool :=
  match s.dirEntry k with
  | none => false
  | some d =>
    match s.partOf k d.highest with
    | some (_, _, g) => decide (0 < g.inFlight)
    | none => false

/-- Whether the catalog refuses an open for a key (R23). -/
def atPartLimit (s : State) (k : StreamKey) : Bool :=
  match s.dirEntry k with
  | some d => decide (Config.partMax ≤ d.highest)
  | none => false

/-- A refused open: the first for an entry sets its limit flag and submits STREAM-LIMIT (R23). -/
def refuseOpen (k : StreamKey) (s : State) : State :=
  match s.dirEntry k with
  | some d => if d.limited then s else (s.setDir k { d with limited := true }).log .streamLimit (.key k) 0 0 0
  | none => s

/-! ## Appending (R28 to R30) -/

/-- A block takes its place: the reserve mark rises by its length and the stores in flight by 1. -/
def reservePlace (n len : Nat) (s : State) : State :=
  s.onSegment n fun g => { g with reserve := g.reserve + len, inFlight := g.inFlight + 1 }

def storeEnds (n : Nat) (s : State) : State := s.onSegment n fun g => { g with inFlight := g.inFlight - 1 }

/-- A block appended (R29). -/
def appendBlock (n recs : Nat) (first last : SeqNo) (bytes : List Byte) (s : State) : State :=
  match s.live? n with
  | none => s
  | some (st, g) =>
    let digest := foldDigest g.digest bytes
    let g' := { g with bytes := g.bytes + bytes.length, records := g.records + recs, blocks := g.blocks + 1,
                       firstSeq := if g.blocks = 0 then some first else g.firstSeq, lastSeq := some last,
                       digest := digest }
    (s.setContent n (.live st g')).onDir g.key fun d => if d.highest = g.part then { d with digest := digest } else d

/-- A store that completes with a media error, at the catalog (R30). The reserve mark is set back to the byte count for a segment
that this error closes, and stays for one that was closed before (DESIGN CHOICE, log 31). -/
def storeError (n offset recs : Nat) (s : State) : State :=
  match s.live? n with
  | none => s
  | some (_, g) =>
    let s1 := (s.markFault n).log .storeFailed (.segment n) g.part offset recs
    match s1.live? n with
    | some (.filling, _) => (s1.closeSegment .storeError n).onSegment n fun g => { g with reserve := g.bytes }
    | _ => s1

/-! ## Erase completion (R34, R147) -/

/-- The erase count after an erase. -/
def erasesAfter (e : Extent) (ok : Bool) : Nat := if ok then min (e.erases + 1) Config.dayMax else e.erases

def eraseOutcome (e : Extent) (ok : Bool) : EraseOutcome :=
  if !ok then .eraseFailed else if Config.wearLimit ≤ erasesAfter e ok then .wear else .free

/-- The catalog completes the erase of an ERASING extent as one event (R34). -/
def eraseDone (n : Nat) (ok : Bool) (s : State) : State :=
  match s.extent? n with
  | some { content := .live .erasing g, erases := er, fault := fl } =>
    let e : Extent := { content := .live .erasing g, erases := er, fault := fl }
    let out := eraseOutcome e ok
    let s1 := s.setExtent n { content := if out = .free then .free else .retired, erases := erasesAfter e ok,
                              fault := fl || !ok }
    let s2 := (s1.dropFromDir g.key).judgeWatch
    let s3 := match out with
      | .free => s2
      | .wear => s2.log .extentRetired (.segment n) (erasesAfter e ok) 1 0
      | .eraseFailed => s2.log .extentRetired (.segment n) (erasesAfter e ok) 2 0
    s3.unbindEdition g.edition
  | _ => s

/-- An erase of an ERASING segment has completed: the lane-fault flag at once, then SEGMENT-EXPIRED, and, when the journal
has taken it, the catalog's part; otherwise the completion is held with the entry (R147). -/
def eraseArrives (n : Nat) (ok : Bool) (s : State) : State :=
  match s.extent? n with
  | some { content := .live .erasing g, erases := er, fault := fl } =>
    let out := eraseOutcome { content := .live .erasing g, erases := er, fault := fl } ok
    let s1 := if ok then s else s.markFault n
    let r := s1.submit { entries := [EntryBody.mk0 .segmentExpired (.key g.key) n g.part out.code], who := .block,
                         acts := [.eraseDone n ok] }
    if r.2 then r.1.eraseDone n ok else r.1
  | _ => s

end State

end Sys2Proof.Machine
end

