-- ==== Sys2Proof/Machine/Lanes.lean ====
section
/-! DEFINITION. The lane arbiter and lanes: queues (R124, R125), grants and the share window (R126 to R130), what a completed
request does on the module (R131), the error run (R132), withdrawal (R135) and lane start (R123, R136). -/

namespace Sys2Proof.Machine

/-! ## The share window -/

/-- The quota of a share in a window (R129). -/
def quotaOf (share : Nat) (w : Word32) : Nat := share / 4 + if w.toNat % 4 < share % 4 then 1 else 0

/-- A lane latches its quota at a window's first grant (R129). -/
def Lane.latch (share : Nat) (l : Lane) : Lane :=
  if l.grants = 0 then { l with quota := some (quotaOf share l.window) } else l

/-- A window grant to the background queue or to the foreground queue (R127, R130). -/
def Lane.grantBack (l : Lane) : Lane :=
  match l.backQ with
  | [] => l
  | r :: t => { l with inProgress := some r, backQ := t, grants := l.grants + 1, backGrants := l.backGrants + 1 }
def Lane.grantFore (l : Lane) : Lane :=
  match l.foreQ with
  | [] => l
  | r :: t => { l with inProgress := some r, foreQ := t, grants := l.grants + 1 }

/-- The choice of a window grant (R127 steps 2 to 4). -/
def Lane.windowGrant (l : Lane) : Lane :=
  if !l.backQ.isEmpty && decide (l.backGrants < l.quota.getD 0) then l.grantBack
  else if !l.foreQ.isEmpty then l.grantFore
  else l.grantBack

/-- Whether a lane can make a grant: ONLINE, nothing in progress, and its error run not at the limit, at which it is about to
go OFFLINE (R126, R133; log 12). -/
def Lane.canGrant (l : Lane) : Bool := l.online && l.inProgress.isNone && decide (l.errorRun < Config.errorLimit)

/-- A lane's grant: the journal queue first; otherwise, in a window that is not complete, a window grant (R127, R130). -/
def Lane.grant (share : Nat) (l : Lane) : Lane :=
  if !l.canGrant then l
  else
    match l.journalQ with
    | r :: t => { l with inProgress := some r, journalQ := t }
    | [] =>
      if (l.foreQ.isEmpty && l.backQ.isEmpty) || decide (Config.windowGrants ≤ l.grants) then l
      else (l.latch share).windowGrant

/-- A complete window ends: w gains 1, and g and b are 0 (R130). -/
def Lane.endWindow (l : Lane) : Lane :=
  if Config.windowGrants ≤ l.grants then { l with window := l.window + 1, grants := 0, backGrants := 0, quota := none }
  else l

/-- The request in progress completes: the error run is 0 after a success and gains 1 after a media error (R132). -/
def Lane.complete (ok : Bool) (l : Lane) : Lane :=
  if ok then { l with inProgress := none, errorRun := 0 }
  else { l with inProgress := none, errorRun := l.errorRun + 1, lastError := l.inProgress }

namespace State

/-- Every lane that can makes a grant. -/
def grantLanes (s : State) : State :=
  (indices 16).foldl (fun t l => t.onLane l (Lane.grant t.lanes.share)) s

/-- A request joins the foreground or the background queue of its lane (R124). -/
def enqueueFore (l : LaneNo) (r : Request) (s : State) : State := s.onLane l fun a => { a with foreQ := a.foreQ ++ [r] }
def enqueueBack (l : LaneNo) (r : Request) (s : State) : State := s.onLane l fun a => { a with backQ := a.backQ ++ [r] }

/-- The entries a lane's journal takes and the requests it fetches and erases: after an event that gives a lane or the journal
something to do, a run is formed (R178) and the lanes make their grants (R126). -/
def pump (s : State) : State := s.formRun.grantLanes

/-! ## What a completed request does on the module (R131) -/

/-- The place of a byte of an extent in `media`. -/
def mediaAt (seg offset : Nat) : Nat := seg * Config.extentBytes + offset

def mediaWrite (seg offset : Nat) (bs : List Byte) (s : State) : State :=
  s.onMedia (Memory.writeAll Config.mediaFill · (mediaAt seg offset) bs)

def mediaErase (seg : Nat) (s : State) : State := s.onMedia fun m => Memory.clear m (mediaAt seg 0) Config.extentBytes

def mediaRead (s : State) (seg offset n : Nat) : List Byte :=
  Memory.bytes Config.mediaFill s.media (mediaAt seg offset) n

/-- Whether an address of `media` lies in the span a request writes. -/
def Request.touches : Request → Nat → Bool
  | .store seg off _ bs, a => decide (mediaAt seg off ≤ a ∧ a < mediaAt seg off + bs.length)
  | .fetch .., _ => false
  | .erase seg, a => decide (mediaAt seg 0 ≤ a ∧ a < mediaAt seg 0 + Config.extentBytes)
  | .journalWrite ext pos bs, a => decide (mediaAt ext pos ≤ a ∧ a < mediaAt ext pos + bs.length)

/-- A request in progress may have been partly carried out on its module (R136): the stated bytes within the spans of the
requests in progress. -/
def tear (torn : List (Nat × Byte)) (s : State) : State :=
  s.onMedia (Memory.writeCells Config.mediaFill · (torn.filter fun c =>
    (indices 16).any fun l =>
      match (bget s.lanes.lane l).inProgress with
      | some r => Request.touches r c.1
      | none => false))

/-! ## Lane start (R123, R136) -/

/-- Every lane discards its queues and its request in progress and takes ONLINE or OFFLINE by whether its module answers; the
current share is 0. -/
def laneStart (present : BitVec 16) (s : State) : State :=
  { s with lanes := { lane := (indices 16).foldl (fun v l => bset v l (Lane.start (present.getLsbD l.val))) s.lanes.lane,
                      share := 0 } }

/-! ## Withdrawing a queued erase (R135) -/

/-- A lane's answers to a withdrawal request. -/
inductive Withdrawal where
  | withdrawn | started | notQueued
deriving DecidableEq, Repr

/-- Where the erase of a segment stands on its lane. -/
def withdrawal (s : State) (n : Nat) : Withdrawal :=
  let l := bget s.lanes.lane (laneOf n)
  if l.backQ.any fun r => r == .erase n then .withdrawn
  else if l.inProgress == some (.erase n) then .started
  else .notQueued

/-- The erase leaves the background queue. -/
def removeErase (n : Nat) (s : State) : State :=
  s.onLane (laneOf n) fun l => { l with backQ := l.backQ.filter fun r => r != .erase n }

/-- An erase for an ERASING segment: it joins its lane's background queue, or, on an OFFLINE lane, fails at once (R124, R134,
R145, R154). -/
def issueErase (n : Nat) (s : State) : State :=
  if s.isOnline (laneOf n) then s.enqueueBack (laneOf n) (.erase n) else s.eraseArrives n false

end State

end Sys2Proof.Machine
end

