-- ==== Sys2Proof/Machine/Executor.lean ====
section
/-! DEFINITION. The service executor (R190 to R192): the running, suspended and waiting operations, the choice of the next one,
preemption and suspension, and the end of an operation. -/

namespace Sys2Proof.Machine

/-- The two kinds whose operation is an expiry pass (R151). -/
def OpBody.isPass : OpBody → Bool
  | .advance .. | .expire .. => true
  | _ => false

/-- The cancellable kinds (R192). -/
def OpBody.cancellable : OpBody → Bool
  | .verify .. | .extract .. | .journalRead .. | .catalogRead .. => true
  | _ => false

/-- The kinds that read segments through fetches (R191). -/
def OpBody.fetches : OpBody → Bool
  | .verify .. | .extract .. => true
  | _ => false

def OpBody.isFormat : OpBody → Bool
  | .format _ => true
  | _ => false

/-- The visit under way of an operation that reads segments. -/
def OpBody.visit : OpBody → Option Visit
  | .verify _ _ _ v => v
  | .extract _ st => st.visit
  | _ => none

def OpBody.setVisit (v : Option Visit) : OpBody → OpBody
  | .verify sel cursor counts _ => .verify sel cursor counts v
  | .extract p st => .extract p { st with visit := v }
  | b => b

/-- Whether an operation has a fetch outstanding. -/
def Op.fetching (o : Op) : Bool := ((o.body.visit.map Visit.waiting).getD false)

namespace State

/-! ## Reaching operations -/

/-- The running operation changed. -/
def onRunning (f : Op → Op) (s : State) : State := s.onExec fun e => { e with running := e.running.map f }

/-- The running operation's body changed. -/
def onBody (f : OpBody → OpBody) (s : State) : State := s.onRunning fun o => { o with body := f o.body }

/-- The running or suspended operation with an admission number. -/
def opOf (s : State) (adm : Nat) : Option Op := (s.exec.running.toList ++ s.exec.suspended).find? fun o => o.adm == adm

/-- The running or suspended operation with an admission number changed. -/
def onOp (adm : Nat) (f : Op → Op) (s : State) : State :=
  s.onExec fun e => { e with running := e.running.map fun o => if o.adm = adm then f o else o,
                             suspended := e.suspended.map fun o => if o.adm = adm then f o else o }

/-- The running operation, when it has not yet first run. Its first run is the command of its kind, and any other command can come
between the choice and the first run (DESIGN CHOICE, log 12: R190 has it begin running at the event of the choice). -/
def newRunning (s : State) : Option Op := s.exec.running.filter fun o => !o.begun

/-- The running operation, when it has first run and has not come to its end. -/
def stepping (s : State) : Option Op := s.exec.running.filter fun o => o.begun && !o.ended

/-- Every operation of the executor and of the sweep under way. -/
def allOps (s : State) : List Op :=
  s.exec.running.toList ++ s.exec.suspended ++ s.exec.waiting ++ ((s.desk.sweep.map Sweep.long).getD [])

/-- A pass is pending: from the admission of an ADVANCE or EXPIRE until the end of its pass (R151). -/
def passPending (s : State) : Bool := s.allOps.any fun o => o.body.isPass && !o.ended

/-! ## Ends -/

/-- No operation runs; a requested suspension lapses (R191). -/
def clearRunning (s : State) : State := s.onExec fun e => { e with running := none, preempt := none }

/-- The running operation ends with an answer, or without one. -/
def endAnswer (st : Status) (values : List Byte) (s : State) : State :=
  match s.exec.running with
  | some o => (s.answer o.slip st values).clearRunning
  | none => s
def endSilent (s : State) : State :=
  match s.exec.running with
  | some o => (s.noAnswer o.slip).clearRunning
  | none => s

/-! ## Choice (R190) -/

/-- The first operation of the lowest priority value. -/
def leastPrio : List Op → Option Op
  | [] => none
  | o :: os =>
    match leastPrio os with
    | some q => if q.prio < o.prio then some q else some o
    | none => some o

/-- The choice among the suspended operations, most recently suspended first, and then the waiting ones, in admission order. -/
def pick (s : State) : Option Op := leastPrio (s.exec.suspended ++ s.exec.waiting)

/-- A chosen operation leaves its list and runs. -/
def makeRunning (o : Op) (s : State) : State :=
  s.onExec fun e => { e with running := some o, suspended := e.suspended.filter fun x => x.adm != o.adm,
                             waiting := e.waiting.filter fun x => x.adm != o.adm }

/-! ## Preemption and suspension (R191) -/

/-- A newly admitted long operation preempts the running one. -/
def preempts (s : State) (o : Op) : Bool :=
  match s.exec.running with
  | some r =>
    o.urgent && decide (o.prio < r.prio) && decide (s.exec.suspended.length < Config.suspendedMax) && !r.body.isFormat
      && s.exec.preempt.isNone
  | none => false

/-- A requested suspension takes effect: the running operation becomes the most recently suspended, and the preempting
operation runs. -/
def takeSuspension (s : State) : State :=
  match s.exec.running, s.exec.preempt with
  | some r, some a =>
    match s.exec.waiting.find? fun o => o.adm == a with
    | some o =>
      s.onExec fun e => { running := some o, suspended := r :: e.suspended,
                          waiting := e.waiting.filter fun x => x.adm != a, preempt := none }
    | none => s.onExec fun e => { e with preempt := none }
  | _, _ => s

/-- A VERIFY or EXTRACT without an outstanding fetch is suspended at once. -/
def suspendAtOnce (s : State) : State :=
  match s.exec.running with
  | some r => if r.body.fetches && !r.fetching then s.takeSuspension else s
  | none => s

/-- Step 4 of a sweep for one operation: it joins the waiting list, and an urgent one may request the suspension of the running
operation (R190, R191). -/
def handOver (o : Op) (s : State) : State :=
  let t := s.onExec fun e => { e with waiting := e.waiting ++ [o] }
  if s.preempts o then (t.onExec fun e => { e with preempt := some o.adm }).suspendAtOnce else t

def handOverAll : List Op → State → State
  | [], s => s
  | o :: os, s => handOverAll os (s.handOver o)

/-! ## Withdrawal (R192) -/

/-- A pin released. -/
def unpin (n : Nat) (s : State) : State := s.onSegment n fun g => { g with pins := g.pins - 1 }
def pin (n : Nat) (s : State) : State := s.onSegment n fun g => { g with pins := g.pins + 1 }

/-- The pin of an operation's visit released. -/
def unpinOp (o : Op) (s : State) : State :=
  match o.body.visit with
  | some v => s.unpin v.seg
  | none => s

/-- A stop of the running operation takes effect: its pin is released and it ends without an answer. -/
def stopRunning (s : State) : State :=
  match s.exec.running with
  | some o => (s.unpinOp o).endSilent
  | none => s

/-- A waiting or suspended operation is removed (R192). A suspension of the running operation that it had requested lapses, and that
operation goes on (DESIGN CHOICE, log 15: R191 and R192 do not say what becomes of such a request). -/
def removeOp (adm : Nat) (s : State) : State :=
  s.onExec fun e => { e with suspended := e.suspended.filter fun x => x.adm != adm,
                             waiting := e.waiting.filter fun x => x.adm != adm,
                             preempt := e.preempt.filter fun a => a != adm }

/-- A withdrawn slip's operation of the executor (R192). -/
def withdrawOp (i : SlipNo) (s : State) : State :=
  match (s.exec.waiting ++ s.exec.suspended).find? fun o => o.slip == some i with
  | some o => if o.body.cancellable then ((s.unpinOp o).removeOp o.adm).releaseSlip i else s
  | none =>
    match s.exec.running with
    | some r =>
      if r.slip = some i ∧ r.body.cancellable then
        if r.body.fetches && !r.fetching then s.stopRunning else s.onRunning fun o => { o with stopping := true }
      else s
    | none => s

/-- Every operation is detached from its slip (R199). A running operation whose withdrawal was noted before keeps its stop, and so
stops at its next suspension point in place of running on (DESIGN CHOICE, log 15: R192 gives the one and R199 the other). -/
def detachOps (s : State) : State :=
  s.onExec fun e => { e with running := e.running.map fun o => { o with slip := none },
                             suspended := e.suspended.map fun o => { o with slip := none },
                             waiting := e.waiting.map fun o => { o with slip := none } }

end State

end Sys2Proof.Machine
end

