-- ==== Sys2Proof/Machine/Audit.lean ====
section
/-! DEFINITION. The audit unit: pins and fetches (R156, R157), the verdict (R158 to R161), what a VERIFY operation and the scrub
do at it (R162 to R166), and how an EXTRACT reads a segment (R169 to R171). -/

namespace Sys2Proof.Machine

/-! ## A reader's visit -/

/-- How a fetch completes: with its bytes, or with a media error at the offset that it asked for (R157, R158). -/
inductive Arrival where
  | bytes (b : List Byte)
  | error (offset : Nat)
deriving DecidableEq, Repr

namespace State

/-- The visit of a reader. -/
def visitOf (s : State) : Reader → Option Visit
  | .op adm => (s.opOf adm).bind fun o => o.body.visit
  | .scrub => s.scrub.visit

def setVisit (r : Reader) (v : Option Visit) (s : State) : State :=
  match r with
  | .op adm => s.onOp adm fun o => { o with body := o.body.setVisit v }
  | .scrub => s.onScrub fun x => { x with visit := v }

/-- A visit that begins: the read length is the byte count at the pin (R157). -/
def newVisit (n : Nat) (g : Segment) : Visit :=
  { seg := n, length := g.bytes, asked := 0, waiting := false, kept := none, digest := 0, walk := BlockWalk.start,
    judged := false }

/-- A segment pinned for a reader's visit (R156). -/
def beginVisit (r : Reader) (n : Nat) (g : Segment) (s : State) : State := (s.pin n).setVisit r (some (newVisit n g))

/-- The visit left: the pin released. -/
def leaveVisit (r : Reader) (s : State) : State :=
  match s.visitOf r with
  | some v => (s.unpin v.seg).setVisit r none
  | none => s

/-- The length of the next fetch of a visit (R157). -/
def fetchLength (v : Visit) : Nat := min Config.fetchBytes (v.length - v.asked)

/-- The next fetch: foreground for an operation, background for the scrub (R124, R157). -/
def issueFetch (r : Reader) (v : Visit) (s : State) : State :=
  let q := Request.fetch v.seg v.asked (fetchLength v) r
  let t := s.setVisit r (some { v with asked := v.asked + fetchLength v, waiting := true })
  match r with
  | .op _ => t.enqueueFore (laneOf v.seg) q
  | .scrub => t.enqueueBack (laneOf v.seg) q

/-! ## The four checks (R158 to R160) -/

/-- A segment is checkable: CLOSED with no stores in flight. -/
def checkable (st : LiveState) (g : Segment) : Bool := st == .closed && g.inFlight == 0

/-- The link check fails (R160). -/
def linkFails (s : State) (g : Segment) : Bool :=
  if g.part ≤ 1 then g.link != 0
  else
    match s.partOf g.key (g.part - 1) with
    | some (_, .closed, x) => g.link != x.digest
    | some (_, .erasing, x) => g.link != x.digest
    | _ => false

/-- The verdict after the last fetch: none for a pass, or the cause and position of the first failed check. -/
def verdictOf (s : State) (v : Visit) (g : Segment) : Option (VerifyCause × Nat) :=
  if v.digest ≠ g.digest then some (.digest, 0)
  else
    match v.walk.bad with
    | some i => some (.decode, i)
    | none =>
      if !walkMatches v.walk g then some (.decode, Config.totalsPosition s.fresh)
      else if s.linkFails g then some (.link, 0)
      else none

/-! ## At the verdict (R161) -/

/-- The verdict counted by its reader. -/
def countReader (r : Reader) (ok : Bool) (s : State) : State :=
  match r with
  | .op adm => s.onOp adm fun o =>
      { o with body := match o.body with
          | .verify sel cursor n v =>
            .verify sel cursor { n with checked := n.checked + 1, passed := n.passed + (if ok then 1 else 0),
                                        failed := n.failed + (if ok then 0 else 1) } v
          | b => b }
  | .scrub => s.onScrub fun x =>
      { x with checked := x.checked + 1, failed := x.failed + (if ok then 0 else 1) }

/-- A lap has ended: SCRUB-LAPS advances, the cursor is 0 and the scrub is RESTING (R166). -/
def lapEnd (s : State) : State := (s.notice .scrubLaps).onScrub fun x => { x with cursor := 0, state := .resting }

/-- The scrub cursor moves to the next number; past the last, SCRUB-LAP is submitted and the lap ends when it is taken. Until then
the scrub waits WALKING at the last number (R165, R166, R175; DESIGN CHOICE, log 36). -/
def scrubAdvance (s : State) : State :=
  if s.scrub.cursor + 1 < Config.segmentEnd then
    s.onScrub fun x => { x with cursor := x.cursor + 1, state := .walking }
  else
    let r := s.submit
      { entries := [EntryBody.mk0 .scrubLap .none s.scrub.checked s.scrub.failed (s.scrub.startDay.getD 0)],
        who := .scrub, acts := [.lapEnd] }
    if r.2 then r.1.lapEnd else r.1.onScrub fun x => { x with state := .walking }

/-- The answer of a VERIFY. -/
def verifyValues (n : VerifyCounts) : List Byte := fours [n.checked, n.passed, n.failed, n.skipped]

/-- A running VERIFY whose cursor has passed the last number is answered (R162). -/
def verifyEnd (s : State) : State :=
  match s.exec.running with
  | some { body := .verify _ cursor n _, .. } =>
    if Config.segmentEnd ≤ cursor then s.endAnswer .done (verifyValues n) else s
  | _ => s

/-- The reader unpins the segment and goes on to the next number. -/
def verdictDone (r : Reader) (s : State) : State :=
  match s.visitOf r with
  | none => s
  | some _ =>
    let t := s.leaveVisit r
    match r with
    | .scrub => t.scrubAdvance
    | .op adm =>
      (t.onOp adm fun o =>
        { o with body := match o.body with
            | .verify sel cursor n v => .verify sel (cursor + 1) n v
            | b => b }).verifyEnd

/-- A pass: VERIFIED on the day D. -/
def standPass (n : Nat) (s : State) : State :=
  s.onSegment n fun g => { g with mark := .verified, verified := some s.ret.day }

/-- A failure: SUSPECT, the fail count up by 1. -/
def standFail (n : Nat) (s : State) : State :=
  s.onSegment n fun g => { g with mark := .suspect, fails := min (g.fails + 1) Config.failMax }

/-- The producer that a reader is. -/
def readerProducer : Reader → Producer
  | .op adm => .op adm
  | .scrub => .scrub

/-- The fail count of a segment. -/
def failsOf (s : State) (n : Nat) : Nat := ((s.live? n).map fun x => x.2.fails).getD 0

/-- The verdict is given: the standing is set, and after a failure the reader goes on when VERIFY-FAIL is taken. -/
def giveVerdict (r : Reader) (out : Option (VerifyCause × Nat)) (v : Visit) (s : State) : State :=
  match out with
  | none => ((s.standPass v.seg).countReader r true).verdictDone r
  | some (cause, position) =>
    let t := (s.standFail v.seg).countReader r false
    let x := t.submit { entries := [EntryBody.mk0 .verifyFail (.segment v.seg) cause.code (t.failsOf v.seg) position],
                        who := readerProducer r, acts := [.verdict r] }
    if x.2 then x.1.verdictDone r else x.1.setVisit r (some { v with judged := true, waiting := false, kept := none })

/-! ## Reading for a verification -/

/-- The reader issues its next fetch, or, having read all, gives its verdict; a fetch for an OFFLINE lane fails at once (R134,
R157, R158). -/
def verifyGo (r : Reader) (s : State) : State :=
  match s.visitOf r with
  | none => s
  | some v =>
    match s.live? v.seg with
    | none => s
    | some (_, g) =>
      if v.length ≤ v.asked then s.giveVerdict r (s.verdictOf v g) v
      else if s.isOnline (laneOf v.seg) then s.issueFetch r v
      else (s.markFault v.seg).giveVerdict r (some (.media, v.asked)) v

/-- A completed fetch of a verification: its bytes are folded and decoded, or its error ends the reading. -/
def verifyArrives (r : Reader) (a : Arrival) (s : State) : State :=
  match s.visitOf r with
  | none => s
  | some v =>
    match a with
    | .error offset => s.giveVerdict r (some (.media, offset)) v
    | .bytes b =>
      match s.live? v.seg with
      | none => s
      | some (_, g) =>
        let w := (feedBlocks (s.editionOf g.edition) g.edition (decide (v.length ≤ v.asked)) b v.walk).2
        (s.setVisit r (some { v with waiting := false, kept := none, digest := foldDigest v.digest b, walk := w })).verifyGo r

/-! ## Reading for an extraction (R169 to R171) -/

/-- A record is wanted: no range is given, or its sequence lies in it numerically (R169). -/
def wanted (p : ExtractParams) (r : Rec) : Bool :=
  match p.range with
  | none => true
  | some (a, b) => decide (a ≤ r.seq.toNat ∧ r.seq.toNat ≤ b)

/-- A record stands before the resume point (R170). -/
def beforePoint (skip : Option (Nat × Nat)) (blk i : Nat) : Bool :=
  match skip with
  | none => false
  | some (b, j) => decide (blk < b ∨ (blk = b ∧ i < j))

/-- The records of one block from an index on, written while there is room; the index of the first wanted record that finds
none. -/
def writeRecords (p : ExtractParams) (skip : Option (Nat × Nat)) (blk : Nat) :
    Nat → List Rec → Nat → State → State × Nat × Option Nat
  | _, [], w, s => (s, w, none)
  | i, r :: rs, w, s =>
    if beforePoint skip blk i || !wanted p r then writeRecords p skip blk (i + 1) rs w s
    else if w < p.capacity then writeRecords p skip blk (i + 1) rs (w + 1) (s.hostWrite (p.buffer + 64 * w) (recordBytes r))
    else (s, w, some i)

/-- How the writing of decoded blocks stops: at a wanted record without room, or because the resume point names a record that
its block does not have. -/
inductive ExtractStop where
  | full (blk i : Nat)
  | badPoint
deriving DecidableEq, Repr

def writeBlocks (p : ExtractParams) (skip : Option (Nat × Nat)) :
    List (Nat × List Rec) → Nat → State → State × Nat × Option ExtractStop
  | [], w, s => (s, w, none)
  | (blk, rs) :: t, w, s =>
    if (match skip with
        | some (b, j) => decide (blk = b ∧ rs.length ≤ j)
        | none => false) then (s, w, some .badPoint)
    else
      let x := writeRecords p skip blk 0 rs w s
      match x.2.2 with
      | some i => (x.1, x.2.1, some (.full blk i))
      | none => writeBlocks p skip t x.2.1 x.1

/-- The values of an EXTRACT's answer; without a resume point its three fields are 0 (DESIGN CHOICE, log 39). -/
def extractValues (st : ExtractState) (point : Nat × Nat × Nat) : List Byte :=
  fours [st.written, st.read, st.skipped, st.missing, point.1, point.2.1, point.2.2]

/-- The progress of the running EXTRACT changed. -/
def onExtract (f : ExtractState → ExtractState) (s : State) : State :=
  s.onBody fun b =>
    match b with
    | .extract p st => .extract p (f st)
    | b => b

/-- The reading of the segment ends: unpinned, and counted as skipped after a fetch error or decode failure (R171). -/
def extractLeave (skipped : Bool) (s : State) : State :=
  match s.exec.running with
  | some o => (s.unpinOp o).onExtract fun st =>
      { st with visit := none, skip := none, skipped := st.skipped + (if skipped then 1 else 0) }
  | none => s

/-- The running EXTRACT issues its next fetch, or, having read all, leaves the segment. -/
def extractGo (s : State) : State :=
  match s.exec.running with
  | some o =>
    match o.body.visit with
    | some v =>
      if v.length ≤ v.asked then s.extractLeave false
      else if s.isOnline (laneOf v.seg) then s.issueFetch (.op o.adm) v
      else (s.markFault v.seg).extractLeave true
    | none => s
  | none => s

/-- A completed fetch of the running EXTRACT. -/
def extractArrives (a : Arrival) (s : State) : State :=
  match a with
  | .error _ => s.extractLeave true
  | .bytes b =>
    match s.exec.running with
    | some { body := .extract p st, .. } =>
      match st.visit with
      | some v =>
        match s.live? v.seg with
        | some (_, g) =>
          let f := feedBlocks (s.editionOf g.edition) g.edition (decide (v.length ≤ v.asked)) b v.walk
          let x := writeBlocks p st.skip f.1 st.written s
          match x.2.2 with
          | some (.full blk i) =>
            (x.1.unpin v.seg).endAnswer .partialDone (extractValues { st with written := x.2.1 } (v.seg, blk, i))
          | some .badPoint => (x.1.unpin v.seg).endAnswer .range []
          | none =>
            let t := x.1.onExtract fun e =>
              { e with written := x.2.1, visit := some { v with waiting := false, kept := none, walk := f.2 } }
            if f.2.bad.isSome then t.extractLeave true else t.extractGo
        | none => s
      | none => s
    | _ => s

/-- A completed fetch for the running operation. -/
def opArrives (a : Arrival) (s : State) : State :=
  match s.exec.running with
  | some o =>
    match o.body with
    | .verify .. => s.verifyArrives (.op o.adm) a
    | .extract .. => s.extractArrives a
    | _ => s
  | none => s

/-! ## A fetch's completion (R157, R163, R165, R171, R191) -/

/-- A visit keeps the bytes of a completed fetch for the time its operation is suspended. -/
def Visit.keep (b : List Byte) (v : Visit) : Visit := { v with waiting := false, kept := some b }

/-- A fetch completes: a withdrawn operation stops, a requested suspension takes effect, and otherwise the reader goes on. At a
suspension the bytes are kept (R163), and an error ends the reading of its segment first, with its verdict for a VERIFY (R158,
R171). An operation that is both withdrawn and asked to be suspended stops: the request lapses with its end, and R190 chooses the next
(DESIGN CHOICE, log 15: this completion is the suspension point of both, and R191 and R192 give neither precedence). -/
def fetchDone (r : Reader) (a : Arrival) (s : State) : State :=
  match r with
  | .scrub => s.verifyArrives .scrub a
  | .op adm =>
    match s.exec.running with
    | some o =>
      if o.adm = adm ∧ o.fetching then
        if o.stopping then s.stopRunning
        else if s.exec.preempt.isSome then
          (match a with
          | .bytes b => (s.onBody fun x => x.setVisit (x.visit.map (Visit.keep b))).takeSuspension
          | .error offset => (s.opArrives (.error offset)).takeSuspension)
        else s.opArrives a
      else s
    | none => s

/-! ## The next operation (R190) -/

/-- A resumed operation goes on with the fetch it kept (R163); a VERIFY that was suspended at its last verdict ends. -/
def resumeKept (s : State) : State :=
  match s.exec.running with
  | some o =>
    match o.body.visit with
    | some v =>
      match v.kept with
      | some b => s.opArrives (.bytes b)
      | none => s
    | none => s.verifyEnd
  | none => s

/-- While nothing runs, the chosen operation runs or resumes. A resumed operation can end at once, so the choice is made again:
at most once for each suspended operation. -/
def nextLoop : Nat → State → State
  | 0, s => s
  | fuel + 1, s =>
    if s.exec.running.isSome then s
    else
      match s.pick with
      | some o => nextLoop fuel (s.makeRunning o).resumeKept
      | none => s

/-- The executor chooses, but not while RECOVERING: the resumed walks wait until the engine is READY (R154, R197; log 10). -/
def nextOp (s : State) : State := if s.engine = .recovering then s else nextLoop 4 s

end State

end Sys2Proof.Machine
end

