-- ==== Sys2Proof/Machine/Sequence.lean ====
section
/-! DEFINITION. The reconciliation unit: classifying a sequence number in a working context (R68 to R75), merging a pending gap
list into the gap table (R77 to R79), abandoning ranges (R79, R80). -/

namespace Sys2Proof.Machine

/-! ## Runs of sequence numbers, taken serially -/

/-- The distance from an expected to a received number (Sequence numbers). -/
def distance (e s : SeqNo) : Nat := (s - e).toNat

/-- Whether a run of `count` numbers from `first` upwards holds a number. -/
def runHas (first : SeqNo) (count : Nat) (x : SeqNo) : Bool := decide (distance first x < count)

/-- Whether two runs share a number. -/
def runsMeet (a : SeqNo) (m : Nat) (b : SeqNo) (n : Nat) : Bool :=
  decide (0 < m ∧ 0 < n) && (runHas a m b || runHas b n a)

/-! ## The working view (R69) -/

/-- A range is named by a DISPLACE entry. -/
def displaced (p : List GapEntry) (r : SeqNo) : Bool := p.any fun x => x == .displace r

/-- A number lies in a FILL entry for a range. -/
def filledIn (p : List GapEntry) (r x : SeqNo) : Bool :=
  p.any fun e =>
    match e with
    | .fill q f n => q == r && runHas f n x
    | _ => false

/-- A number lies in a NEW entry. -/
def inNew (p : List GapEntry) (x : SeqNo) : Bool :=
  p.any fun e =>
    match e with
    | .new f n => runHas f n x
    | _ => false

/-- The switch's range of the gap table, within the working view, that holds a number. -/
def viewRange (gaps : List Range) (p : List GapEntry) (x : SeqNo) : Option Range :=
  gaps.find? fun r => runHas r.first r.count x && !displaced p r.first && !filledIn p r.first x

/-! ## Clearing a span (R71) -/

/-- NEW entries that share a number with the span are removed whole. -/
def clearNew (first : SeqNo) (count : Nat) (p : List GapEntry) : List GapEntry :=
  p.filter fun e =>
    match e with
    | .new f n => !runsMeet first count f n
    | _ => true

/-- A range is named in a DISPLACE entry at the end of the list, and its FILL entries are removed. -/
def displaceRange (r : SeqNo) (p : List GapEntry) : List GapEntry :=
  (p.filter fun e =>
    match e with
    | .fill q _ _ => q != r
    | _ => true) ++ [.displace r]

/-- Every range of the switch that shares a number with the span and is not yet displaced is displaced, in table order. -/
def clearRanges (first : SeqNo) (count : Nat) : List Range → List GapEntry → List GapEntry
  | [], p => p
  | r :: rs, p =>
    clearRanges first count rs
      (if runsMeet first count r.first r.count && !displaced p r.first then displaceRange r.first p else p)

def clearSpan (first : SeqNo) (count : Nat) (gaps : List Range) (p : List GapEntry) : List GapEntry :=
  clearRanges first count gaps (clearNew first count p)

/-! ## Filling (R73, R74) -/

/-- A NEW entry of positive count, or nothing. -/
def newEntry (f : SeqNo) (n : Nat) : List GapEntry := if n = 0 then [] else [.new f n]

/-- The entry that holds a number shrinks, splits or goes (R73). -/
def fillNew (x : SeqNo) : List GapEntry → List GapEntry
  | [] => []
  | .new f n :: t =>
    if runHas f n x then newEntry f (distance f x) ++ newEntry (x + 1) (n - distance f x - 1) ++ t
    else .new f n :: fillNew x t
  | e :: t => e :: fillNew x t

/-- A FILL entry for a range that ends just below a number, and one that begins just above it. -/
def endsBelow (r x : SeqNo) : GapEntry → Bool
  | .fill q f n => q == r && f + BitVec.ofNat 32 n == x
  | _ => false
def beginsAbove (r x : SeqNo) : GapEntry → Bool
  | .fill q f _ => q == r && f == x + 1
  | _ => false

/-- The count of a FILL entry. -/
def fillCount : GapEntry → Nat
  | .fill _ _ n => n
  | _ => 0

/-- The first entry that a test picks, replaced; the rest kept. -/
def replaceFirst (test : GapEntry → Bool) (f : GapEntry → GapEntry) : List GapEntry → List GapEntry
  | [] => []
  | e :: t => if test e then f e :: t else e :: replaceFirst test f t

/-- The first entry that a test picks, removed. -/
def removeFirst (test : GapEntry → Bool) : List GapEntry → List GapEntry
  | [] => []
  | e :: t => if test e then t else e :: removeFirst test t

/-- A fill of a range recorded in the list: it lengthens the FILL entry below or above it, joins two that it separates into
the earlier one's place, or is appended (R74). -/
def fillRange (r x : SeqNo) (p : List GapEntry) : List GapEntry :=
  match p.find? (endsBelow r x), p.find? (beginsAbove r x) with
  | some (.fill q f n), some (.fill _ g m) =>
    let joined : GapEntry := .fill q f (n + 1 + m)
    if p.findIdx (endsBelow r x) < p.findIdx (beginsAbove r x) then
      removeFirst (fun e => e == .fill q g m) (replaceFirst (endsBelow r x) (fun _ => joined) p)
    else removeFirst (fun e => e == .fill q f n) (replaceFirst (beginsAbove r x) (fun _ => joined) p)
  | some (.fill q f n), _ => replaceFirst (endsBelow r x) (fun _ => .fill q f (n + 1)) p
  | _, some (.fill q _ n) => replaceFirst (beginsAbove r x) (fun _ => .fill q x (n + 1)) p
  | _, _ => p ++ [.fill r x 1]

/-! ## Classification (R68) -/

/-- The verdicts (R68). -/
inductive Verdict where
  | accepted | duplicate
deriving DecidableEq, Repr

/-- What a classification brings: the verdict, the expected value and list afterwards, and whether it was a fill or a
restart. -/
structure Judged where
  verdict : Verdict
  expected : Option SeqNo
  gaps : List GapEntry
  fill : Bool
  restart : Bool
deriving DecidableEq, Repr

/-- The classification of number x against the expected value e, where `gaps` are the switch's ranges of the gap table as it
stands and p is the pending gap list. The limit of the list is tested by the caller (R75). A record in order clears no span, as
R68 and R71 say, so e can step into a kept range although R76 says that no range contains it (DESIGN CHOICE, log 32). -/
def classify (gaps : List Range) (e : Option SeqNo) (p : List GapEntry) (x : SeqNo) : Judged :=
  match e with
  | none => { verdict := .accepted, expected := some (x + 1), gaps := clearSpan x 2 gaps p, fill := false, restart := false }
  | some e =>
    let d := distance e x
    if d = 0 then { verdict := .accepted, expected := some (x + 1), gaps := p, fill := false, restart := false }
    else if d < Config.aheadLimit then
      { verdict := .accepted, expected := some (x + 1), gaps := clearSpan e (d + 2) gaps p ++ [.new e d], fill := false,
        restart := false }
    else if d < Config.behindLimit then
      { verdict := .accepted, expected := some (x + 1), gaps := clearSpan e (d + 2) gaps p, fill := false, restart := true }
    else if inNew p x then
      { verdict := .accepted, expected := some e, gaps := fillNew x p, fill := true, restart := false }
    else
      match viewRange gaps p x with
      | some r => { verdict := .accepted, expected := some e, gaps := fillRange r.first x p, fill := true, restart := false }
      | none => { verdict := .duplicate, expected := some e, gaps := p, fill := false, restart := false }

/-! ## The gap table -/

/-- The entry of a range's abandonment (R79). -/
def abandonEntry (r : Range) (c : GapCause) : EntryBody :=
  EntryBody.mk0 .gapAbandoned (.switch r.switch) r.first.toNat r.count c.code

/-- The oldest range that a test picks is abandoned with a cause; the ranges after and the entry submitted. -/
def abandonFirst (test : Range → Bool) (c : GapCause) : List Range → List Range × List EntryBody
  | [] => ([], [])
  | r :: rs =>
    if test r then (rs, [abandonEntry r c])
    else (r :: (abandonFirst test c rs).1, (abandonFirst test c rs).2)

/-- A range of positive count, or nothing. -/
def piece (sw : Nat) (f : SeqNo) (n day : Nat) : List Range :=
  if n = 0 then [] else [{ switch := sw, first := f, count := n, day := day }]

/-- The pieces of a range that remain when a run of it is filled, the lower first (R76, R78). -/
def pieces (r : Range) (f : SeqNo) (n : Nat) : List Range :=
  piece r.switch r.first (distance r.first f) r.day
    ++ piece r.switch (f + BitVec.ofNat 32 n) (r.count - distance r.first f - n) r.day

/-- Whether a range is a switch's and holds a number. -/
def rangeHas (sw : Nat) (x : SeqNo) (r : Range) : Bool := r.switch == sw && runHas r.first r.count x

/-- The pieces take the range's place. -/
def splitRange (sw : Nat) (f : SeqNo) (n : Nat) : List Range → List Range
  | [] => []
  | r :: rs => if rangeHas sw f r then pieces r f n ++ rs else r :: splitRange sw f n rs

/-- One FILL entry of the first pass: the run is removed from its range, a split in a full table first abandoning the oldest
range that does not contain the run; a run in no range submits LATE-FILL (R78). -/
def applyFill (sw : Nat) (f : SeqNo) (n : Nat) (gaps : List Range) : List Range × List EntryBody :=
  match gaps.find? (rangeHas sw f) with
  | none => (gaps, [EntryBody.mk0 .lateFill (.switch sw) f.toNat n 0])
  | some r =>
    if (pieces r f n).length = 2 ∧ Config.gapTableMax ≤ gaps.length then
      let a := abandonFirst (fun q => !rangeHas sw f q) .capacity gaps
      (splitRange sw f n a.1, a.2)
    else (splitRange sw f n gaps, [])

/-- One DISPLACE entry of the second pass (R79). -/
def applyDisplace (sw : Nat) (r : SeqNo) (gaps : List Range) : List Range × List EntryBody :=
  abandonFirst (fun q => q.switch == sw && q.first == r) .displaced gaps

/-- One NEW entry of the third pass: a full table first abandons its oldest range, and the new range goes to the newest end
with GAP-OPENED (R79). -/
def applyNew (sw : Nat) (f : SeqNo) (n day : Nat) (gaps : List Range) : List Range × List EntryBody :=
  let a := if Config.gapTableMax ≤ gaps.length then abandonFirst (fun _ => true) .capacity gaps else (gaps, [])
  (a.1 ++ [{ switch := sw, first := f, count := n, day := day }],
   a.2 ++ [EntryBody.mk0 .gapOpened (.switch sw) f.toNat n day])

/-- The three passes of a merge, each in list order, with the entries they submit (R77 to R79). -/
def passFill (sw : Nat) : List GapEntry → List Range → List Range × List EntryBody
  | [], g => (g, [])
  | .fill _ f n :: t, g =>
    let a := applyFill sw f n g
    let b := passFill sw t a.1
    (b.1, a.2 ++ b.2)
  | _ :: t, g => passFill sw t g

def passDisplace (sw : Nat) : List GapEntry → List Range → List Range × List EntryBody
  | [], g => (g, [])
  | .displace r :: t, g =>
    let a := applyDisplace sw r g
    let b := passDisplace sw t a.1
    (b.1, a.2 ++ b.2)
  | _ :: t, g => passDisplace sw t g

def passNew (sw day : Nat) : List GapEntry → List Range → List Range × List EntryBody
  | [], g => (g, [])
  | .new f n :: t, g =>
    let a := applyNew sw f n day g
    let b := passNew sw day t a.1
    (b.1, a.2 ++ b.2)
  | _ :: t, g => passNew sw day t g

def mergeGaps (sw day : Nat) (p : List GapEntry) (g : List Range) : List Range × List EntryBody :=
  let a := passFill sw p g
  let b := passDisplace sw p a.1
  let c := passNew sw day p b.1
  (c.1, a.2 ++ b.2 ++ c.2)

/-- The ranges that a gap horizon leaves, and the entries of those it abandons (R80), oldest first (DESIGN CHOICE, log 30: no rule
orders the GAP-ABANDONED entries of one ADVANCE). -/
def horizonGaps (newDay horizon : Nat) : List Range → List Range × List EntryBody
  | [] => ([], [])
  | r :: rs =>
    let t := horizonGaps newDay horizon rs
    if r.day + horizon < newDay then (t.1, abandonEntry r .horizon :: t.2) else (r :: t.1, t.2)

namespace State

/-- A switch's context in the switch table (R66). -/
def switchCtx (s : State) (n : Nat) : SwitchCtx := dfind SwitchCtx.unseen n s.recon.switches

def setSwitch (n : Nat) (c : SwitchCtx) (s : State) : State :=
  s.onRecon fun r => { r with switches := dput SwitchCtx.unseen n c r.switches }

/-- A switch's ranges, oldest first. -/
def rangesOf (s : State) (n : Nat) : List Range := s.recon.gaps.filter fun r => r.switch == n

/-- A FEEDING switch returns to IDLE (R67). -/
def releaseSwitch (n : Nat) (s : State) : State :=
  let c := s.switchCtx n
  if c.state = .feeding then s.setSwitch n { c with state := .idle } else s

/-- Entries submitted one after another. -/
def postEach (who : Producer) : List EntryBody → State → State
  | [], s => s
  | e :: es, s => postEach who es (s.post who [e])

/-- The abandonment of an ADVANCE to a new day (R80): the ranges abandoned are counted by the caller. -/
def abandonHorizon (newDay : Nat) (s : State) : State :=
  let h := horizonGaps newDay s.ret.gapHorizon s.recon.gaps
  postEach .block h.2 (s.onRecon fun r => { r with gaps := h.1 })

end State

end Sys2Proof.Machine
end

