-- ==== Sys2Proof/Machine/Staging.lean ====
section
/-! DEFINITION. The staging pool (R52 to R55, R57, R60): pages, places, and which stream keys are ready for coding (R104). -/

namespace Sys2Proof.Machine

/-- The places the coder may take from a page: HELD, below the committed prefix (R104). -/
def Page.available (p : Page) : List Nat :=
  (p.places.take p.committed).zipIdx.filterMap fun x => if x.1.standing = .held then some x.2 else none

/-- Whether a page has become FREE: SEALED, without an owner, every written place RELEASED (R55, R59, R60). -/
def Page.done (p : Page) : Bool := p.sealedUp && p.owner.isNone && p.places.all fun x => x.standing == .released

/-- The place at an index takes a standing. -/
def setStanding (st : Standing) : Nat → List Place → List Place
  | _, [] => []
  | 0, x :: xs => { x with standing := st } :: xs
  | n + 1, x :: xs => x :: setStanding st n xs

namespace State

def onPages (f : List Page → List Page) (s : State) : State := s.onPool fun p => { p with pages := f p.pages }

/-- A page, by its staging serial, changed. -/
def onPage (serial : Nat) (f : Page → Page) (s : State) : State :=
  s.onPages fun ps => ps.map fun p => if p.serial = serial then f p else p

def page? (s : State) (serial : Nat) : Option Page := s.pool.pages.find? fun p => p.serial == serial

/-- Pages that have become FREE leave the list of pages in use. -/
def freePages (s : State) : State := s.onPages fun ps => ps.filter fun p => !p.done

/-- Whether the pool has a FREE page (R54). -/
def poolHasPage (s : State) : Bool := decide (s.pool.pages.length < Config.poolPages)

/-- A place takes a standing; places take standings in turn. -/
def setPlace (st : Standing) (id : PlaceId) (s : State) : State :=
  s.onPage id.1 fun p => { p with places := setStanding st id.2 p.places }
def setPlaces (st : Standing) : List PlaceId → State → State
  | [], s => s
  | id :: ids, s => setPlaces st ids (s.setPlace st id)

/-- The record at a place. -/
def recordAt (s : State) (id : PlaceId) : Option Rec :=
  (s.page? id.1).bind fun p => (p.places[id.2]?).map Place.data

/-! ## Placing (R53) -/

/-- A channel's OPEN page for a group. -/
def openPage (s : State) (c : ChanNo) (g : Nat) : Option Page :=
  s.pool.pages.find? fun p => p.owner == some c && !p.sealedUp && p.key.group == g

/-- A record written into a page's next place; a page of 1,024 places is SEALED. -/
def writePlace (serial : Nat) (r : Rec) (s : State) : State :=
  s.onPage serial fun p =>
    { p with places := p.places ++ [{ data := r, standing := .held }],
             sealedUp := p.sealedUp || decide (Config.pageRecords ≤ p.places.length + 1) }

/-- A page opened for a channel with the next serial: the counter's value, which then gains 1, so that the first page of a counter
at 0 has serial 0 (DESIGN CHOICE, log 40: R52 leaves open whether that page takes 0 or 1). -/
def newPage (c : ChanNo) (k : StreamKey) (s : State) : State :=
  s.onPool fun p => { pages := p.pages ++ [{ key := k, owner := some c, serial := p.serial, sealedUp := false, committed := 0,
                                             places := [] }], serial := p.serial + 1 }

/-- A record placed in the channel's OPEN page of its group, or in a page opened for it; none when it must stall. -/
def placeRecord (c : ChanNo) (k : StreamKey) (r : Rec) (s : State) : Option State :=
  match s.openPage c k.group with
  | some p => some (s.writePlace p.serial r)
  | none => if s.poolHasPage then some ((s.newPage c k).writePlace s.pool.serial r) else none

/-! ## Commit, end and abort of a channel's pages -/

/-- Step 2 of R57: every page of the channel commits what is written, and a SEALED one loses its owner. -/
def commitPages (c : ChanNo) (s : State) : State :=
  (s.onPages fun ps => ps.map fun p =>
    if p.owner = some c then { p with committed := p.places.length, owner := if p.sealedUp then none else p.owner }
    else p).freePages

/-- Step 2 of R59: the channel lets go of every page, each SEALED. -/
def letGoPages (c : ChanNo) (s : State) : State :=
  (s.onPages fun ps => ps.map fun p =>
    if p.owner = some c then { p with sealedUp := true, owner := none } else p).freePages

/-- A page cut back to its committed prefix, SEALED, without an owner. -/
def cutPage (p : Page) : Page := { p with places := p.places.take p.committed, sealedUp := true, owner := none }

/-- Step 1 of R60: every page of the channel is cut back. -/
def cutPages (c : ChanNo) (s : State) : State :=
  (s.onPages fun ps => ps.map fun p => if p.owner = some c then cutPage p else p).freePages

/-! ## Readiness (R104) -/

/-- Whether a feed channel is bound to a switch (R44). -/
def switchBound (s : State) (n : Nat) : Bool :=
  (indices 8).any fun c =>
    match (bget s.feed.chans c).file with
    | some f => f.bound && f.switch == n
    | none => false

/-- A key's available places, in staging order. -/
def availableOf (s : State) (k : StreamKey) : List PlaceId :=
  s.pool.pages.flatMap fun p => if p.key = k then p.available.map fun i => (p.serial, i) else []

/-- Whether a key is ready for coding. -/
def keyReady (s : State) (k : StreamKey) : Bool :=
  decide (0 < (s.availableOf k).length)
    && (decide (Config.blockRecords ≤ (s.availableOf k).length) || !s.switchBound k.switch)
    && !((tfind k.code s.cat.dir).map DirEntry.limited).getD false

/-- The ready key whose oldest available place lies in the page with the lowest serial (R105). -/
def readyKey (s : State) : Option StreamKey :=
  (s.pool.pages.find? fun p => !p.available.isEmpty && s.keyReady p.key).map Page.key

end State

end Sys2Proof.Machine
end

