-- ==== Sys2Proof/Machine/Coder.lean ====
section
/-! DEFINITION. The coder (R102 to R105, R113 to R121): selecting a block, asking the catalog for a segment, placing a coded
block, and the completion of a store. -/

namespace Sys2Proof.Machine

namespace State

/-! ## The two buffers (R103) -/

def setBuffer (i : Fin 2) (b : Buffer) (s : State) : State := s.onCoder fun c => { c with buffers := bset c.buffers i b }

/-- The block in hand: its buffer, key and places. -/
def inHand (s : State) : Option (Fin 2 × StreamKey × List PlaceId) :=
  match bget s.coder.buffers 0 with
  | .forming k ps => some (0, k, ps)
  | _ =>
    match bget s.coder.buffers 1 with
    | .forming k ps => some (1, k, ps)
    | _ => none

/-- The lower-numbered FREE buffer (R105). -/
def freeBuffer (s : State) : Option (Fin 2) :=
  if bget s.coder.buffers 0 = .free then some 0 else if bget s.coder.buffers 1 = .free then some 1 else none

/-! ## Selection and the open request (R105, R113, R26, R117) -/

/-- The coder asks the catalog to open a segment for a key and is WAITING-EXTENT. -/
def askOpen (k : StreamKey) (s : State) : State :=
  (s.onCat fun c => { c with openReq := some { key := k, arrived := false } }).onCoder
    fun c => { c with state := .waitingExtent, target := none }

/-- A block selected: its places go IN-FLIGHT, the buffer is FORMING, and the key's FILLING segment is the target, or an open
is asked for. -/
def selectBlock (i : Fin 2) (k : StreamKey) (s : State) : State :=
  let places := (s.availableOf k).take Config.blockRecords
  let t := (s.setPlaces .inFlight places).setBuffer i (.forming k places)
  match t.fillingOf k with
  | some n => t.onCoder fun c => { c with state := .coding, target := some n }
  | none => t.askOpen k

/-- An open refused with STREAM-LIMIT: the places of the block in hand return to HELD and its buffer becomes FREE (R117). -/
def openRefused (k : StreamKey) (s : State) : State :=
  let t := (s.refuseOpen k).onCat fun c => { c with openReq := none }
  match t.inHand with
  | some (i, _, places) => (t.setPlaces .held places).setBuffer i .free
  | none => t

/-- The next thing the coder and the catalog do without a further event: the arrival stage of the open request when the key's
highest part has no store in flight, or the selection of a block (R26, R105). -/
def coderNext (s : State) : Option State :=
  match s.cat.openReq with
  | some r =>
    if r.arrived || s.partBusy r.key then none
    else if s.atPartLimit r.key then some (s.openRefused r.key)
    else some (s.onCat fun c => { c with openReq := some { r with arrived := true } })
  | none =>
    match s.inHand with
    | some _ => none
    | none =>
      match s.freeBuffer, s.readyKey with
      | some i, some k => some (s.selectBlock i k)
      | _, _ => none

/-- The state of a coder with no block in hand and nothing to select (R102). -/
def restCoder (s : State) : State :=
  if s.inHand.isSome then s
  else s.onCoder fun c => { c with state := if s.freeBuffer.isSome then .idle else .waitingLane, target := none }

def coderLoop : Nat → State → State
  | 0, s => s
  | fuel + 1, s =>
    match s.coderNext with
    | some t => coderLoop fuel t
    | none => s.restCoder

/-- The coder goes as far as it can: each key refused costs two turns, and there are no more keys than pages. While RECOVERING it
selects nothing, since its first selection is the last restoration's (R121, R197). -/
def runCoder (s : State) : State :=
  if s.engine = .recovering then s else coderLoop (2 * s.pool.pages.length + 4) s

/-! ## A store's completion (R29, R30, R118, R119) -/

/-- A store of a buffer has completed: appended and its places RELEASED, or its places HELD again; the buffer is FREE. -/
def storeDone (i : Fin 2) (ok : Bool) (s : State) : State :=
  match bget s.coder.buffers i with
  | .inFlight seg offset places first last bytes =>
    let s1 := s.storeEnds seg
    let fits :=
      match s1.live? seg with
      | some (_, g) => g.bytes == offset
      | none => false
    let s2 :=
      if ok then (if fits then s1.appendBlock seg places.length first last bytes else s1)
      else s1.storeError seg offset places.length
    ((s2.setPlaces (if ok && fits then .released else .held) places).setBuffer i .free).freePages
  | _ => s

/-! ## Coding and placing (R114, R116) -/

/-- The records of a block in hand. -/
def recordsAt (s : State) (places : List PlaceId) : List Rec := places.filterMap s.recordAt

/-- A block placed in its target: it takes the reserve mark as offset, the reserve mark and the stores in flight rise, and a
store goes to the target's lane; on an OFFLINE lane it fails at once (R28, R114, R134), before the coder selects again, so that its
places are there to be selected (DESIGN CHOICE, log 13: R105 has a selection at the placement and at the store's completion, and no
rule orders the two here). -/
def placeBlock (i : Fin 2) (n offset : Nat) (places : List PlaceId) (recs : List Rec) (bytes : List Byte) (s : State) : State :=
  let first := (recs.head?.map Rec.seq).getD 0
  let last := (recs.getLast?.map Rec.seq).getD 0
  let t := ((s.reservePlace n bytes.length).setBuffer i (.inFlight n offset places first last bytes)).onCoder
    fun c => { c with target := none }
  if t.isOnline (laneOf n) then t.enqueueFore (laneOf n) (.store n offset i bytes) else t.storeDone i false

/-- The bytes of the block in hand, coded against its target's bound edition. -/
def codedBytes (s : State) (g : Segment) (places : List PlaceId) : List Byte :=
  encodeBlock (s.editionOf g.edition) g.edition (s.recordsAt places)

/-- The coding of the block in hand completes: it is placed, or its target is closed FULL and an open asked for, or an open is
asked for because the target is no longer FILLING (R114). -/
def codingDone (s : State) : State :=
  match s.inHand, s.coder.target with
  | some (i, k, places), some n =>
    match s.live? n with
    | some (.filling, g) =>
      let bytes := s.codedBytes g places
      if g.reserve + bytes.length ≤ Config.extentBytes then s.placeBlock i n g.reserve places (s.recordsAt places) bytes
      else (s.closeSegment .full n).askOpen k
    | _ => s.askOpen k
  | _, _ => s

/-- The waiting open request is granted an extent: the rotation pointer moves on, the open limit is kept, and the extent opens
as the block's target (R25 to R27, R116). The grant is a command of its own, SEGMENT_OPEN, and any other command can come between
the extent's becoming FREE, or the request's arrival, and the grant (DESIGN CHOICE, log 12: R25 grants as soon as an extent becomes
FREE, and the table gives the grant a row of its own). -/
def openGranted (s : State) : State :=
  match s.cat.openReq with
  | some r =>
    if r.arrived then
      match s.grantExtent with
      | some (l, n) =>
        let s1 := (s.onCat fun c => { c with rotation := l + 1 }).openLimit
        ((s1.openAt n r.key).onCat fun c => { c with openReq := none }).onCoder
          fun c => { c with state := .coding, target := some n }
      | none => s
    else s
  | none => s

end State

end Sys2Proof.Machine
end

