-- ==== Sys2Proof/Machine/Feed.lean ====
section
/-! DEFINITION. The feed unit: taking a slip (R43), the landing ring and its marks (R45 to R48), judging a header (R3 to R5, R49,
R50) and a record (R8 to R13, R51), stalls (R54), commit points (R56, R57), the end of a file (R58, R59) and an abort (R60 to
R62). -/

namespace Sys2Proof.Machine

/-! ## What the host and the journal see of a file (R63) -/

/-- The values of an INGEST answer. -/
def ingestValues (drained : Nat) (a : Account) : List Byte :=
  leBytes 8 drained ++ unsignedField 4 a.counts.seen ++ unsignedField 4 a.counts.accepted
    ++ unsignedField 4 a.counts.rejected ++ unsignedField 4 a.counts.duplicates ++ signedField a.countBal
    ++ leBytes 8 a.chargeBal.toNat

/-- The FILE-CLOSED pair. -/
def closedPair (sw : Nat) (a : Account) (filled : Nat) : List EntryBody :=
  [EntryBody.mk0 .fileClosed (.switch sw) a.counts.seen a.counts.accepted a.counts.rejected,
   EntryBody.mk0 .fileClosed (.switch sw) a.counts.duplicates a.counts.clamped filled]

/-- The FILE-ABORTED pair, with the committed copy. -/
def abortedPair (sw : Nat) (a : Account) (cause : AbortCause) : List EntryBody :=
  [EntryBody.mk0 .fileAborted (.switch sw) a.counts.seen a.counts.accepted a.counts.rejected,
   EntryBody.mk0 .fileAborted (.switch sw) a.counts.duplicates a.counts.clamped cause.code]

/-- SEQUENCE-RESTART, for a restart count that is not 0 (R72). -/
def restartEntries (sw restarts : Nat) (e : Option SeqNo) : List EntryBody :=
  if restarts = 0 then [] else [EntryBody.mk0 .sequenceRestart (.switch sw) restarts ((e.map BitVec.toNat).getD 0) 0]

/-- BALANCE-MISMATCH, for balances that are not both 0 (R81). -/
def balanceEntries (sw day : Nat) (a : Account) : List EntryBody :=
  if a.countBal = 0 ∧ a.chargeBal = 0 then []
  else [EntryBody.mk0 .balanceMismatch (.switch sw) a.countBal a.chargeBal.toNat day]

/-- TRAILING-BYTES, for a fragment that is not empty (R1). -/
def trailingEntries (sw trailing : Nat) : List EntryBody :=
  if trailing = 0 then [] else [EntryBody.mk0 .trailingBytes (.switch sw) trailing 0 0]

/-! ## Judging a record (R7, R9, R10) -/

/-- The effective length of a number (R7). -/
def effectiveLength (n : Nat) : Nat := min n 18

/-- The digits of a number: its first places up to the effective length (R7). -/
def effectiveDigits (len : Nat) (places : List Nat) : List Nat := places.take (effectiveLength len)

/-- A seen record is rejected (R9). -/
def Raw.rejected (r : Raw) : Bool :=
  r.marker != Config.recordMarker || decide (7 < r.cls) || decide (863999 < r.start)
    || (effectiveDigits r.callingLen r.callingDigits).any (fun d => decide (11 < d))
    || (effectiveDigits r.calledLen r.calledDigits).any (fun d => decide (11 < d))

/-- A record that is not rejected is clamped (R10). -/
def Raw.clamped (r : Raw) : Bool := decide (16777215 < r.duration ∨ 18 < r.callingLen ∨ 18 < r.calledLen)

/-- The record with the corrections of R10. -/
def Raw.corrected (r : Raw) : Rec :=
  { cls := r.cls, cause := r.cause, seq := r.seq, start := r.start, duration := min r.duration 16777215, route := r.route,
    site := r.site, charge := r.charge, calling := effectiveDigits r.callingLen r.callingDigits,
    called := effectiveDigits r.calledLen r.calledDigits }

/-! ## The file register (R5) -/

/-- Whether a header is a repeat, by the register of the working context. -/
def isRepeat (register : Option (Nat × Nat)) (day file : Nat) : Bool :=
  match register with
  | none => false
  | some (r0, f0) => decide (file ≠ 0 ∧ day = r0 ∧ file ≤ f0)

/-- The register afterwards. -/
def nextRegister (register : Option (Nat × Nat)) (day file : Nat) : Option (Nat × Nat) :=
  if file = 0 then register
  else
    match register with
    | none => some (day, file)
    | some (r0, f0) => if r0 < day ∨ (day = r0 ∧ f0 < file) then some (day, file) else some (r0, f0)

/-! ## The ring's marks (R47) -/

/-- A read of the filled mark and final fields is a ring fault. -/
def marksFault (ch : Channel) (m : RingMarks) : Bool :=
  decide (m.filled < ch.filledSeen) || decide (ch.drained + ch.ringSize < m.filled)
    || (m.final && decide (m.total < ch.filledSeen ∨ m.total < m.filled))
    || (match ch.finalTotal with
        | some t => !m.final || m.total != t
        | none => false)

/-- The channel with the values read (R46). -/
def Channel.takeMarks (m : RingMarks) (ch : Channel) : Channel :=
  { ch with filledSeen := m.filled, finalTotal := ch.finalTotal.orElse fun _ => if m.final then some m.total else none }

namespace State

def chan (s : State) (c : ChanNo) : Channel := bget s.feed.chans c

/-- The change of the file that a channel reads. -/
def onFile (c : ChanNo) (f : File → File) (s : State) : State := s.onChan c fun ch => { ch with file := ch.file.map f }

def onAccount (c : ChanNo) (f : Account → Account) (s : State) : State :=
  s.onFile c fun x => { x with account := f x.account }

def onCounts (c : ChanNo) (f : Counts → Counts) (s : State) : State :=
  s.onAccount c fun a => { a with counts := f a.counts }

/-- The committed copy of a channel's counts (R14, R50). -/
def committed (s : State) (c : ChanNo) : Account :=
  (((bget s.feed.bindings c).bind Binding.file).map Prod.snd).getD Account.zero

/-- The lowest-numbered FREE channel (R43). -/
def freeChan (s : State) : Option ChanNo := (indices 8).find? fun c => (s.chan c).state == .free

/-- Any channel is open (R44). -/
def anyOpen (s : State) : Bool := (indices 8).any fun c => (s.chan c).state != .free

/-- The drained mark written into the slip's answer area (R48). -/
def writeDrained (c : ChanNo) (s : State) : State :=
  match (s.chan c).slip with
  | some i => s.hostWrite (s.answerAt i + 4) (leBytes 8 (s.chan c).drained)
  | none => s

/-- A rise of the drained mark (R48). -/
def raiseDrained (c : ChanNo) (d : Nat) (s : State) : State := (s.onChan c fun ch => { ch with drained := d }).writeDrained c

/-- The host address of a byte of the file in the ring (R45). -/
def ringAt (s : State) (c : ChanNo) (m : Nat) : Nat := (s.chan c).ringBase + m % (s.chan c).ringSize

/-- A channel returns to FREE; nothing of its file is kept. -/
def freeTheChan (c : ChanNo) (s : State) : State := (s.onChan c fun _ => Channel.idle).setBinding c none

/-- A channel that has no file ends with an answer, the drained mark and zeros (R43, R46, R49, R61). -/
def endNoFile (c : ChanNo) (st : Status) (s : State) : State :=
  (s.answer (s.chan c).slip st (leBytes 8 (s.chan c).drained)).freeTheChan c

/-! ## The end test and the states of a file (R58) -/

/-- A channel in RUNNING whose final total leaves fewer than 64 bytes enters ENDING; the trailing fragment is drained unread. A
channel that owes a commit point, or waits for an entry, does so when that is over (R50, R56). -/
def testEnd (c : ChanNo) (s : State) : State :=
  let ch := s.chan c
  match ch.file, ch.finalTotal with
  | some f, some total =>
    if ch.state = .running ∧ ch.closing = .none ∧ f.commitDue = false ∧ s.waits (.chan c) = false ∧
        total < ch.drained + 64 then
      let t := s.onChan c fun x =>
        { x with state := .ending, file := some { f with trailing := total - ch.drained } }
      if total - ch.drained = 0 then t else t.raiseDrained c total
    else s
  | _, _ => s

/-- A record is finished: a commit point at every 1,024 records seen, and otherwise the end test (R51, R56, R58). -/
def recordFinished (c : ChanNo) (s : State) : State :=
  match (s.chan c).file with
  | some f =>
    if f.account.counts.seen % Config.pageRecords = 0 then s.onFile c fun x => { x with commitDue := true } else s.testEnd c
  | none => s

/-- The stream key of a channel's record (R11). -/
def fileKey (f : File) (g : Nat) : StreamKey := { switch := f.switch, day := f.day, group := g }

/-- A channel leaves the order of stalled channels (R54). -/
def leaveStalled (c : ChanNo) (s : State) : State := s.onFeed fun f => { f with stalled := f.stalled.filter fun x => x != c }

/-! ## A page for a stalled channel (R54) -/

/-- The channel that has waited longest opens a FREE page, writes the record it holds and returns to RUNNING. -/
def resumeOne (c : ChanNo) (s : State) : State :=
  match (s.chan c).file with
  | some f =>
    match f.held with
    | some (r, g) =>
      match s.placeRecord c (fileKey f g) r with
      | some t =>
        ((t.onChan c fun ch => { ch with state := .running, file := some { f with held := none } }).leaveStalled c).recordFinished c
      | none => s
    | none => s.leaveStalled c
  | none => s.leaveStalled c

def resumeAll : List ChanNo → State → State
  | [], s => s
  | c :: cs, s => if s.poolHasPage then resumeAll cs (s.resumeOne c) else s

/-- FREE pages go to the stalled channels, the longest waiting first (R54). -/
def resumeStalled (s : State) : State := resumeAll s.feed.stalled s

/-! ## The end of a channel's file -/

/-- A channel whose closing entries have been taken answers, or not, and returns to FREE (R59 steps 5 and 6, R60 step 6). -/
def chanDone (c : ChanNo) (s : State) : State :=
  let t :=
    match (s.chan c).closing with
    | .answer st values => s.answer (s.chan c).slip st values
    | _ => s.noAnswer (s.chan c).slip
  t.freeTheChan c

/-- The closing entries of a file: what comes before the pair, the pair, whose taking clears the binding, and what follows it; when
the last is taken, the channel is done (R59 step 4, R60 step 5). -/
def submitClosing (c : ChanNo) (before pair later : List EntryBody) (s : State) : State :=
  let first := (s.submitAll (.chan c) [] before).1.submit
    { entries := pair, who := .chan c, acts := .clearBinding c :: if later.isEmpty then [.chanDone c] else [] }
  let s1 := if first.2 then first.1.setBinding c none else first.1
  if later.isEmpty then (if first.2 then s1.chanDone c else s1)
  else
    let r := submitAll (.chan c) [.chanDone c] later s1
    if r.2 then r.1.chanDone c else r.1

/-! ## An abort (R60, R61) -/

/-- An abort of a file in HEADER, RUNNING or STALLED (R60, R61): `answer` is none where the slip is released without one. The
pages it frees go to stalled channels at once (R54). A channel that is already closing is left to its entries. Two points that R56
and R60, and R60 and R105, leave open (DESIGN CHOICE, logs 11 and 13): an abort that comes when the 1,024th record of an interval is
finished and COMMIT_POINT has not yet come makes no commit point, and drops the interval even where that record was the file's last;
and the selection that the unbinding allows comes after the closing entries. -/
def abort (c : ChanNo) (cause : AbortCause) (answer : Option Status) (s : State) : State :=
  if (s.chan c).closing ≠ .none then s
  else
    match (s.chan c).file with
    | none =>
      match answer with
      | some st => s.endNoFile c st
      | none => (s.noAnswer (s.chan c).slip).freeTheChan c
    | some f =>
      let a := s.committed c
      let s1 := ((s.leaveStalled c).cutPages c).resumeStalled
      let s2 := (s1.onChan c fun ch =>
        { ch with file := some { f with bound := false, held := none, pendingGaps := [] },
                  closing := match answer with
                    | some st => .answer st (ingestValues ch.drained a)
                    | none => .silent }).releaseSwitch f.switch
      (s2.submitClosing c [] (abortedPair f.switch a cause)
        (restartEntries f.switch a.restarts (s2.switchCtx f.switch).expected)).runCoder

/-- A ring fault (R45, R47). -/
def ringFault (c : ChanNo) (s : State) : State := s.abort c .ringFault (some .ringFault)

/-! ## Going on from a wait (R50, R59) -/

/-- Steps 2 to 4 of R59, after the final commit point: the pages are let go, the switch is released, and the closing entries are
submitted. The selection that the unbinding of step 3 allows, and a STREAM-LIMIT entry that it submits, come after those entries
(DESIGN CHOICE, log 13: R59 and R105 give the two no order). -/
def closeOn (c : ChanNo) (s : State) : State :=
  match (s.chan c).file with
  | none => s
  | some f =>
    let s1 := (s.letGoPages c).resumeStalled
    let s2 := (s1.onChan c fun ch =>
      { ch with file := ch.file.map fun x => { x with bound := false },
                closing := .answer .done (ingestValues ch.drained f.account) }).releaseSwitch f.switch
    (s2.submitClosing c (trailingEntries f.switch f.trailing) (closedPair f.switch f.account f.filled)
      (restartEntries f.switch f.account.restarts f.work.expected ++ balanceEntries f.switch f.day f.account)).runCoder

/-- A channel whose entries have all been taken goes on: from HEADER to RUNNING (R50), in RUNNING with the end test (R58), and
after its final commit point with the rest of R59. -/
def chanOn (c : ChanNo) (s : State) : State :=
  match (s.chan c).closing, (s.chan c).state with
  | .committed, _ => s.closeOn c
  | .none, .header => (s.onChan c fun ch => { ch with state := .running }).testEnd c
  | .none, .running => s.testEnd c
  | _, _ => s

/-- Entries that a channel submits; it goes on at once when all have been taken, and otherwise with the last of them. -/
def submitAndGoOn (c : ChanNo) (entries : List EntryBody) (s : State) : State :=
  let r := submitAll (.chan c) [.chanOn c] entries s
  if r.2 then r.1.chanOn c else r.1

/-! ## Taking a slip (R43, R46) -/

/-- The values of a read of the filled mark and final fields are tested and taken (R46, R47). -/
def applyMarks (c : ChanNo) (m : RingMarks) (s : State) : State :=
  if marksFault (s.chan c) m then s.ringFault c
  else
    let t := s.onChan c (Channel.takeMarks m)
    let ch := t.chan c
    match ch.finalTotal with
    | some total => if ch.file.isNone && decide (total < 64) then t.endNoFile c .badHeader else t.testEnd c
    | none => t

/-- The ring's shape is refused (R43). -/
def badRing (base size : Nat) : Bool :=
  decide (base % 64 ≠ 0 ∨ size % 64 ≠ 0 ∨ size < 4096 ∨ 67108864 < size)

/-- A FREE channel takes the first slip of the admission list (R43). The taking is a command of its own, INGEST, and any other command
can come between the event that leaves a FREE channel and a waiting slip and the taking (DESIGN CHOICE, log 12: R43 has the slip taken
at that event, and the table gives the taking a row of its own). -/
def takeSlip (s : State) : State :=
  match s.freeChan, s.desk.list with
  | some c, a :: rest =>
    let p := s.readParams .ingest a.slip
    let s1 := s.onDesk fun d => { d with list := rest }
    if badRing (field p 0 8) (field p 8 4) then s1.answer (some a.slip) .range []
    else
      let s2 := (s1.onChan c fun _ =>
        { Channel.idle with state := .header, slip := some a.slip, ringBase := field p 0 8, ringSize := field p 8 4 }).setBinding c
          (some { slip := some a.slip, file := none })
      s2.applyMarks c (readMarks p)
  | _, _ => s

/-- A sweep re-reads the filled mark and final fields of a channel in HEADER, RUNNING or STALLED; when the read fails the
channel keeps what it holds (R45, R46). -/
def rereadMarks (c : ChanNo) (i : SlipNo) (s : State) : State :=
  if (s.chan c).closing ≠ .none then s
  else if s.readFails (s.paramsAt i + 16) 8 || s.readFails (s.paramsAt i + 24) 1 || s.readFails (s.paramsAt i + 32) 8 then s
  else s.applyMarks c (readMarks (s.hostBytes (s.paramsAt i) 56))

/-! ## The header (R49, R50) -/

/-- The five tests of a header (R3, R4). -/
def headerRefusal (s : State) (h : Header) : Option Status :=
  if h.marker ≠ Config.headerMarker ∨ h.version ≠ 1 then some .badHeader
  else if 1023 < h.switch then some .badSwitch
  else if 2 ^ 31 ≤ h.declared then some .badHeader
  else if s.ret.day + 1 < h.day then some .futureDay
  else if s.switchBound h.switch then some .streamBusy
  else none

/-- The working context of a file (R50, R67, R5). -/
def workingContext (s : State) (h : Header) : SwitchCtx :=
  let x := s.switchCtx h.switch
  { x with state := .feeding,
           highDay := some (match x.highDay with
             | some d => max d h.day
             | none => h.day),
           register := nextRegister x.register h.day h.file }

/-- LATE-FILE and REPEAT-FILE, where they are called for (R4, R5). -/
def headerEntries (s : State) (h : Header) : List EntryBody :=
  (if h.day + s.ret.lateWindow < s.ret.day then
      [EntryBody.mk0 .lateFile (.switch h.switch) h.day h.file s.ret.day] else [])
    ++ (if isRepeat (s.switchCtx h.switch).register h.day h.file then
      [EntryBody.mk0 .repeatFile (.switch h.switch) h.day h.file 0] else [])

/-- The account that a file starts with (R50). -/
def startAccount (h : Header) : Account :=
  { Account.zero with countBal := -(h.declared : Int), chargeBal := -(BitVec.ofNat 64 h.charges) }

/-- An accepted header (R50). -/
def acceptHeader (c : ChanNo) (h : Header) (s : State) : State :=
  let file : File :=
    { switch := h.switch, bound := true, day := h.day, work := s.workingContext h, pendingGaps := [],
      account := startAccount h, filled := 0, commitDue := false, held := none, trailing := 0 }
  let s1 := (((s.onChan c fun ch => { ch with file := some file }).setSwitch h.switch
    { s.switchCtx h.switch with state := .feeding })).setBinding c
      (some { slip := (s.chan c).slip, file := some (h.switch, startAccount h) })
  s1.submitAndGoOn c (s.headerEntries h)

/-- A channel in HEADER that has not accepted a header can take one (R49). -/
def headerReady (s : State) (c : ChanNo) : Bool :=
  (s.chan c).state == .header && (s.chan c).file.isNone && decide (64 ≤ (s.chan c).filledSeen)

/-- The header is taken and judged (R49). A bus read that fails aborts before the drained mark rises (DESIGN CHOICE, log 29). -/
def takeHeader (c : ChanNo) (s : State) : State :=
  if !s.headerReady c then s
  else if s.readFails (s.ringAt c 0) 64 then s.ringFault c
  else
    let h := readHeader (s.hostBytes (s.ringAt c 0) 64)
    let t := s.raiseDrained c 64
    match t.headerRefusal h with
    | some st => t.endNoFile c st
    | none => t.acceptHeader c h

/-! ## Records (R51) -/

/-- An accepted record goes to staging, or its channel stalls with it (R53, R54). -/
def stageRecord (c : ChanNo) (f : File) (r : Rec) (g : Nat) (s : State) : State :=
  match s.placeRecord c (fileKey f g) r with
  | some t => t.recordFinished c
  | none =>
    ((s.onChan c fun ch => { ch with state := .stalled, file := ch.file.map fun x => { x with held := some (r, g) } }).onFeed
      fun x => { x with stalled := x.stalled ++ [c] }).notice .stalls

/-- The verdict of the sequence classification is counted and acted on (R13, R68, R72, R87). -/
def countVerdict (c : ChanNo) (f : File) (j : Judged) (r : Rec) (g : Nat) (s : State) : State :=
  let s1 := s.onFile c fun x => { x with work := { x.work with expected := j.expected }, pendingGaps := j.gaps }
  match j.verdict with
  | .duplicate => (s1.onCounts c fun x => { x with duplicates := x.duplicates + 1 }).recordFinished c
  | .accepted =>
    let s2 := s1.onFile c fun x =>
      { x with filled := x.filled + (if j.fill then 1 else 0),
               account := { x.account with
                 counts := { x.account.counts with accepted := x.account.counts.accepted + 1 },
                 restarts := x.account.restarts + (if j.restart then 1 else 0) } }
    (s2.onEds (Editions.count r)).stageRecord c f r g

/-- A record that has a group and is not expired is classified; a list that would overflow aborts the file (R68, R75). -/
def classifyRecord (c : ChanNo) (f : File) (r : Rec) (g : Nat) (s : State) : State :=
  let j := classify (s.rangesOf f.switch) f.work.expected f.pendingGaps r.seq
  if Config.pendingMax < j.gaps.length then s.abort c .gapOverflow (some .gapOverflow) else s.countVerdict c f j r g

/-- The retention group of a class (R11). -/
def groupOf (s : State) (cls : Nat) : Nat := if h : cls < 8 then (bget s.ret.classMap ⟨cls, h⟩).val else 0

/-- Expired on arrival (R12). -/
def expiredOnArrival (s : State) (k : StreamKey) : Bool := decide (s.expiryDay k ≤ s.ret.day)

/-- A record is seen (R8). -/
def seeRecord (c : ChanNo) (charge : Nat) (s : State) : State :=
  s.onAccount c fun a =>
    { a with counts := { a.counts with seen := a.counts.seen + 1 }, countBal := a.countBal + 1,
             chargeBal := a.chargeBal + BitVec.ofNat 64 charge }

/-- The judgement of one record (R8 to R13). -/
def judgeRecord (c : ChanNo) (raw : Raw) (s : State) : State :=
  let s1 := s.seeRecord c raw.charge
  if raw.rejected then (s1.onCounts c fun x => { x with rejected := x.rejected + 1 }).recordFinished c
  else
    let s2 := if raw.clamped then s1.onCounts c fun x => { x with clamped := x.clamped + 1 } else s1
    match (s2.chan c).file with
    | none => s2
    | some f =>
      let g := s2.groupOf raw.cls
      if s2.expiredOnArrival (fileKey f g) then
        (s2.onCounts c fun x => { x with expired := x.expired + 1 }).recordFinished c
      else s2.classifyRecord c f raw.corrected g

/-- A channel in RUNNING can take its next record: it is not closing, owes no commit point and waits for no entry, and the 64
bytes lie below the filled mark seen (R51). -/
def recordReady (s : State) (c : ChanNo) : Bool :=
  (s.chan c).state == .running && (s.chan c).closing == .none
    && !(((s.chan c).file.map File.commitDue).getD true) && !s.waits (.chan c)
    && decide ((s.chan c).drained + 64 ≤ (s.chan c).filledSeen)

/-- The next record is taken and judged (R51); a failed bus read of the ring aborts the file (R45). The record has then not been
taken, and the drained mark stays (DESIGN CHOICE, log 29). -/
def takeRecord (c : ChanNo) (s : State) : State :=
  if !s.recordReady c then s
  else
    let a := s.ringAt c (s.chan c).drained
    if s.readFails a 64 then s.ringFault c
    else (s.raiseDrained c ((s.chan c).drained + 64)).judgeRecord c (readRecord (s.hostBytes a 64))

/-! ## Commit points (R57) -/

/-- Step 1: the merge (R77 to R79). The totals rise without a bound, where R66 gives them 64 bits and says nothing of what lies past
2⁶⁴ − 1 (DESIGN CHOICE, log 38). -/
def mergeFile (c : ChanNo) (f : File) (s : State) : State × Bool :=
  let a := s.committed c
  let x := s.switchCtx f.switch
  let merged : SwitchCtx :=
    { x with expected := f.work.expected, highDay := f.work.highDay, register := f.work.register,
             accepted := x.accepted + (f.account.counts.accepted - a.counts.accepted),
             duplicates := x.duplicates + (f.account.counts.duplicates - a.counts.duplicates) }
  let g := mergeGaps f.switch s.ret.day f.pendingGaps s.recon.gaps
  let s1 := (s.setSwitch f.switch merged).onRecon fun r => { r with gaps := g.1 }
  submitAll (.chan c) [.chanOn c] g.2 (s1.onFile c fun y => { y with work := merged, pendingGaps := [] })

/-- The three steps of a commit point, as one event; the flag says that all entries of the merge have been taken. -/
def commit (c : ChanNo) (f : File) (s : State) : State × Bool :=
  let m := s.mergeFile c f
  ((m.1.commitPages c).setBinding c (some { slip := (s.chan c).slip, file := some (f.switch, f.account) }), m.2)

/-- The commit point of an interval, after which a channel tests for the end of the file (R56 to R58). -/
def commitInterval (c : ChanNo) (f : File) (s : State) : State :=
  let m := s.commit c f
  let t := m.1.onFile c fun x => { x with commitDue := false }
  if m.2 then t.chanOn c else t

/-- The final commit point of a file in ENDING (R59 step 1): the pages it frees go to stalled channels (R54), and the coder may
select while the switch is still bound (R105). The rest of R59 follows when the merge's entries have been taken (R50). -/
def commitLast (c : ChanNo) (f : File) (s : State) : State :=
  let m := s.commit c f
  let t := (m.1.onChan c fun ch => { ch with closing := .committed }).resumeStalled.runCoder
  if m.2 then t.chanOn c else t

/-- A channel makes the commit point it has reached. -/
def makeCommit (c : ChanNo) (s : State) : State :=
  let ch := s.chan c
  if ch.closing ≠ .none ∨ s.waits (.chan c) then s
  else
    match ch.file with
    | some f =>
      if ch.state = .ending then s.commitLast c f
      else if ch.state = .running ∧ f.commitDue then s.commitInterval c f
      else s
    | none => s

end State

end Sys2Proof.Machine
end

