-- ==== Sys2Proof/Machine/Service.lean ====
section
/-! DEFINITION. The long operations step by step: the expiry pass (R145, R146, R151 to R153), the retention walk (R143, R144),
VERIFY (R162), EXTRACT (R168 to R170), CATALOG-READ (R37, R38) and JOURNAL-READ (R180); the line of waiting submissions (R175);
and what follows of itself from an event. -/

namespace Sys2Proof.Machine

/-! ## Bodies -/

def OpBody.pass : OpBody → Option Pass
  | .advance _ _ _ _ p => some p
  | .expire p => some p
  | _ => none

def OpBody.setPass (p : Pass) : OpBody → OpBody
  | .advance d c a o _ => .advance d c a o p
  | .expire _ => .expire p
  | b => b

/-- A pass no longer waits for journal room (R146). -/
def OpBody.roomBack (b : OpBody) : OpBody :=
  match b.pass with
  | some p => b.setPass { p with awaitsRoom := false }
  | none => b

/-- The source of a pass in EXPIRY-SUMMARY: ADVANCE or EXPIRE (R146). -/
def OpBody.passSource : OpBody → Nat
  | .advance .. => 1
  | _ => 2

/-- The order of a selection's parameters is wrong: first day after last, or an empty mask (R38, R149, R162). -/
def Selection.badRange (c : Selection) : Bool := decide (c.last < c.first) || maskEmpty c.mask

/-- The switch id is above 1023 and the selector is not all. -/
def badSwitch (all : Bool) (sw : Nat) : Bool := !all && decide (1023 < sw)

/-- An EXTRACT's parameters are out of range (R168). -/
def ExtractParams.badRange (p : ExtractParams) : Bool :=
  maskEmpty p.mask || p.capacity == 0
    || (match p.range with
        | some (a, b) => decide (b < a)
        | none => false)

namespace State

/-! ## The end of an operation that waited for its closing entry -/

/-- The values an operation answers when it is done. -/
def doneValues (s : State) (b : OpBody) : List Byte :=
  match b with
  | .advance d closed abandoned cut p =>
    fours [d, closed, abandoned, cut.code, cut.serial, p.issued, p.held, p.deferred, p.blocked]
  | .expire p => fours [s.ret.day, p.issued, p.held, p.deferred, p.blocked]
  | .walk _ _ raised => fours [raised]
  | _ => []

/-- The closing entry of the running operation has been taken: it is answered DONE (R144, R152, R153). -/
def finishOp (adm : Nat) (s : State) : State :=
  match s.exec.running with
  | some o => if o.adm = adm then s.endAnswer .done (s.doneValues o.body) else s
  | none => s

/-- The running operation has come to its end and submits its closing entries; it ends when they are taken. -/
def endWith (adm : Nat) (entries : List EntryBody) (s : State) : State :=
  let r := (s.onRunning fun o => { o with ended := true }).submit
    { entries := entries, who := .op adm, acts := [.endOp adm] }
  if r.2 then r.1.finishOp adm else r.1

/-! ## The line of waiting submissions (R175) -/

/-- What the taking of a submission brings about. An operation that ends by it is followed at once by the next (R190), and after an
erase's completion, which may remove a directory entry whose limit flag is set, the coder selects (R105). -/
def runAct (a : OnTake) (s : State) : State :=
  match a with
  | .clearBinding c => s.setBinding c none
  | .chanOn c => s.chanOn c
  | .chanDone c => s.chanDone c
  | .eraseDone n ok => (s.eraseDone n ok).runCoder
  | .verdict r => (s.verdictDone r).nextOp
  | .lapEnd => s.lapEnd
  | .endOp adm => (s.finishOp adm).nextOp
  | .restarted => s.notice .restarts

def runActs : List OnTake → State → State
  | [], s => s
  | a :: as, s => runActs as (s.runAct a)

/-- The journal takes waiting submissions from the front of the line for as long as the front one can be taken. -/
def drainLoop : Nat → State → State
  | 0, s => s
  | fuel + 1, s =>
    match s.jnl.line with
    | [] => s
    | x :: rest =>
      if s.canTake x then
        drainLoop fuel (runActs x.acts ((s.onJnl fun j => { j with line := rest }).takeSubmission x.entries))
      else s

/-- No more than 4,096 entries fit the buffer before one is settled, so no more submissions can be taken at one event. -/
def drainLine (s : State) : State := drainLoop (Config.journalBuffer + 1) s

/-! ## What follows of itself -/

/-- After an event: stalled channels get FREE pages (R54), the coder goes on (R102, R105), a run is formed and the lanes make
their grants (R126, R178). -/
def settle (s : State) : State := s.resumeStalled.runCoder.pump

/-- After an event that may have ended the running operation: the next one is chosen first (R190). -/
def settleOps (s : State) : State := s.nextOp.settle

/-! ## The expiry pass (R145, R146) -/

/-- A CLOSED and due segment is judged by the four cases, in order. -/
def judgePass (n : Nat) (g : Segment) (p : Pass) (s : State) : State × Pass :=
  if s.ret.holds.any fun h => h.cover.covers g.key then (s, { p with held := p.held + 1 })
  else if 0 < g.pins ∨ s.isOnline (laneOf n) = false ∨ 0 < g.inFlight then (s, { p with deferred := p.deferred + 1 })
  else if g.mark = .suspect then (s, { p with blocked := p.blocked + 1 })
  else ((s.setContent n (.live .erasing g)).issueErase n, { p with issued := p.issued + 1 })

/-- A segment is due (R138). -/
def isDue (s : State) (g : Segment) : Bool := decide (g.expiry ≤ s.ret.day)

/-- The cursor moves on; past the last number the pass ends with the EXPIRY-SUMMARY pair, and before it a requested suspension
takes effect. -/
def passMove (o : Op) (p : Pass) (s : State) : State :=
  let p' : Pass := { p with cursor := p.cursor + 1 }
  let t := s.onBody fun b => b.setPass p'
  if Config.segmentEnd ≤ p'.cursor then
    t.endWith o.adm [EntryBody.mk0 .expirySummary .none s.ret.day p'.issued p'.held,
                     EntryBody.mk0 .expirySummary .none p'.deferred p'.blocked o.body.passSource]
  else t.takeSuspension

/-- The suspension point between the first run of an ADVANCE and segment 0: a suspension requested before the first run takes effect
here, unless DAY-ADVANCED waits in the line, in which case it waits for the first step between two segment numbers after the entry
has been taken (DESIGN CHOICE, log 35). -/
def firstPoint (o : Op) (s : State) : State := if s.waits (.op o.adm) then s else s.takeSuspension

/-- The running pass judges the record at its cursor, or begins to wait there for journal room: before a CLOSED and due segment
(R145, R146; log 23). -/
def passJudges (o : Op) (p : Pass) (s : State) : State :=
  match s.live? p.cursor with
  | some (.closed, g) =>
    if s.isDue g then
      if s.hasReserve then
        let x := s.judgePass p.cursor g p
        x.1.passMove o x.2
      else (s.onBody fun b => b.setPass { p with awaitsRoom := true }).takeSuspension
    else s.passMove o p
  | _ => s.passMove o p

/-- One step of the running pass. A pass that waits for journal room judges nothing, whatever becomes of the segment at its cursor,
until room returns, and can be suspended there (R146). A pass whose ADVANCE still waits with DAY-ADVANCED neither judges nor is
suspended (DESIGN CHOICE, log 35; so too its first run, `firstPoint`). -/
def passStep (s : State) : State :=
  match s.stepping with
  | some o =>
    match o.body.pass with
    | some p =>
      if s.waits (.op o.adm) then s
      else if p.awaitsRoom && !s.hasReserve then s.takeSuspension
      else s.passJudges o { p with awaitsRoom := false }
    | none => s
  | none => s

/-- The segments that an ADVANCE to D′ closes with cause LATE-WINDOW (R33), in rising segment number. -/
def lateSegments (s : State) (newDay : Nat) : List Nat :=
  (s.fillings.filter fun x => decide (x.2.key.day + s.ret.lateWindow < newDay)).map Prod.fst

/-- The first event of an ADVANCE (R152): the day, the late-window closes, the gap horizon and the automatic cut, in order. The
three settings are read here, at its first run (R140), so a SETTINGS slip that runs before it reaches it (DESIGN CHOICE, log
33). -/
def advanceDay (o : Op) (newDay : Nat) (s : State) : State :=
  let old := s.ret.day
  let s1 := (s.onRet fun r => { r with day := newDay }).post (.op o.adm)
    [EntryBody.mk0 .dayAdvanced .none old newDay 0]
  let closed := s1.lateSegments newDay
  let s2 := closeAll .lateWindow closed s1
  let before := s2.recon.gaps.length
  let s3 := s2.abandonHorizon newDay
  let x := if s3.ret.autoCut then s3.cut .auto else (s3, none)
  let outcome : CutOutcome :=
    if s3.ret.autoCut then
      match x.2 with
      | some (_, serial) => .made serial
      | none => .full
    else .off
  x.1.onRunning fun r =>
    { r with begun := true,
             body := .advance newDay closed.length (before - s3.recon.gaps.length) outcome Pass.start }

/-! ## The retention walk (R143, R144) -/

/-- The count that a walk applies. -/
def walkCount (s : State) (g : GroupNo) : Nat :=
  (((bget s.ret.groups g).walk).map Prod.snd).getD (bget s.ret.groups g).days

/-- The walk judges a segment: its expiry day is raised if that changes it. -/
def raiseExpiry (n : Nat) (grp : GroupNo) (s : State) : State × Bool :=
  match s.live? n with
  | some (_, g) =>
    let e := min (g.key.day + s.walkCount grp) Config.dayMax
    if g.key.group = grp.val ∧ g.expiry < e then (s.onSegment n fun x => { x with expiry := e }, true) else (s, false)
  | none => (s, false)

/-- The end of a walk: the mark is cleared and RETENTION-CHANGED submitted (R144). A start-up that comes before the journal has taken
the entry loses it with the line: the mark is clear, so no walk is resumed, and the lengthening, whose slip is answered RESTARTED, has
no RETENTION-CHANGED (DESIGN CHOICE, log 23: R144 clears the mark before the entry and R183 drops the line, while R154 says that a
resumed walk's entry reports the outcome). -/
def endWalk (o : Op) (grp : GroupNo) (s : State) : State :=
  let w := ((bget s.ret.groups grp).walk).getD (0, 0)
  (s.onRet fun r => { r with groups := bmod r.groups grp fun x => { x with walk := none } }).endWith o.adm
    [EntryBody.mk0 .retentionChanged .none grp.val w.1 w.2]

/-- One step of the running walk. -/
def walkStep (s : State) : State :=
  match s.stepping with
  | some o =>
    match o.body with
    | .walk grp cursor raised =>
      let x := s.raiseExpiry cursor grp
      let t := x.1.onBody fun _ => .walk grp (cursor + 1) (raised + if x.2 then 1 else 0)
      if Config.segmentEnd ≤ cursor + 1 then t.endWalk o grp else t.takeSuspension
    | _ => s
  | none => s

/-! ## VERIFY (R162) -/

/-- The first run of a VERIFY: its refusals, or its start. -/
def verifyBegin (s : State) : State :=
  match s.newRunning with
  | some o =>
    match o.body with
    | .verify sel _ _ _ =>
      if badSwitch sel.all sel.switch then s.endAnswer .badSwitch []
      else if sel.badRange then s.endAnswer .range []
      else s.onRunning fun r => { r with begun := true }
    | _ => s
  | none => s

/-- The verify cursor passes over a number. -/
def verifyPass (skipped : Bool) (s : State) : State :=
  (s.onBody fun b =>
    match b with
    | .verify sel cursor n v =>
      .verify sel (cursor + 1) { n with skipped := n.skipped + (if skipped then 1 else 0) } v
    | b => b).verifyEnd

/-- One step of the verify cursor. -/
def verifyStep (s : State) : State :=
  match s.stepping with
  | some o =>
    match o.body with
    | .verify sel cursor _ none =>
      match s.live? cursor with
      | some (st, g) =>
        if st = .erasing ∨ sel.covers g.key = false then s.verifyPass false
        else if checkable st g then (s.beginVisit (.op o.adm) cursor g).verifyGo (.op o.adm)
        else s.verifyPass true
      | none => s.verifyPass false
    | _ => s
  | none => s

/-! ## EXTRACT (R168 to R170) -/

/-- The groups of a mask, in ascending order. -/
def maskGroups (m : Byte) : List Nat := [0, 1, 2, 3].filter fun g => maskHas m g

def extractKey (p : ExtractParams) (g : Nat) : StreamKey := { switch := p.switch, day := p.day, group := g }

/-- A part is pinned and counted as read, and its reading begins. -/
def extractRead (n : Nat) (g : Segment) (s : State) : State :=
  match s.exec.running with
  | some o => ((s.beginVisit (.op o.adm) n g).onExtract fun st => { st with read := st.read + 1 }).extractGo
  | none => s

/-- The resume point of an EXTRACT is judged, and the operation begins at its segment (R170). -/
def extractResume (p : ExtractParams) (n blk i : Nat) (s : State) : State :=
  match s.live? n with
  | some (st, g) =>
    if st = .erasing ∨ g.key.switch ≠ p.switch ∨ g.key.day ≠ p.day ∨ maskHas p.mask g.key.group = false then
      s.endAnswer .gone []
    else if g.blocks ≤ blk then s.endAnswer .range []
    else
      (s.onExtract fun x =>
        { x with groups := (maskGroups p.mask).filter fun q => decide (g.key.group < q),
                 key := some (g.key.group, g.part + 1, ((s.dirEntry g.key).map DirEntry.highest).getD g.part),
                 skip := some (blk, i) }).extractRead n g
  | none => s.endAnswer .gone []

/-- The first run of an EXTRACT (R168, R170). -/
def extractBegin (s : State) : State :=
  match s.newRunning with
  | some o =>
    match o.body with
    | .extract p _ =>
      if badSwitch false p.switch then s.endAnswer .badSwitch []
      else if p.badRange then s.endAnswer .range []
      else
        let t := s.onRunning fun r => { r with begun := true }
        match p.resume with
        | some (n, blk, i) => t.extractResume p n blk i
        | none => t.onExtract fun x => { x with groups := maskGroups p.mask }
    | _ => s
  | none => s

/-- The next part to visit: of the key under way, or part 1 of the next group whose key has a directory entry. -/
def nextPart (s : State) (p : ExtractParams) (key : Option (Nat × Nat × Nat)) : List Nat → Option (Nat × Nat × Nat × List Nat)
  | gs =>
    match key with
    | some (g, part, top) => if part ≤ top then some (g, part, top, gs) else firstKey gs
    | none => firstKey gs
where
  firstKey : List Nat → Option (Nat × Nat × Nat × List Nat)
    | [] => none
    | g :: gs =>
      match s.dirEntry (extractKey p g) with
      | some d => some (g, 1, d.highest, gs)
      | none => firstKey gs

/-- An EXTRACT that has visited every key is answered (R169, R171). -/
def extractEnd (p : ExtractParams) (st : ExtractState) (s : State) : State :=
  s.endAnswer (if 0 < st.skipped ∧ st.written < p.capacity then .mediaError else .done) (extractValues st (0, 0, 0))

/-- One step to the next part (R169). -/
def extractStep (s : State) : State :=
  match s.stepping with
  | some o =>
    match o.body with
    | .extract p st =>
      if st.visit.isSome then s
      else
        match s.nextPart p st.key st.groups with
        | none => s.extractEnd p st
        | some (g, part, top, gs) =>
          let t := s.onExtract fun x => { x with groups := gs, key := some (g, part + 1, top) }
          match s.partOf (extractKey p g) part with
          | some (_, .erasing, _) => t.onExtract fun x => { x with missing := x.missing + 1 }
          | some (n, .closed, sg) => t.extractRead n sg
          | some (n, .filling, sg) => if sg.blocks = 0 then t else t.extractRead n sg
          | none => t.onExtract fun x => { x with missing := x.missing + 1 }
    | _ => s
  | none => s

/-! ## CATALOG-READ (R37, R38) -/

/-- The first run of a CATALOG-READ: its refusals, or its start. A read that has been withdrawn is stopped, also where its suspension is requested: the request lapses with its end, and R190 chooses the next (DESIGN
CHOICE, log 15: R191 and R192 give neither precedence). -/
def catalogBegin (s : State) : State :=
  match s.newRunning with
  | some o =>
    match o.body with
    | .catalogRead sel _ capacity cursor _ =>
      if o.stopping then s.endSilent
      else if badSwitch sel.all sel.switch then s.endAnswer .badSwitch []
      else if sel.badRange ∨ capacity = 0 ∨ Config.segmentEnd ≤ cursor then s.endAnswer .range []
      else (s.onRunning fun r => { r with begun := true }).takeSuspension
    | _ => s
  | none => s

/-- The catalog walk moves on; past the last number it is answered DONE, with a resume segment of 0 (DESIGN CHOICE, log 39). -/
def catalogMove (sel : Selection) (buffer capacity cursor written : Nat) (s : State) : State :=
  if Config.segmentEnd ≤ cursor + 1 then s.endAnswer .done (fours [written, 0])
  else (s.onBody fun _ => .catalogRead sel buffer capacity (cursor + 1) written).takeSuspension

/-- One step of the catalog walk. A read that has been withdrawn is stopped, also where its suspension is requested: the request lapses with its end, and R190 chooses the next (DESIGN
CHOICE, log 15: R191 and R192 give neither precedence). -/
def catalogStep (s : State) : State :=
  match s.stepping with
  | some o =>
    match o.body with
    | .catalogRead sel buffer capacity cursor written =>
      if o.stopping then s.endSilent
      else
        match s.extent? cursor with
        | some { content := .live st g, erases := er, fault := fl } =>
          if sel.covers g.key then
            if written < capacity then
              (s.hostWrite (buffer + 64 * written)
                (summaryBytes cursor st g { content := .live st g, erases := er, fault := fl })).catalogMove sel buffer capacity
                  cursor (written + 1)
            else s.endAnswer .partialDone (fours [written, cursor])
          else s.catalogMove sel buffer capacity cursor written
        | _ => s.catalogMove sel buffer capacity cursor written
    | _ => s
  | none => s

/-! ## JOURNAL-READ (R180) -/

/-- The values of a JOURNAL-READ answered DONE. -/
def journalValues (s : State) (written next : Nat) : List Byte :=
  unsignedField 4 written ++ leBytes 8 next ++ leBytes 8 s.jnl.head ++ leBytes 8 s.jnl.settled ++ leBytes 8 s.jnl.release

/-- The end is reached: the read is answered DONE; before it a requested suspension takes effect. -/
def journalMove (start stop next : Nat) (s : State) : State :=
  if stop ≤ next then s.endAnswer .done (s.journalValues (next - start) next) else s.takeSuspension

/-- The first run of a JOURNAL-READ: its refusals, or its end fixed. A read that has been withdrawn is stopped, also where its suspension is requested: the request lapses with its end, and R190 chooses the next (DESIGN
CHOICE, log 15: R191 and R192 give neither precedence). -/
def journalBegin (s : State) : State :=
  match s.newRunning with
  | some o =>
    match o.body with
    | .journalRead start capacity buffer _ _ =>
      if o.stopping then s.endSilent
      else if capacity = 0 ∨ s.jnl.head < start then s.endAnswer .range []
      else if start < s.jnl.release then s.endAnswer .gone []
      else
        let stop := min (start + capacity) s.jnl.settled
        (s.onRunning fun r => { r with begun := true, body := .journalRead start capacity buffer stop start }).journalMove start
          stop start
    | _ => s
  | none => s

/-- The entry with a sequence number, in the entry store. -/
def storedEntry (s : State) (q : Nat) : Option Entry := if q < s.jnl.release then none else s.jnl.store[q - s.jnl.release]?

/-- One step of the journal read. A read that finds its next entry released is answered GONE with the two values R180 names, the other
three 0 (DESIGN CHOICE, log 39). A read that has been withdrawn is stopped, also where its suspension is requested: the request lapses with its end, and R190 chooses the next (DESIGN
CHOICE, log 15: R191 and R192 give neither precedence). -/
def journalStep (s : State) : State :=
  match s.stepping with
  | some o =>
    match o.body with
    | .journalRead start capacity buffer stop next =>
      if o.stopping then s.endSilent
      else if next < s.jnl.release then
        s.endAnswer .gone (unsignedField 4 (next - start) ++ leBytes 8 s.jnl.release)
      else
        match s.storedEntry next with
        | some e =>
          ((s.hostWrite (buffer + 32 * (next - start)) e.bytes).onBody fun _ =>
            .journalRead start capacity buffer stop (next + 1)).journalMove start stop (next + 1)
        | none => s.journalMove start stop stop
    | _ => s
  | none => s

end State

end Sys2Proof.Machine
end

