-- ==== Sys2Proof/Machine/Desk.lean ====
section
/-! DEFINITION. The desk unit: the five registers' writes and requests for sweeps (R184, R185), the sweep (R186 to R188, R192),
its end (R190, R195, R196), and the desk change (R199). -/

namespace Sys2Proof.Machine

/-! ## Kinds -/

/-- The feed kind and the long kinds other than RETAIN, whose class its judgement decides (R188). -/
inductive KindClass where
  | quick | feed | long
deriving DecidableEq, Repr

def Kind.cls : Kind → KindClass
  | .ingest => .feed
  | .format | .advance | .expire | .verify | .extract | .journalRead | .catalogRead => .long
  | _ => .quick

/-- The kinds refused JOURNAL-FULL below the reserve (R177, R188). -/
def Kind.needsRoom : Kind → Bool
  | .ingest | .advance | .expire | .verify => true
  | _ => false

/-- The operation body of a long kind, from its parameter area; none for the other kinds. -/
def Kind.body (k : Kind) (p : List Byte) : Option OpBody :=
  match k with
  | .format => some (.format (readFormat p))
  | .advance => some (.advance (field p 0 4) 0 0 .off Pass.start)
  | .expire => some (.expire Pass.start)
  | .verify => some (.verify (readSelection p) 0 { checked := 0, passed := 0, failed := 0, skipped := 0 } none)
  | .extract => some (.extract (readExtract p) ExtractState.start)
  | .journalRead => some (.journalRead (field p 0 8) (field p 8 4) (field p 16 8) 0 0)
  | .catalogRead => some (.catalogRead (readSelection p) (field p 8 8) (field p 16 4) (field p 20 4) 0)
  | _ => none

/-- The order of quick slips and of the admission list: priority, then admission number (R43, R188, R189). -/
def Admitted.before (a b : Admitted) : Bool := decide (a.prio < b.prio) || (decide (a.prio = b.prio) && decide (a.adm < b.adm))

/-- An operation just admitted. -/
def Admitted.op (a : Admitted) (b : OpBody) : Op :=
  { slip := some a.slip, adm := a.adm, prio := a.prio, urgent := a.urgent, begun := false, stopping := false, ended := false,
    body := b }

namespace State

/-! ## Requests for sweeps (R185) -/

/-- A request for a sweep: discarded while there is no desk; otherwise remembered until a sweep can begin. -/
def requestSweep (s : State) : State :=
  if s.desk.base = 0 then s else s.onDesk fun d => { d with asked := true }

/-- The value that a write of SWEEP PERIOD takes (R184). -/
def takenPeriod (v : Word32) : Word32 :=
  if v.toNat = 0 then 0
  else if v.toNat < Config.periodMin then BitVec.ofNat 32 Config.periodMin
  else if Config.periodMax < v.toNat then BitVec.ofNat 32 Config.periodMax
  else v

/-- A write of SWEEP PERIOD (R184, R185). -/
def writePeriod (v : Word32) (s : State) : State := s.onDesk fun d => { d with period := takenPeriod v, timer := 0 }

/-- The sweep timer expires (R185). -/
def timerExpires (s : State) : State :=
  if s.desk.period = 0 then s else (s.onDesk fun d => { d with timer := 0 }).requestSweep

/-- One microsecond of the sweep timer (R185). -/
def timerTick (s : State) : State :=
  if s.desk.period = 0 then s
  else if s.desk.period.toNat ≤ s.desk.timer + 1 then s.timerExpires
  else s.onDesk fun d => { d with timer := d.timer + 1 }

/-! ## The desk change (R199) -/

/-- A channel at a desk change: its slip belongs to the former desk; a file in HEADER, RUNNING or STALLED is aborted. -/
def detachChan (c : ChanNo) (s : State) : State :=
  let t := s.onChan c fun ch => { ch with slip := none }
  match (s.chan c).state with
  | .free => s
  | .ending => t
  | _ => t.abort c .deskChange none

/-- The change takes effect: the desk in use is the one DESK BASE names, every open file is aborted, and the engine holds no slip.
Three points that R199 leaves open (DESIGN CHOICE, log 24): every STALLED channel leaves the waiting order before the aborts, so
that no page freed here goes to one; the channels are aborted in channel order, and so stand their FILE-ABORTED pairs; and the desk
changes before the aborts, so that a counter that an abort advances (FINDINGS of SEQUENCE-RESTART) is written into the header of
the new desk, or, where DESK BASE is now 0, into none (R195). -/
def deskChange (s : State) : State :=
  let t := (s.onFeed fun f => { f with stalled := [] }).onDesk fun d => { d with place := d.base.toNat, baseWritten := false }
  ((indices 8).foldl (fun t c => t.detachChan c) t).detachOps.onDesk fun d =>
    { d with list := [], held := Vector.replicate 64 .notHeld, first := true, asked := d.asked && d.base != 0 }

/-- The address a write of DESK BASE takes: rounded down to a multiple of 4,096 (R184). -/
def takenBase (v : Word64) : Word64 := v &&& ~~~(0xFFF : Word64)

/-- A write of DESK BASE: a desk change at once, or when the sweep under way ends (R199; log 24 for BLANK and FORMATTING). -/
def writeBase (v : Word64) (s : State) : State :=
  let t := s.onDesk fun d => { d with base := takenBase v }
  if t.desk.sweep.isSome then t.onDesk fun d => { d with baseWritten := true } else t.deskChange

/-- A write of DESK BASE while RECOVERING: the new address is taken, and the first sweep uses it; a pending sweep of no desk is
discarded (R185, R199). -/
def takeBase (v : Word64) (s : State) : State :=
  s.onDesk fun d => { d with base := takenBase v, place := (takenBase v).toNat, asked := d.asked && takenBase v != 0 }

/-! ## Step 1 of a sweep: the header (R186, R128, R36, R164) -/

/-- The scrub is active (R164). -/
def scrubActive (s : State) : Bool := s.engine == .ready && s.scrub.enable

/-- A lap begins at a sweep (R164). -/
def beginLap (s : State) : State :=
  if s.scrubActive && s.scrub.state == .resting && (match s.scrub.startDay with
      | none => true
      | some d => decide (d < s.ret.day)) then
    s.onScrub fun x =>
      { x with cursor := 0, checked := 0, failed := 0, startDay := some s.ret.day, state := .walking }
  else s

/-- The host-written fields of the desk header are taken. -/
def takeSettings (h : List Byte) (s : State) : State :=
  let s1 := s.onDesk fun d => { d with threshold := min (field h 0 1) 3, enable := h.getD 1 0 }
  let s2 := s1.onLanes fun l => { l with share := min (field h 2 2) 1023 }
  let s3 := s2.takeWatch (field h 4 1) (h.getD 5 0)
  (s3.onScrub fun x => { x with enable := flagSet (h.getD 6 0), period := max (field h 7 1) 1 }).beginLap

/-! ## Step 2: the marks (R186 to R188, R192) -/

/-- The rebuilt answer-map entry of one slip: the status of an ANSWERED slip, otherwise clear. -/
def rebuildEntry (i : SlipNo) (s : State) : State :=
  s.setMap i (if !s.readFails (s.slipAt i) 1 && s.markOf i == markAnswered then s.byteOrFree (s.answerAt i) else 0)

def rebuildMap (s : State) : State := (indices 64).foldl (fun t i => t.rebuildEntry i) s

/-- The engine state takes a kind (R188). -/
def takesKind (s : State) (k : Kind) : Bool :=
  match s.engine with
  | .blank => k == .format
  | .ready => k != .format
  | _ => false

/-- The new day of an ADVANCE is out of range (R151). -/
def badNewDay (s : State) (d : Nat) : Bool :=
  decide (d ≤ s.ret.day ∨ s.ret.day + 366 < d ∨ Config.dayMax < d)

/-- A quick slip of RETAIN, a shortening, has been admitted for a group at this sweep (R141). -/
def shorteningAdmitted (s : State) (g : Nat) : Bool :=
  ((s.desk.sweep.map Sweep.quick).getD []).any fun a => a.kind == .retain && field a.params 0 1 == g

/-- The walk-pending mark of a group (R141). -/
def walkPending (s : State) (g : Nat) : Bool :=
  if h : g < 4 then (bget s.ret.groups ⟨g, h⟩).walk.isSome else false

/-- The status that refuses a slip at admission, in the order of R188. -/
def admissionRefusal (s : State) (k : Kind) (p : List Byte) : Option Status :=
  if !s.takesKind k then some .wrongState
  else if k.needsRoom && !s.hasReserve then some .journalFull
  else
    match k with
    | .retain =>
      if 3 < field p 0 1 ∨ field p 2 2 < 1 ∨ Config.retentionMax < field p 2 2 then some .range
      else if s.walkPending (field p 0 1) || s.shorteningAdmitted (field p 0 1) then some .busy
      else none
    | .advance => if s.passPending then some .busy else if s.badNewDay (field p 0 4) then some .range else none
    | .expire => if s.passPending then some .busy else none
    | _ => none

def onSweep (f : Sweep → Sweep) (s : State) : State := s.onDesk fun d => { d with sweep := d.sweep.map f }

/-- A long operation waits for step 4; a quick slip for step 3; an INGEST slip joins the admission list. -/
def addLong (o : Op) (s : State) : State := s.onSweep fun w => { w with long := w.long ++ [o] }
def addQuick (a : Admitted) (s : State) : State := s.onSweep fun w => { w with quick := insertBy Admitted.before a w.quick }
def addFeed (a : Admitted) (s : State) : State := s.onDesk fun d => { d with list := insertBy Admitted.before a d.list }

/-- An admitted RETAIN: a shortening is quick; a lengthening sets the group's count and raises its mark at once, and its walk is
a long operation (R141, R143). -/
def admitRetain (a : Admitted) (s : State) : State :=
  if h : field a.params 0 1 < 4 then
    let g : GroupNo := ⟨field a.params 0 1, h⟩
    let old := (bget s.ret.groups g).days
    let new := field a.params 2 2
    if new ≤ old then s.addQuick a
    else
      (s.onRet fun r => { r with groups := bset r.groups g { days := new, walk := some (old, new) } }).addLong
        (a.op (.walk g 0 0))
  else s

/-- A slip that passes its admission is dispatched by its class (R188). -/
def dispatch (a : Admitted) (s : State) : State :=
  match a.kind with
  | .retain => s.admitRetain a
  | _ =>
    match a.kind.cls with
    | .feed => s.addFeed a
    | .quick => s.addQuick a
    | .long =>
      match a.kind.body a.params with
      | some b => s.addLong (a.op b)
      | none => s

/-- A slip is TAKEN, held and numbered (R188). The count goes on past 2⁶⁴ − 1 (DESIGN CHOICE, log 38). -/
def takeSlipMark (i : SlipNo) (s : State) : State :=
  ((s.setMark i markTaken).setHeld i .held).onDesk fun d => { d with nextAdm := d.nextAdm + 1 }

/-- The priority of a slip, as admission reads it: one above 3 is taken as 3 (R188). -/
def priorityOf (s : State) (i : SlipNo) : Nat := min (s.byteOrFree (s.slipAt i + 2)).toNat 3

/-- A slip of a kind, judged and refused or dispatched (R188). -/
def judgeSlip (i : SlipNo) (prio adm : Nat) (k : Kind) (s : State) : State :=
  let p := s.readParams k i
  match s.admissionRefusal k p with
  | some st => s.answer (some i) st []
  | none =>
    s.dispatch { slip := i, prio := prio, adm := adm, urgent := flagSet (s.byteOrFree (s.slipAt i + 3)), kind := k, params := p }

/-- The admission of a POSTED slip that is not held (R188). It takes the count as it stands before its rise, so the first admission
after a start-up has number 0 (DESIGN CHOICE, log 40: R188 says that the count starts at 0 and rises at each admission, and not
whether the number is the count before or after the rise). -/
def admitSlip (i : SlipNo) (s : State) : State :=
  if s.desk.threshold ≠ 0 ∧ s.desk.threshold ≤ s.priorityOf i then s
  else
    let t := s.takeSlipMark i
    match Kind.ofCode (t.byteOrFree (t.slipAt i + 1)).toNat with
    | none => t.answer (some i) .unknownKind []
    | some k => t.judgeSlip i (s.priorityOf i) s.desk.nextAdm k

/-- The channel to which a slip is bound (R43). -/
def chanOfSlip (s : State) (i : SlipNo) : Option ChanNo :=
  (indices 8).find? fun c => (s.chan c).state != .free && (s.chan c).slip == some i

/-- What follows a withdrawal, by where the slip stands (R62, R192). -/
def withdraw (i : SlipNo) (s : State) : State :=
  if s.desk.list.any fun a => a.slip == i then
    (s.onDesk fun d => { d with list := d.list.filter fun a => a.slip != i }).releaseSlip i
  else
    match s.chanOfSlip i with
    | some c => if (s.chan c).state = .ending then s else s.abort c .withdrawn none
    | none => (s.withdrawOp i).nextOp

/-- An INGEST slip bound to a channel in HEADER, RUNNING or STALLED has its filled mark and final fields read again (R46). -/
def rereadSlip (i : SlipNo) (s : State) : State :=
  match s.chanOfSlip i with
  | some c => if (s.chan c).state = .ending then s else s.rereadMarks c i
  | none => s

/-- An answer-map entry that is set for a slip whose mark is not ANSWERED is cleared (R187). -/
def clearEntry (i : SlipNo) (m : Byte) (s : State) : State :=
  if bget s.desk.map i ≠ 0 ∧ m ≠ markAnswered then s.setMap i 0 else s

/-- One slip is dealt with by its mark (R187). -/
def dealSlip (first : Bool) (i : SlipNo) (s : State) : State :=
  if s.readFails (s.slipAt i) 1 then s
  else
    let m := s.markOf i
    let t := s.clearEntry i m
    match bget s.desk.held i with
    | .notHeld =>
      if m = markPosted then t.admitSlip i
      else if m = markTaken ∧ first then t.writeAnswer i .restarted []
      else t
    | .held => if m = markTaken then t.rereadSlip i else (t.setHeld i .withdrawn).withdraw i
    | .withdrawn => t

/-! ## Steps 4 to 6 and the end of a sweep (R186) -/

/-- Step 5: the engine fields, and all eight counters at the first sweep of a desk (R195). -/
def writeFields (s : State) : State :=
  let t := s.hostWrite (s.desk.place + 8)
    (leBytes 2 s.ret.day ++ unsignedField 2 s.pagesInUse ++ unsignedField 4 s.freeCount)
  if s.desk.first then allCounters.foldl (fun u c => u.writeCounter c) t else t

/-- Step 4: the long slips are handed over, and the executor chooses if nothing runs. -/
def handOverLong (s : State) : State :=
  match s.desk.sweep with
  | some w => (handOverAll w.long (s.onSweep fun x => { x with long := [] })).nextOp
  | none => s

/-- The quick slips have run: the hand-over, the engine fields, the gate; then the sweep is over, and a desk change that waited
for it takes effect. -/
def finishSweep (s : State) : State :=
  let t := s.handOverLong.writeFields.openGate.onDesk fun d => { d with sweep := none, first := false }
  if t.desk.baseWritten then t.deskChange else t

/-- The sweep goes on to its end when no quick slip is left. -/
def sweepGoesOn (s : State) : State :=
  match s.desk.sweep with
  | some w => if w.quick.isEmpty then s.finishSweep else s
  | none => s

/-- Whether a sweep that was asked for can begin: not while RECOVERING, nor while another is under way (R185, R197). It begins by the
command SWEEP, and any other command can come between (DESIGN CHOICE, log 12: R185 begins it at the request, and the table gives it a
row of its own). -/
def sweepReady (s : State) : Bool :=
  s.desk.asked && s.desk.sweep.isNone && s.desk.place != 0 && s.engine != .recovering

/-- Steps 1 and 2 of a sweep; without quick slips it runs to its end (R186). A sweep whose header read fails ends before the
settings are taken, and no scrub lap begins at it, even where the scrub is active by the settings of the last sweep (DESIGN CHOICE,
log 14: R164 has a lap begin at a sweep, R186 ends such a sweep at step 1, and neither says whether the lap begins at it). -/
def beginSweep (s : State) : State :=
  if !s.sweepReady then s
  else
    let s1 := s.onDesk fun d => { d with asked := false }
    if s1.readFails s1.desk.place 8 then s1
    else
      let s2 := (s1.takeSettings (s1.hostBytes s1.desk.place 8)).onDesk fun d =>
        { d with sweep := some { quick := [], long := [] } }
      let s3 := if s2.desk.first then s2.rebuildMap else s2
      ((indices 64).foldl (fun t i => t.dealSlip s2.desk.first i) s3).sweepGoesOn

/-! ## Step 3: quick slips (R189) -/

/-- The quick slip at the front, if it is of a kind. -/
def frontQuick (s : State) (k : Kind) : Option Admitted :=
  match s.desk.sweep with
  | some w =>
    match w.quick with
    | a :: _ => if a.kind = k then some a else none
    | [] => none
  | none => none

/-- The quick slip at the front has been answered: the next begins, or the sweep goes on. -/
def quickDone (s : State) : State := (s.onSweep fun w => { w with quick := w.quick.tail }).sweepGoesOn

/-- A quick slip of a kind runs: its effect, with its answer, and what follows. -/
def runQuick (k : Kind) (effect : Admitted → State → State) (s : State) : State :=
  match s.frontQuick k with
  | some a => (effect a s).quickDone.settleOps
  | none => s

end State

end Sys2Proof.Machine
end

