-- ==== Sys2Proof/Machine/StartUp.lean ====
section
/-! DEFINITION. FORMAT (R39, R40) and the start-up (R197, R198): lane start, BLANK, and the recovery of each block in the order of
R197. -/

namespace Sys2Proof.Machine

namespace State

/-! ## FORMAT (R39) -/

/-- The parameters of FORMAT are out of range. -/
def badFormat (p : FormatParams) : Bool :=
  p.days.any (fun d => decide (d < 1 ∨ Config.retentionMax < d)) || decide (p.window < 1 ∨ Config.lateWindowMax < p.window)
    || decide (p.horizon < 1 ∨ Config.gapHorizonMax < p.horizon)

/-- The erases of one lane's usable extents. They join its background queue in rising extent index (DESIGN CHOICE, log 24: R39 gives
them no order of arrival). -/
def laneErases (l : LaneNo) : List Request :=
  (List.range Config.usablePerLane).map fun i => .erase (laneBase l + Config.journalExtents + i)

/-- One erase for every extent of the usable set joins the background queue of its lane. -/
def queueErases (s : State) : State :=
  (indices 16).foldl (fun t l => if t.usableLane l then t.onLane l fun a => { a with backQ := a.backQ ++ laneErases l } else t) s

/-- FORMAT accepted: the stamp cleared, FORMATTING, the usable set fixed, the tables and the journal emptied (R39, R182). -/
def formatAccept (s : State) : State :=
  let t : State :=
    { s with stamp := false, engine := .formatting,
             cat := { s.cat with usable := BitVec.ofNat 16 s.onlineMask, table := [], dir := [], eraseFailed := [] },
             jnl := Journal.blank }
  ((t.onCat fun c => { c with eraseLeft := t.usableCount }).queueErases).onRunning fun o => { o with begun := true }

/-- The first run of a FORMAT (R39, R190). -/
def formatBegin (s : State) : State :=
  match s.newRunning with
  | some o =>
    match o.body with
    | .format p =>
      if s.engine ≠ .blank then s.endAnswer .wrongState []
      else if badFormat p then s.endAnswer .range []
      else if s.onlineMask = 0 then s.endAnswer .mediaError []
      else s.formatAccept
    | _ => s
  | none => s

/-! ## FORMAT's completion (R40) -/

/-- The groups of the retention table from FORMAT's four counts. -/
def formatGroups (days : List Nat) : Vector Group 4 :=
  (indices 4).foldl (fun v g => bset v g { days := days.getD g.val 1, walk := none }) (Vector.replicate 4 { days := 1, walk := none })

/-- The table of a completed FORMAT: the failed extents RETIRED with the flag set; every other is FREE and not listed. -/
def formatTable (failed : List Nat) : List (Nat × Extent) :=
  failed.foldl (fun t n => tput n { content := .retired, erases := 0, fault := true } t) []

/-- EXTENT-RETIRED for each failed extent, in the order in which the erases failed (DESIGN CHOICE, log 30: R40 and R182 say only
that these entries follow FORMATTED). -/
def retiredEntries (failed : List Nat) : List EntryBody :=
  failed.map fun n => EntryBody.mk0 .extentRetired (.segment n) 0 2 0

/-- The blocks take their formatted states, the journal its first entries, and the engine is READY (R40, R65, R84, R101, R155,
R173, R182). -/
def formatDone (p : FormatParams) (s : State) : State :=
  let failed := s.cat.eraseFailed
  let t : State :=
    { s with engine := .ready, pool := Pool.blank, recon := Recon.blank, eds := Editions.blank, coder := Coder.blank,
             feed := Feed.blank, jnl := Journal.blank,
             cat := { s.cat with table := formatTable failed, dir := [], rotation := 0, openReq := none, eraseLeft := 0,
                                 eraseFailed := [] },
             ret := { day := p.day, classMap := Vector.replicate 8 0, groups := formatGroups p.days, holds := [],
                      lateWindow := p.window, gapHorizon := p.horizon, autoCut := true },
             scrub := { s.scrub with cursor := 0, checked := 0, failed := 0, startDay := none, state := .resting, awaitsRoom := false,
                                     visit := none } }
  let lanes := t.usableCount / Config.usablePerLane
  let u := postEach .block
    (EntryBody.mk0 .formatted .none t.usableCount failed.length lanes :: retiredEntries failed) t.setSide
  { u with stamp := true }.endAnswer (if failed.isEmpty then .done else .mediaError) (fours [t.usableCount, failed.length])

/-- A FORMAT erase has completed; with the last one the catalog is built (R40). -/
def formatErased (n : Nat) (ok : Bool) (s : State) : State :=
  let t := s.onCat fun c => { c with eraseLeft := c.eraseLeft - 1, eraseFailed := if ok then c.eraseFailed else c.eraseFailed ++ [n] }
  if 0 < t.cat.eraseLeft then t
  else
    match t.exec.running with
    | some { body := .format p, .. } => t.formatDone p
    | _ => t

/-! ## What no start-up keeps -/

/-- The desk unit after a start-up: no slip is held, the gate is CLOSED with the counters as restored, the enable mask is empty
(R184, R185, R188, R195 to R198). -/
def restartDesk (d : Desk) : Desk :=
  { d with place := d.base.toNat, baseWritten := false, timer := 0, asked := false, sweep := none, first := true, threshold := 0,
           enable := 0, held := Vector.replicate 64 .notHeld, nextAdm := 0, list := [], gateOpen := false, kept := d.counters }

/-- The working state that retained memory does not hold is gone: the executor, the channels, the coder, the catalog's waiting
request and watch, the journal's write and line, and the scrub's step (R42, R64, R121, R136, R172, R183). A scrub that waits for
journal room still waits (log 43). -/
def dropWorking (s : State) : State :=
  { s with desk := restartDesk s.desk, exec := Exec.blank, coder := Coder.blank,
           feed := { s.feed with chans := Vector.replicate 8 Channel.idle, stalled := [] },
           cat := { s.cat with rotation := 0, openReq := none, watch := Watch.start, eraseLeft := 0, eraseFailed := [] },
           jnl := { s.jnl with out := none, pointer := 0, line := [] },
           scrub := { s.scrub with enable := false, visit := none,
                                   state := if s.scrub.state = .stepping then .walking else s.scrub.state } }

/-! ## BLANK (R41, R65, R84, R101, R122, R155, R173, R183, R195) -/

/-- What the desk unit keeps when the engine becomes BLANK. A power-on with the stamp absent, whose retained memory is invalid,
makes the counters 0 and the map clear (R41, R195); an engine reset leaves what retained memory held (R198). The map of a power-on
is log 5's. -/
def blankDesk (cause : StartCause) (d : Desk) : Desk :=
  match cause with
  | .powerOn => { d with counters := Vector.replicate 8 0, kept := Vector.replicate 8 0, map := Vector.replicate 64 0 }
  | .engineReset => d

/-- The engine becomes BLANK. At an engine reset the blocks take the values of a power-on, as R41, R122, R155 and R183 say and as
they stand in BLANK and FORMATTING in any case (log 24), but for the desk unit. -/
def becomeBlank (cause : StartCause) (s : State) : State :=
  { s with stamp := false, engine := .blank, recovery := Recovery.start .powerOn, feed := Feed.blank, pool := Pool.blank,
           recon := Recon.blank, eds := Editions.blank, coder := Coder.blank, cat := Catalog.blank, ret := Retention.blank,
           scrub := { Scrub.blank with period := s.scrub.period }, jnl := Journal.blank,
           desk := blankDesk cause s.desk }

/-! ## Recovery (R197) -/

/-- Step 1: the journal writes its unsettled entries again and takes RESTART (R183). -/
def recoverJournal (cause : StartCause) (s : State) : State :=
  let r := s.formRun.submit
    { entries := [EntryBody.mk0 .restart .none cause.code s.jnl.settled (s.jnl.head - s.jnl.settled)], who := .block,
      acts := [.restarted] }
  if r.2 then r.1.notice .restarts else r.1

/-- Every segment's record changed alike. -/
def onSegments (f : Segment → Segment) (s : State) : State :=
  s.onCat fun c => { c with table := c.table.map fun p =>
    (p.1, match p.2.content with
      | .live st g => { p.2 with content := .live st (f g) }
      | _ => p.2) }

/-- The ERASING segments, in segment-number order. -/
def erasings (s : State) : List Nat :=
  s.cat.table.filterMap fun p =>
    match s.live? p.1 with
    | some (.erasing, _) => some p.1
    | _ => none

def reissueAll : List Nat → State → State
  | [], s => s
  | n :: ns, s => reissueAll ns (s.issueErase n)

/-- Step 2: the catalog (R42, R154 step 2); the FILLING segments close in rising segment number (log 30). -/
def recoverCatalog (s : State) : State :=
  let s1 := s.onSegments fun g => { g with inFlight := 0, reserve := g.bytes }
  let s2 := closeAll .recovery (s1.fillings.map Prod.fst) s1
  reissueAll s2.erasings s2

/-- An IN-FLIGHT place becomes HELD. -/
def Place.recover (x : Place) : Place := { x with standing := if x.standing = .inFlight then .held else x.standing }

def recoverPage (p : Page) : Page :=
  let q := { p with places := p.places.map Place.recover }
  if q.owner.isSome then cutPage q else q

/-- FILE-ABORTED with cause RESTART for a channel whose retained binding holds a file, and SEQUENCE-RESTART after it (R64, R84). -/
def abortBinding (c : ChanNo) (s : State) : State :=
  match (bget s.feed.bindings c).bind Binding.file with
  | some (sw, a) =>
    (postEach .block (restartEntries sw a.restarts (s.switchCtx sw).expected) (s.post .block (abortedPair sw a .restart))).setBinding
      c none
  | none => s.setBinding c none

/-- Step 3: the staging pool and the feed unit (R64). -/
def recoverFeed (s : State) : State :=
  (indices 8).foldl (fun t c => t.abortBinding c) (s.onPages fun ps => ps.map recoverPage).freePages

/-- Step 4: every FEEDING switch returns to IDLE (R84). -/
def recoverRecon (s : State) : State :=
  s.onRecon fun r => { r with switches := r.switches.map fun p =>
    (p.1, if p.2.state = .feeding then { p.2 with state := .idle } else p.2) }

/-- The segments bound to a slot. -/
def boundTo (s : State) (i : SlotNo) : Nat :=
  (s.cat.table.filter fun p =>
    match p.2.content with
    | .live _ g => (g.edition.map EditionRef.slot) == some i
    | _ => false).length

/-- Step 5: a slot's reference count is set anew; a RETAINED slot without segments becomes FREE (R100). -/
def recountSlot (i : SlotNo) (s : State) : State :=
  let t := s.onSlot i fun x => { x with refs := s.boundTo i }
  if (bget t.eds.slots i).state = .retained ∧ s.boundTo i = 0 then t.dropEdition i else t

/-- The slots are recounted in rising slot number, and so stand the EDITION-FREED entries of one recovery (DESIGN CHOICE, log 30:
R100 gives them no order). -/
def recoverEditions (s : State) : State := (indices 32).foldl (fun t i => t.recountSlot i) s

/-- The number by which the model names a walk that recovery places: above every admission number, so that none is shared. -/
def walkNumber (g : GroupNo) : Nat := 2 ^ 64 + g.val

/-- A walk that recovery places: waiting, of priority 0, without a slip (R154 step 3). -/
def recoveredWalk (g : GroupNo) : Op :=
  { slip := none, adm := walkNumber g, prio := 0, urgent := false, begun := true, stopping := false, ended := false,
    body := .walk g 0 0 }

/-- Step 6: the pending walks, in group order (R154). -/
def recoverRetention (s : State) : State :=
  s.onExec fun e =>
    { e with waiting := ((indices 4).filter fun g => (bget s.ret.groups g).walk.isSome).map recoveredWalk }

/-- Step 7: no segment is pinned (R172). -/
def recoverAudit (s : State) : State := s.onSegments fun g => { g with pins := 0 }

/-- Step 8: the coder, which holds nothing after a start-up, may select; the engine is READY, and the executor chooses (R121,
R190). -/
def recoverCoder (s : State) : State := { s with engine := .ready, recovery := Recovery.start .powerOn }.settleOps

/-- The eight restorations, counted from 0, in the order of R197. -/
def restoration (cause : StartCause) : Nat → State → State
  | 0 => recoverJournal cause
  | 1 => recoverCatalog
  | 2 => recoverFeed
  | 3 => recoverRecon
  | 4 => recoverEditions
  | 5 => recoverRetention
  | 6 => recoverAudit
  | _ => recoverCoder

/-- While RECOVERING the engine makes the next restoration, and a lane at which it has queued a request makes its grant (R126,
R178). -/
def restoreNext (s : State) : State :=
  if s.engine = .recovering then
    (restoration s.recovery.cause s.recovery.made { s with recovery := { s.recovery with made := s.recovery.made + 1 } }).pump
  else s

/-- A number of restorations in a row. -/
def restoreTimes : Nat → State → State
  | 0, s => s
  | n + 1, s => restoreTimes n s.restoreNext

/-- The recovery begins: the engine is RECOVERING, and so many of the restorations follow in the same step (R197). -/
def recover (cause : StartCause) (made : Nat) (s : State) : State :=
  restoreTimes made { s with engine := .recovering, recovery := Recovery.start cause }

/-- The start-up: lane start, and BLANK or recovery by the validity stamp (R136, R197). -/
def startUp (cause : StartCause) (present : BitVec 16) (start : Start) (s : State) : State :=
  let t := ((s.tear start.torn).laneStart present).dropWorking
  if t.stamp then t.recover cause start.made else t.becomeBlank cause

/-- Power-on: the registers are 0 (R184, R197). -/
def powerUp (present : BitVec 16) (start : Start) (s : State) : State :=
  ({ s with powered := true }.onDesk fun d => { d with base := 0, period := 0 }).startUp .powerOn present start

/-! ## A lane going OFFLINE (R133) -/

/-- The segment number of the extent that a request addresses. -/
def Request.extent : Request → Nat
  | .store n .. => n
  | .fetch n .. => n
  | .erase n => n
  | .journalWrite n .. => n

/-- An erase has completed: for FORMAT, or for an ERASING segment (R40, R147). -/
def eraseEnds (n : Nat) (ok : Bool) (s : State) : State :=
  if s.engine = .formatting then s.formatErased n ok else s.eraseArrives n ok

/-- A request fails without having been granted: its owner gets a media error, and each failure is an event of its own, after which
the coder selects where a store or an erase has let it (R133, R20, R105). -/
def failRequest (r : Request) (s : State) : State :=
  match r with
  | .store _ _ b _ => (s.storeDone b false).resumeStalled.runCoder
  | .fetch n offset _ q => ((s.markFault n).fetchDone q (.error offset)).nextOp
  | .erase n => (s.eraseEnds n false).runCoder.nextOp
  | .journalWrite .. => s.failRun.formRun

def failAll : List Request → State → State
  | [], s => s
  | r :: rs, s => failAll rs (s.failRequest r)

/-- A lane whose error run has reached 3 goes OFFLINE. -/
def goOffline (l : LaneNo) (s : State) : State :=
  let a := bget s.lanes.lane l
  if a.online && a.inProgress.isNone && decide (Config.errorLimit ≤ a.errorRun) then
    let queued := a.journalQ ++ a.foreQ ++ a.backQ
    let s1 := (s.onLane l fun x => { x with online := false, journalQ := [], foreQ := [], backQ := [] }).judgeWatch
    let s2 := (s1.log .laneOffline (.segment ((a.lastError.map Request.extent).getD (laneBase l))) l.val
      ((a.lastError.map Request.kindCode).getD 0) queued.length).notice .laneFaults
    failAll queued s2
  else s

end State

end Sys2Proof.Machine
end

