-- ==== Sys2Proof/Machine/BoardCommands.lean ====
section
/-! DEFINITION. The commands of the board and the desk: power, reset, the registers, the timer, a sweep, and FORMAT. -/

namespace Sys2Proof.Machine

/-- POWER_ON (R197, R184): of a powered engine, the same after its power has been away. -/
def execPowerOn (present : BitVec 16) (start : Start) (s : State) : Host.Outcome State Fault Refusal :=
  .next (s.powerUp present start)

/-- POWER_LOSS (R197, Board notes): the engine finishes no further update. -/
def execPowerLoss (s : State) : Host.Outcome State Fault Refusal := .next { s with powered := false }

/-- ENGINE_RESET (R198): in any engine state a write of 1 starts the reset; other values are ignored (R184). -/
def execEngineReset (value : Word32) (present : BitVec 16) (start : Start) (s : State) :
    Host.Outcome State Fault Refusal :=
  .next (s.attended fun t => if value = 1 then t.startUp .engineReset present start else t)

/-- DESK_BASE (R184, R199). -/
def execDeskBase (value : Word64) (s : State) : Host.Outcome State Fault Refusal :=
  .next (s.attended fun t => if t.engine = .recovering then t.takeBase value else (t.writeBase value).settle)

/-- SWEEP_PERIOD (R184, R185). -/
def execSweepPeriod (value : Word32) (s : State) : Host.Outcome State Fault Refusal :=
  .next (s.attended fun t => t.writePeriod value)

/-- NUDGE (R185): any value asks for a sweep. -/
def execNudge (_value : Word32) (s : State) : Host.Outcome State Fault Refusal := .next (s.attended State.requestSweep)

/-- SWEEP_TIMER_EXPIRY (R185). -/
def execSweepTimerExpiry (s : State) : Host.Outcome State Fault Refusal := .next (s.attended State.timerExpires)

/-- SWEEP (R186): steps 1 and 2, and, without quick slips, steps 4 to 6. -/
def execSweep (bus : Bus) (s : State) : Host.Outcome State Fault Refusal :=
  .next (s.commandedOn bus fun t => t.beginSweep.settleOps)

/-- FORMAT (R39). -/
def execFormat (bus : Bus) (s : State) : Host.Outcome State Fault Refusal :=
  .next (s.commandedOn bus fun t => t.formatBegin.settleOps)

/-- FORMAT_ERASE_COMPLETION (R40, R131, R132). -/
def execFormatEraseCompletion (lane : LaneNo) (ok : Bool) (bus : Bus) (s : State) : Host.Outcome State Fault Refusal :=
  .next (s.commandedOn bus fun t =>
    if t.engine = .formatting then
      match (bget t.lanes.lane lane).inProgress with
      | some (.erase n) =>
        (((if ok then t.mediaErase n else t).onLane lane (Lane.complete ok)).formatErased n ok).settleOps
      | _ => t
    else t)

/-- A microsecond in which no command comes: the sweep timer of a powered engine counts it, and a RECOVERING engine makes its next
restoration (R185, R197; logs 8 and 10). -/
def State.idle (s : State) : State := s.attended fun t => t.timerTick.restoreNext

end Sys2Proof.Machine
end

