-- ==== Sys2Proof/Machine/FeedCommands.lean ====
section
/-! DEFINITION. The commands of the ingest path: INGEST, the header, a record, a commit point, the coder's two commands. -/

namespace Sys2Proof.Machine

/-- INGEST (R43). -/
def execIngest (bus : Bus) (s : State) : Host.Outcome State Fault Refusal :=
  .next (s.commandedOn bus fun t => t.takeSlip.settle)

/-- HEADER_TAKE (R49, R50). -/
def execHeaderTake (chan : ChanNo) (bus : Bus) (s : State) : Host.Outcome State Fault Refusal :=
  .next (s.commandedOn bus fun t => (t.takeHeader chan).settle)

/-- RECORD_TAKE (R51). -/
def execRecordTake (chan : ChanNo) (bus : Bus) (s : State) : Host.Outcome State Fault Refusal :=
  .next (s.commandedOn bus fun t => (t.takeRecord chan).settle)

/-- COMMIT_POINT (R57, R59). -/
def execCommitPoint (chan : ChanNo) (bus : Bus) (s : State) : Host.Outcome State Fault Refusal :=
  .next (s.commandedOn bus fun t => (t.makeCommit chan).settle)

/-- CODING_COMPLETE (R114). -/
def execCodingComplete (s : State) : Host.Outcome State Fault Refusal :=
  .next (s.commanded fun t => t.codingDone.settle)

/-- SEGMENT_OPEN (R26). -/
def execSegmentOpen (s : State) : Host.Outcome State Fault Refusal :=
  .next (s.commanded fun t => t.openGranted.settle)

end Sys2Proof.Machine
end

