-- ==== Sys2Proof/Machine/LaneCommands.lean ====
section
/-! DEFINITION. The commands of the lanes: the end of a share window, the completions of a store, a fetch, an erase and a journal
write, and a lane going OFFLINE. The commands of erases and journal writes, which a recovery queues, act while RECOVERING too. -/

namespace Sys2Proof.Machine

/-- SHARE_WINDOW_END (R130). -/
def execShareWindowEnd (lane : LaneNo) (s : State) : Host.Outcome State Fault Refusal :=
  .next (s.laneEvent fun t => (t.onLane lane Lane.endWindow).settle)

/-- STORE_COMPLETION (R29, R30, R118, R119, R131, R132). -/
def execStoreCompletion (lane : LaneNo) (ok : Bool) (s : State) : Host.Outcome State Fault Refusal :=
  .next (s.commanded fun t =>
    match (bget t.lanes.lane lane).inProgress with
    | some (.store n offset buf bytes) =>
      (((if ok then t.mediaWrite n offset bytes else t).onLane lane (Lane.complete ok)).storeDone buf ok).settle
    | _ => t)

/-- LANE_OFFLINE (R133). -/
def execLaneOffline (lane : LaneNo) (bus : Bus) (s : State) : Host.Outcome State Fault Refusal :=
  .next (s.laneEventOn bus fun t => (t.goOffline lane).settleOps)

/-- The changes of stored bytes that a fetch may find, within the span it reads (R131). -/
def changedWithin (n offset length : Nat) (cells : List (Nat × Byte)) : List (Nat × Byte) :=
  cells.filter fun c => decide (State.mediaAt n offset ≤ c.1 ∧ c.1 < State.mediaAt n offset + length)

/-- FETCH_COMPLETION (R157, R131, R132). -/
def execFetchCompletion (lane : LaneNo) (outcome : Fetched) (bus : Bus) (s : State) : Host.Outcome State Fault Refusal :=
  .next (s.commandedOn bus fun t =>
    match (bget t.lanes.lane lane).inProgress with
    | some (.fetch n offset length r) =>
      match outcome with
      | .success cells =>
        let u := (t.onMedia (Memory.writeCells Config.mediaFill · (changedWithin n offset length cells))).onLane lane
          (Lane.complete true)
        (u.fetchDone r (.bytes (u.mediaRead n offset length))).settleOps
      | .mediaError => (((t.onLane lane (Lane.complete false)).markFault n).fetchDone r (.error offset)).settleOps
    | _ => t)

/-- ERASE_COMPLETION (R147, R34, R131, R132). -/
def execEraseCompletion (lane : LaneNo) (ok : Bool) (s : State) : Host.Outcome State Fault Refusal :=
  .next (s.laneEvent fun t =>
    if t.engine = .formatting then t
    else
      match (bget t.lanes.lane lane).inProgress with
      | some (.erase n) =>
        (((if ok then t.mediaErase n else t).onLane lane (Lane.complete ok)).eraseArrives n ok).settle
      | _ => t)

/-- JOURNAL_WRITE_COMPLETION (R179, R131, R132). -/
def execJournalWriteCompletion (lane : LaneNo) (ok : Bool) (bus : Bus) (s : State) : Host.Outcome State Fault Refusal :=
  .next (s.laneEventOn bus fun t =>
    match (bget t.lanes.lane lane).inProgress with
    | some (.journalWrite ext pos bytes) =>
      if ok then
        (((t.mediaWrite ext pos bytes).onLane lane (Lane.complete true)).settleRun.drainLine).settleOps
      else ((t.onLane lane (Lane.complete false)).failRun).settle
    | _ => t)

end Sys2Proof.Machine
end

