-- ==== Sys2Proof/Machine/Quick.lean ====
section
/-! DEFINITION. What each quick slip does: its refusals, its effect and its answer (CLOSE R32, RETAIN R142, CLASSMAP R139, HOLD
R149, RELEASE R150, CUT R93, EDITION-LOAD R95 and R96, CONTEXT-READ R82, CONTEXT-WRITE R83, JOURNAL-RELEASE R181, RESOLVE R167,
SETTINGS R140). -/

namespace Sys2Proof.Machine

/-! ## Edition tables (R96) -/

/-- The reasons of BAD-TABLE, in the order of R96, counted from 1. -/
inductive TableReason where
  | read | duplicate | length | digit
deriving DecidableEq, Repr

def TableReason.code : TableReason → Nat
  | .read => 1 | .duplicate => 2 | .length => 3 | .digit => 4

/-- The index of the first value that equals an earlier one. -/
def firstRepeat {α : Type} [DecidableEq α] (seen : List α) (i : Nat) : List α → Option Nat
  | [] => none
  | x :: xs => if x ∈ seen then some i else firstRepeat (x :: seen) (i + 1) xs

/-- The first prefix entry that breaks a rule, with the reason. -/
def firstBadPrefix (seen : List (List Nat)) (i : Nat) : List (Nat × List Nat) → Option (Nat × TableReason)
  | [] => none
  | (len, places) :: t =>
    if len < 3 ∨ 8 < len then some (i, .length)
    else if (places.take len).any fun d => decide (11 < d) then some (i, .digit)
    else if places.take len ∈ seen then some (i, .duplicate)
    else firstBadPrefix (places.take len :: seen) (i + 1) t

/-- The third test of R96 over the three tables: table, index, reason. The index counts from 0 (DESIGN CHOICE, log 41: R96 and the
answers' table give it no origin). -/
def badEntry (routes sites : List Nat) (prefixes : List (Nat × List Nat)) : Option (Nat × Nat × TableReason) :=
  match firstRepeat [] 0 routes with
  | some i => some (1, i, .duplicate)
  | none =>
    match firstRepeat [] 0 sites with
    | some i => some (2, i, .duplicate)
    | none => (firstBadPrefix [] 0 prefixes).map fun x => (3, x.1, x.2)

/-- A class map as eight 2-bit groups, class 0 lowest (R202). -/
def mapCode (v : Vector GroupNo 8) : Nat := (indices 8).foldr (fun c acc => (bget v c).val * 4 ^ c.val + acc) 0

/-- Eight groups from a parameter area. -/
def readClassMap (p : List Byte) : Vector GroupNo 8 :=
  (indices 8).foldl (fun v c => bset v c ⟨(p.getD c.val 0).toNat % 4, Nat.mod_lt _ (by decide)⟩) (Vector.replicate 8 0)

/-- A value held within bounds. -/
def clamp (lo hi v : Nat) : Nat := max lo (min hi v)

namespace State

/-- A quick slip's answer (R193). -/
def reply (a : Admitted) (st : Status) (values : List Byte) (s : State) : State := s.answer (some a.slip) st values

/-! ## CLOSE (R32) -/

/-- The FILLING segments that a CLOSE selects, in rising segment number. -/
def closeTargets (s : State) (all : Bool) (sw day : Nat) : List (Nat × Segment) :=
  s.fillings.filter fun x => x.2.key.day == day && (all || x.2.key.switch == sw)

def doClose (a : Admitted) (s : State) : State :=
  let all := flagSet (a.params.getD 2 0)
  let sw := field a.params 0 2
  if badSwitch all sw then s.reply a .badSwitch []
  else
    let ts := s.closeTargets all sw (field a.params 4 2)
    let freed := (ts.filter fun x => x.2.reserve == 0).length
    (closeAll .slip (ts.map Prod.fst) s).reply a .done (fours [ts.length - freed, freed])

/-! ## RETAIN, a shortening (R142) -/

def doShorten (a : Admitted) (s : State) : State :=
  if h : field a.params 0 1 < 4 then
    let g : GroupNo := ⟨field a.params 0 1, h⟩
    let old := (bget s.ret.groups g).days
    let new := field a.params 2 2
    (((s.onRet fun r => { r with groups := bmod r.groups g fun x => { x with days := new } }).log .retentionChanged .none
      g.val old new)).reply a .done (fours [old])
  else s.reply a .range []

/-! ## CLASSMAP (R139) -/

def doClassmap (a : Admitted) (s : State) : State :=
  if (a.params.take 8).any fun b => decide (3 < b.toNat) then s.reply a .range []
  else if s.anyOpen then s.reply a .busy []
  else
    let new := readClassMap a.params
    ((s.onRet fun r => { r with classMap := new }).log .classmapChanged .none (mapCode s.ret.classMap) (mapCode new) 0).reply a
      .done []

/-! ## HOLD and RELEASE (R149, R150) -/

/-- The ERASING segments that a hold covers. -/
def coveredErasing (s : State) (c : Selection) : List (Nat × Segment) :=
  s.cat.table.filterMap fun p =>
    match s.live? p.1 with
    | some (.erasing, g) => if c.covers g.key then some (p.1, g) else none
    | _ => none

/-- Each lane is asked to withdraw an erase: a WITHDRAWN segment becomes CLOSED again. The numbers withdrawn and not. -/
def withdrawErases : List (Nat × Segment) → State → State × Nat × Nat
  | [], s => (s, 0, 0)
  | (n, g) :: t, s =>
    if s.withdrawal n = .withdrawn then
      let x := withdrawErases t ((s.removeErase n).setContent n (.live .closed g))
      (x.1, x.2.1 + 1, x.2.2)
    else
      let x := withdrawErases t s
      (x.1, x.2.1, x.2.2 + 1)

def doHold (a : Admitted) (s : State) : State :=
  let h := readHold a.params
  if badSwitch h.2.all h.2.switch then s.reply a .badSwitch []
  else if h.2.badRange then s.reply a .range []
  else if s.ret.holds.any fun x => x.id == h.1 then s.reply a .duplicateHold []
  else if Config.holdsMax ≤ s.ret.holds.length then s.reply a .holdListFull []
  else
    let s1 := s.onRet fun r => { r with holds := r.holds ++ [{ id := h.1, cover := h.2, placed := s.ret.day }] }
    let x := withdrawErases (s1.coveredErasing h.2) s1
    (x.1.log .holdPlaced (.hold h.1) x.2.1 x.2.2 s.ret.day).reply a .done (fours [x.2.1, x.2.2])

def doRelease (a : Admitted) (s : State) : State :=
  let id : Word32 := BitVec.ofNat 32 (field a.params 0 4)
  match s.ret.holds.find? fun x => x.id == id with
  | none => s.reply a .notFound []
  | some h =>
    ((s.onRet fun r => { r with holds := r.holds.filter fun x => x.id != id }).log .holdReleased (.hold id) h.placed
      s.ret.day 0).reply a .done []

/-! ## CUT and EDITION-LOAD (R93, R95, R96) -/

/-- The answer to a cut or load, made or refused as full. -/
def replyEdition (a : Admitted) (x : State × Option (SlotNo × Word32)) : State :=
  match x.2 with
  | some (i, serial) =>
    let e := (bget x.1.eds.slots i).edition
    x.1.reply a .done (fours [i.val, serial.toNat, e.routes.length, e.sites.length, e.prefixes.length])
  | none => x.1.reply a .editionStoreFull (fours x.1.currentAnswer)

def doCut (a : Admitted) (s : State) : State := replyEdition a (s.cut .slip)

/-- Whether the bus read of a prefix entry fails: of its length byte, or of a byte that holds digit places below the length, of
which there are 8. Bytes 5 to 7 and the places beyond the length are not read (EDITION-LOAD entries; log 34). -/
def prefixFails (s : State) (a : Nat) : Bool :=
  let len := min (s.hostBytes a 1 |> leValue) 8
  s.readFails a 1 || (decide (0 < len) && s.readFails (a + 1) ((len + 1) / 2))

/-- The first of n entries whose bus read fails. -/
def failedEntry (fails : Nat → Bool) (n : Nat) : Option Nat := (List.range n).find? fails

/-- The second test of R96: table and index of the failing entry. The index counts from 0, and the tables are taken in the order
route, site, prefix, each from its first entry (DESIGN CHOICE, log 41: R96 gives this test no order and its index no origin). -/
def failedTable (s : State) (p : List Byte) : Option (Nat × Nat) :=
  match failedEntry (fun i => s.readFails (field p 0 8 + 2 * i) 2) (field p 8 2) with
  | some i => some (1, i)
  | none =>
    match failedEntry (fun i => s.readFails (field p 16 8 + 4 * i) 4) (field p 24 2) with
    | some i => some (2, i)
    | none => (failedEntry (fun i => s.prefixFails (field p 32 8 + 8 * i)) (field p 40 2)).map fun i => (3, i)

def doEditionLoad (a : Admitted) (s : State) : State :=
  let p := a.params
  if Config.tableMax < field p 8 2 ∨ Config.tableMax < field p 24 2 ∨ Config.tableMax < field p 40 2 then s.reply a .range []
  else
    match s.failedTable p with
    | some (t, i) => s.reply a .badTable (fours [t, i, TableReason.read.code])
    | none =>
      let routes := readValues 2 (field p 8 2) (s.hostBytes (field p 0 8) (2 * field p 8 2))
      let sites := readValues 4 (field p 24 2) (s.hostBytes (field p 16 8) (4 * field p 24 2))
      let prefixes := readPrefixes (field p 40 2) (s.hostBytes (field p 32 8) (8 * field p 40 2))
      match badEntry routes sites prefixes with
      | some (t, i, why) => s.reply a .badTable (fours [t, i, why.code])
      | none =>
        replyEdition a
          (s.install { routes := routes, sites := sites, prefixes := prefixes.map fun x => x.2.take x.1 } .load)

/-! ## CONTEXT-READ and CONTEXT-WRITE (R82, R83) -/

/-- CONTEXT-READ (R82). The expected number and the highest record day are written 0 where their present flag is clear (DESIGN
CHOICE, log 39: R82 gives that value for the oldest range alone). -/
def doContextRead (a : Admitted) (s : State) : State :=
  let sw := field a.params 0 2
  if badSwitch false sw then s.reply a .badSwitch []
  else
    let x := s.switchCtx sw
    let rs := s.rangesOf sw
    s.reply a .done
      (leBytes 1 x.state.code
        ++ leBytes 1 ((if x.expected.isSome then 1 else 0) + (if x.highDay.isSome then 2 else 0))
        ++ leBytes 4 ((x.expected.map BitVec.toNat).getD 0) ++ leBytes 2 (x.highDay.getD 0)
        ++ unsignedField 4 rs.length ++ leBytes 4 ((rs.head?.map fun r => r.first.toNat).getD 0)
        ++ leBytes 4 ((rs.head?.map Range.count).getD 0) ++ unsignedField 8 x.accepted ++ unsignedField 8 x.duplicates)

/-- The two actions, in the order of R83. -/
inductive CtxAction where
  | set | unseen
deriving DecidableEq, Repr

def CtxAction.ofCode : Nat → Option CtxAction
  | 1 => some .set | 2 => some .unseen | _ => none

def CtxAction.code : CtxAction → Nat
  | .set => 1 | .unseen => 2

/-- The context that an action leaves. -/
def CtxAction.apply (act : CtxAction) (e : SeqNo) (x : SwitchCtx) : SwitchCtx :=
  match act with
  | .set => { x with expected := some e, state := if x.state = .unseen then .idle else x.state }
  | .unseen => { x with state := .unseen, expected := none, register := none }

def doContextWrite (a : Admitted) (s : State) : State :=
  let sw := field a.params 0 2
  let abandon := flagSet (a.params.getD 3 0)
  let e : SeqNo := BitVec.ofNat 32 (field a.params 4 4)
  if badSwitch false sw then s.reply a .badSwitch []
  else if (s.switchCtx sw).state = .feeding then s.reply a .streamBusy []
  else
    match CtxAction.ofCode (field a.params 2 1) with
    | none => s.reply a .range []
    | some act =>
      if act = .set ∧ abandon = false ∧ ((s.rangesOf sw).any fun r => runHas r.first r.count e) then s.reply a .range []
      else
        let n := if abandon then (s.rangesOf sw).length else 0
        let s1 := if abandon then s.onRecon fun r => { r with gaps := r.gaps.filter fun x => x.switch != sw } else s
        ((s1.setSwitch sw (act.apply e (s1.switchCtx sw))).log .contextWritten (.switch sw) act.code
          (if act = .set then e.toNat else 0) n).reply a .done (fours [n])

/-! ## JOURNAL-RELEASE (R181) -/

/-- Room that is back at the reserve ends the waits of the scrub and of every pass (R177, R181). What each then judges at its cursor
is its next SCRUB_STEP or EXPIRY_PASS_STEP (DESIGN CHOICE, log 43). -/
def endRoomWaits (s : State) : State :=
  if s.hasReserve then
    let goOn := fun o : Op => { o with body := o.body.roomBack }
    (s.onScrub fun x => { x with awaitsRoom := false }).onExec fun e =>
      { e with running := e.running.map goOn, suspended := e.suspended.map goOn, waiting := e.waiting.map goOn }
  else s

/-- The release mark moves and ends the waits for room, the slip is answered, and then the waiting submissions for which there is
now room are taken (DESIGN CHOICE for that order, log 37). -/
def doJournalRelease (a : Admitted) (s : State) : State :=
  let t := (s.releaseTo (field a.params 0 8)).endRoomWaits
  (t.reply a .done (leBytes 8 t.jnl.release)).drainLine

/-! ## RESOLVE (R167) -/

def doResolve (a : Admitted) (s : State) : State :=
  let n := field a.params 0 4
  match s.live? n with
  | some (_, g) =>
    if g.mark = .suspect then
      ((s.onSegment n fun x => { x with mark := .unverified }).log .suspectResolved (.segment n) g.part g.fails 0).reply a .done
        (fours [g.fails])
    else s.reply a .notFound []
  | none => s.reply a .notFound []

/-! ## SETTINGS (R140) -/

def doSettings (a : Admitted) (s : State) : State :=
  let late := clamp 1 Config.lateWindowMax (field a.params 0 1)
  let gap := clamp 1 Config.gapHorizonMax (field a.params 2 2)
  let cut := flagSet (a.params.getD 1 0)
  let flag := if cut then 1 else 0
  ((s.onRet fun r => { r with lateWindow := late, gapHorizon := gap, autoCut := cut }).log .settingsChanged .none late gap
    flag).reply a .done (fours [late, flag, gap])

end State

end Sys2Proof.Machine
end

