-- ==== Sys2Proof/Machine/ServiceCommands.lean ====
section
/-! DEFINITION. The commands of the long operations, step by step, and of the scrub. -/

namespace Sys2Proof.Machine

/-- ADVANCE (R152): the first run. A suspension that was requested before it takes effect at its end, before segment 0, unless
DAY-ADVANCED waits in the line (DESIGN CHOICE, log 35). -/
def execAdvance (bus : Bus) (s : State) : Host.Outcome State Fault Refusal :=
  .next (s.commandedOn bus fun t =>
    match t.newRunning with
    | some o =>
      match o.body with
      | .advance d _ _ _ _ => ((t.advanceDay o d).firstPoint o).settleOps
      | _ => t
    | none => t)

/-- EXPIRE (R153): the first run begins a pass. A suspension requested before it takes effect before segment 0 (DESIGN CHOICE, log
35). -/
def execExpire (bus : Bus) (s : State) : Host.Outcome State Fault Refusal :=
  .next (s.commandedOn bus fun t =>
    match t.newRunning with
    | some o =>
      match o.body with
      | .expire _ =>
        (t.onRunning fun r => { r with begun := true, body := .expire Pass.start }).takeSuspension.settleOps
      | _ => t
    | none => t)

/-- EXPIRY_PASS_STEP (R145, R146). -/
def execExpiryPassStep (bus : Bus) (s : State) : Host.Outcome State Fault Refusal :=
  .next (s.commandedOn bus fun t => t.passStep.settleOps)

/-- RETAIN (R142, R143): the shortening at the front of the sweep's quick slips, or the first run of a lengthening's walk. A
suspension requested before it takes effect before segment 0 (DESIGN CHOICE, log 35). -/
def execRetain (bus : Bus) (s : State) : Host.Outcome State Fault Refusal :=
  .next (s.commandedOn bus fun t =>
    match t.frontQuick .retain with
    | some _ => t.runQuick .retain State.doShorten
    | none =>
      match t.newRunning with
      | some o =>
        match o.body with
        | .walk _ _ _ => (t.onRunning fun r => { r with begun := true }).takeSuspension.settleOps
        | _ => t
      | none => t)

/-- RETENTION_WALK_STEP (R143, R144). -/
def execRetentionWalkStep (bus : Bus) (s : State) : Host.Outcome State Fault Refusal :=
  .next (s.commandedOn bus fun t => t.walkStep.settleOps)

/-- VERIFY (R162): the first run. -/
def execVerify (bus : Bus) (s : State) : Host.Outcome State Fault Refusal :=
  .next (s.commandedOn bus fun t => t.verifyBegin.settleOps)

/-- VERIFY_CURSOR_STEP (R162). -/
def execVerifyCursorStep (bus : Bus) (s : State) : Host.Outcome State Fault Refusal :=
  .next (s.commandedOn bus fun t => t.verifyStep.settleOps)

/-- EXTRACT (R168, R170): the first run. -/
def execExtract (bus : Bus) (s : State) : Host.Outcome State Fault Refusal :=
  .next (s.commandedOn bus fun t => t.extractBegin.settleOps)

/-- EXTRACT_PART_STEP (R169). -/
def execExtractPartStep (bus : Bus) (s : State) : Host.Outcome State Fault Refusal :=
  .next (s.commandedOn bus fun t => t.extractStep.settleOps)

/-- CATALOG_READ (R37, R38): the first run. -/
def execCatalogRead (bus : Bus) (s : State) : Host.Outcome State Fault Refusal :=
  .next (s.commandedOn bus fun t => t.catalogBegin.settleOps)

/-- CATALOG_READ_STEP (R37). -/
def execCatalogReadStep (bus : Bus) (s : State) : Host.Outcome State Fault Refusal :=
  .next (s.commandedOn bus fun t => t.catalogStep.settleOps)

/-- JOURNAL_READ (R180): the first run. -/
def execJournalRead (bus : Bus) (s : State) : Host.Outcome State Fault Refusal :=
  .next (s.commandedOn bus fun t => t.journalBegin.settleOps)

/-- JOURNAL_READ_STEP (R180). -/
def execJournalReadStep (bus : Bus) (s : State) : Host.Outcome State Fault Refusal :=
  .next (s.commandedOn bus fun t => t.journalStep.settleOps)

namespace State

/-- A segment is due for scrub (R165). -/
def dueForScrub (s : State) (n : Nat) (st : LiveState) (g : Segment) : Bool :=
  checkable st g && s.isOnline (laneOf n)
    && (g.mark == .unverified
      || (g.mark == .verified && decide ((g.verified.getD 0) + s.scrub.period ≤ s.ret.day)))

/-- The scrub judges the segment at its cursor, or begins to wait there for journal room before one that is due (R165). -/
def scrubJudges (s : State) : State :=
  match s.live? s.scrub.cursor with
  | some (st, g) =>
    if s.dueForScrub s.scrub.cursor st g then
      if s.hasReserve then
        ((s.beginVisit .scrub s.scrub.cursor g).onScrub fun x => { x with state := .stepping }).verifyGo .scrub
      else s.onScrub fun x => { x with awaitsRoom := true }
    else s.scrubAdvance
  | none => s.scrubAdvance

/-- One step of the walking scrub. While it waits for journal room it judges nothing, whatever becomes of the segment at its cursor,
until room returns (R165). -/
def scrubStep (s : State) : State :=
  if s.scrubActive && s.scrub.state == .walking && !s.waits .scrub && !(s.scrub.awaitsRoom && !s.hasReserve) then
    (s.onScrub fun x => { x with awaitsRoom := false }).scrubJudges
  else s

end State

/-- SCRUB_STEP (R165, R166). -/
def execScrubStep (s : State) : Host.Outcome State Fault Refusal :=
  .next (s.commanded fun t => ({ t with fresh := t.fresh + 1 } : State).scrubStep.settle)

end Sys2Proof.Machine
end

