-- ==== Sys2Proof/Machine/SlipCommands.lean ====
section
/-! DEFINITION. The commands of the quick slips: each runs when its slip stands at the front of the sweep's quick slips (R189). -/

namespace Sys2Proof.Machine

/-- JOURNAL_RELEASE (R181). -/
def execJournalRelease (bus : Bus) (s : State) : Host.Outcome State Fault Refusal :=
  .next (s.commandedOn bus fun t => t.runQuick .journalRelease State.doJournalRelease)

/-- CLOSE (R32). -/
def execClose (bus : Bus) (s : State) : Host.Outcome State Fault Refusal :=
  .next (s.commandedOn bus fun t => t.runQuick .close State.doClose)

/-- CLASSMAP (R139). -/
def execClassmap (bus : Bus) (s : State) : Host.Outcome State Fault Refusal :=
  .next (s.commandedOn bus fun t => t.runQuick .classmap State.doClassmap)

/-- HOLD (R149). -/
def execHold (bus : Bus) (s : State) : Host.Outcome State Fault Refusal :=
  .next (s.commandedOn bus fun t => t.runQuick .hold State.doHold)

/-- RELEASE (R150). -/
def execRelease (bus : Bus) (s : State) : Host.Outcome State Fault Refusal :=
  .next (s.commandedOn bus fun t => t.runQuick .release State.doRelease)

/-- CUT (R93). -/
def execCut (bus : Bus) (s : State) : Host.Outcome State Fault Refusal :=
  .next (s.commandedOn bus fun t => t.runQuick .cut State.doCut)

/-- EDITION_LOAD (R95, R96). -/
def execEditionLoad (bus : Bus) (s : State) : Host.Outcome State Fault Refusal :=
  .next (s.commandedOn bus fun t => t.runQuick .editionLoad State.doEditionLoad)

/-- CONTEXT_READ (R82). -/
def execContextRead (bus : Bus) (s : State) : Host.Outcome State Fault Refusal :=
  .next (s.commandedOn bus fun t => t.runQuick .contextRead State.doContextRead)

/-- CONTEXT_WRITE (R83). -/
def execContextWrite (bus : Bus) (s : State) : Host.Outcome State Fault Refusal :=
  .next (s.commandedOn bus fun t => t.runQuick .contextWrite State.doContextWrite)

/-- RESOLVE (R167). -/
def execResolve (bus : Bus) (s : State) : Host.Outcome State Fault Refusal :=
  .next (s.commandedOn bus fun t => t.runQuick .resolve State.doResolve)

/-- SETTINGS (R140). -/
def execSettings (bus : Bus) (s : State) : Host.Outcome State Fault Refusal :=
  .next (s.commandedOn bus fun t => t.runQuick .settings State.doSettings)

end Sys2Proof.Machine
end

