-- ==== Sys2Proof/Machine/Dispatch.lean ====
section
/-! DEFINITION. What each command does: one arm for each row of spec/opcode_table.json. -/

namespace Sys2Proof.Machine

def exec (i : Instr) (s : State) : Host.Outcome State Fault Refusal :=
  match i with
  | .powerOn present start => Sys2Proof.Machine.execPowerOn present start s
  | .powerLoss => Sys2Proof.Machine.execPowerLoss s
  | .engineReset value present start => Sys2Proof.Machine.execEngineReset value present start s
  | .deskBase value => Sys2Proof.Machine.execDeskBase value s
  | .sweepPeriod value => Sys2Proof.Machine.execSweepPeriod value s
  | .nudge value => Sys2Proof.Machine.execNudge value s
  | .sweepTimerExpiry => Sys2Proof.Machine.execSweepTimerExpiry s
  | .sweep bus => Sys2Proof.Machine.execSweep bus s
  | .format bus => Sys2Proof.Machine.execFormat bus s
  | .formatEraseCompletion lane ok bus => Sys2Proof.Machine.execFormatEraseCompletion lane ok bus s
  | .ingest bus => Sys2Proof.Machine.execIngest bus s
  | .headerTake chan bus => Sys2Proof.Machine.execHeaderTake chan bus s
  | .recordTake chan bus => Sys2Proof.Machine.execRecordTake chan bus s
  | .commitPoint chan bus => Sys2Proof.Machine.execCommitPoint chan bus s
  | .codingComplete => Sys2Proof.Machine.execCodingComplete s
  | .segmentOpen => Sys2Proof.Machine.execSegmentOpen s
  | .shareWindowEnd lane => Sys2Proof.Machine.execShareWindowEnd lane s
  | .storeCompletion lane ok => Sys2Proof.Machine.execStoreCompletion lane ok s
  | .laneOffline lane bus => Sys2Proof.Machine.execLaneOffline lane bus s
  | .fetchCompletion lane outcome bus => Sys2Proof.Machine.execFetchCompletion lane outcome bus s
  | .eraseCompletion lane ok => Sys2Proof.Machine.execEraseCompletion lane ok s
  | .journalWriteCompletion lane ok bus => Sys2Proof.Machine.execJournalWriteCompletion lane ok bus s
  | .advance bus => Sys2Proof.Machine.execAdvance bus s
  | .expire bus => Sys2Proof.Machine.execExpire bus s
  | .expiryPassStep bus => Sys2Proof.Machine.execExpiryPassStep bus s
  | .retain bus => Sys2Proof.Machine.execRetain bus s
  | .retentionWalkStep bus => Sys2Proof.Machine.execRetentionWalkStep bus s
  | .verify bus => Sys2Proof.Machine.execVerify bus s
  | .verifyCursorStep bus => Sys2Proof.Machine.execVerifyCursorStep bus s
  | .extract bus => Sys2Proof.Machine.execExtract bus s
  | .extractPartStep bus => Sys2Proof.Machine.execExtractPartStep bus s
  | .catalogRead bus => Sys2Proof.Machine.execCatalogRead bus s
  | .catalogReadStep bus => Sys2Proof.Machine.execCatalogReadStep bus s
  | .journalRead bus => Sys2Proof.Machine.execJournalRead bus s
  | .journalReadStep bus => Sys2Proof.Machine.execJournalReadStep bus s
  | .journalRelease bus => Sys2Proof.Machine.execJournalRelease bus s
  | .close bus => Sys2Proof.Machine.execClose bus s
  | .classmap bus => Sys2Proof.Machine.execClassmap bus s
  | .hold bus => Sys2Proof.Machine.execHold bus s
  | .release bus => Sys2Proof.Machine.execRelease bus s
  | .cut bus => Sys2Proof.Machine.execCut bus s
  | .editionLoad bus => Sys2Proof.Machine.execEditionLoad bus s
  | .contextRead bus => Sys2Proof.Machine.execContextRead bus s
  | .contextWrite bus => Sys2Proof.Machine.execContextWrite bus s
  | .resolve bus => Sys2Proof.Machine.execResolve bus s
  | .settings bus => Sys2Proof.Machine.execSettings bus s
  | .scrubStep => Sys2Proof.Machine.execScrubStep s

end Sys2Proof.Machine
end

