-- ==== Sys2Proof/Safety.lean ====
section
/-! DEFINITION. What holds of every state a run should meet, in the terms the claims use: the registers' values, the memories'
form, the hold list, and the staging pool. -/

namespace Sys2Proof.Machine

/-- DESK BASE is a multiple of 4,096 (R184). -/
def State.baseLegal (s : State) : Bool := decide (s.desk.base.toNat % 4096 = 0)

/-- SWEEP PERIOD is 0, or from 100 to 10,000,000 (R184). -/
def State.periodLegal (s : State) : Bool :=
  decide (s.desk.period.toNat = 0 ∨ Config.periodMin ≤ s.desk.period.toNat ∧ s.desk.period.toNat ≤ Config.periodMax)

/-- The two registers hold values that R184 lets them hold. -/
def State.registersLegal (s : State) : Bool := s.baseLegal && s.periodLegal

/-- Host memory and the modules' bytes are in their one canonical form. -/
def State.memoriesWf (s : State) : Bool := Memory.wf Config.hostFill s.mem && Memory.wf Config.mediaFill s.media

/-- No two holds have one id. -/
def distinctIds : List Hold → Bool
  | [] => true
  | h :: t => (t.all fun x => x.id != h.id) && distinctIds t

/-- The hold list has at most 64 entries, each with an id of its own (R148, R149). -/
def State.holdsLegal (s : State) : Bool := decide (s.ret.holds.length ≤ Config.holdsMax) && distinctIds s.ret.holds

/-- The gap table has at most 4,096 ranges, none of them empty (R76). -/
def gapsLegal (g : List Range) : Bool := decide (g.length ≤ Config.gapTableMax) && g.all fun r => decide (0 < r.count)

/-- A state that keeps the invariants of the registers, the memories, the holds and the staging pool. -/
def State.safe (s : State) : Bool := s.registersLegal && s.memoriesWf && s.holdsLegal && s.pool.legal

end Sys2Proof.Machine
end

