-- ==== Sys2Proof/WellFormed.lean ====
section
/-! DEFINITION. Which commands are well formed: the operands that stand for the outside world name addresses that exist. -/

namespace Sys2Proof

/-- Host addresses are 64-bit (Shared-Memory Formats). -/
def hostEnd : Nat := 2 ^ 64

/-- One past the last byte of the sixteen modules, extent after extent (R16). -/
def mediaEnd : Nat := Config.segmentEnd * Config.extentBytes

/-- Every cell lies below an end. -/
def cellsBelow (limit : Nat) (cells : List (Nat × Byte)) : Bool := cells.all fun c => decide (c.1 < limit)

/-- The host writes addresses that exist, and a failing range is not empty and lies among them. -/
def Bus.wellFormed (b : Bus) : Bool :=
  cellsBelow hostEnd b.writes && b.fails.all fun r => decide (0 < r.2 ∧ r.1 + r.2 ≤ hostEnd)

/-- A module's changed bytes lie on a module. -/
def Fetched.wellFormed : Fetched → Bool
  | .success changed => cellsBelow mediaEnd changed
  | .mediaError => true

/-- What a command brings over the bus. -/
def Instr.bus? : Instr → Option Bus
  | .sweep b | .format b | .formatEraseCompletion _ _ b | .ingest b | .headerTake _ b | .recordTake _ b | .commitPoint _ b
  | .laneOffline _ b | .fetchCompletion _ _ b | .journalWriteCompletion _ _ b | .advance b | .expire b | .expiryPassStep b
  | .retain b | .retentionWalkStep b | .verify b | .verifyCursorStep b | .extract b | .extractPartStep b | .catalogRead b
  | .catalogReadStep b | .journalRead b | .journalReadStep b | .journalRelease b | .close b | .classmap b | .hold b
  | .release b | .cut b | .editionLoad b | .contextRead b | .contextWrite b | .resolve b | .settings b => some b
  | .powerOn _ _ | .powerLoss | .engineReset _ _ _ | .deskBase _ | .sweepPeriod _ | .nudge _ | .sweepTimerExpiry
  | .codingComplete | .segmentOpen | .shareWindowEnd _ | .storeCompletion _ _ | .eraseCompletion _ _ | .scrubStep => none

/-- The bytes a command says have changed on the modules. -/
def Instr.moduleCells : Instr → List (Nat × Byte)
  | .powerOn _ start => start.torn
  | .engineReset _ _ start => start.torn
  | .fetchCompletion _ (.success changed) _ => changed
  | .fetchCompletion _ .mediaError _ => []
  | .powerLoss | .deskBase _ | .sweepPeriod _ | .nudge _ | .sweepTimerExpiry | .sweep _ | .format _
  | .formatEraseCompletion _ _ _ | .ingest _ | .headerTake _ _ | .recordTake _ _ | .commitPoint _ _ | .codingComplete
  | .segmentOpen | .shareWindowEnd _ | .storeCompletion _ _ | .laneOffline _ _ | .eraseCompletion _ _
  | .journalWriteCompletion _ _ _ | .advance _ | .expire _ | .expiryPassStep _ | .retain _ | .retentionWalkStep _ | .verify _
  | .verifyCursorStep _ | .extract _ | .extractPartStep _ | .catalogRead _ | .catalogReadStep _ | .journalRead _
  | .journalReadStep _ | .journalRelease _ | .close _ | .classmap _ | .hold _ | .release _ | .cut _ | .editionLoad _
  | .contextRead _ | .contextWrite _ | .resolve _ | .settings _ | .scrubStep => []

/-- A command is well formed. -/
def Instr.wellFormed (i : Instr) : Bool :=
  ((i.bus?.map Bus.wellFormed).getD true) && cellsBelow mediaEnd i.moduleCells

end Sys2Proof
end

