-- ==== Sys2Proof/Certificates/Slice0/Obligations.lean ====
section
/-! DEFINITION. The statements about the engine: what each command does, what no command changes, and the invariants. -/

open Sys2Proof Sys2Proof.Machine

namespace Sys2Proof.Claims

/-- The engine at a command that brings `bus`. -/
def at_ (bus : Bus) (s : State) : State := s.onBus bus

/-- A powered engine that is not RECOVERING: the engine on which every command acts. Lane commands act on `s.laneActs = true`. -/
def Acts (s : State) : Prop := s.powered = true ∧ s.engine ≠ .recovering

/-- The commands that act in every engine state: the board's, the register writes and the sweep timer. -/
def alwaysActs : Instr → Bool
  | .powerOn .. | .powerLoss | .engineReset .. | .deskBase _ | .sweepPeriod _ | .nudge _ | .sweepTimerExpiry => true
  | _ => false

/-- The commands of the lanes that a recovery can give work. -/
def laneCommand : Instr → Bool
  | .shareWindowEnd _ | .laneOffline .. | .eraseCompletion .. | .journalWriteCompletion .. => true
  | _ => false

/-- A quick slip stands at the front of the sweep's quick slips of an engine that acts. -/
def Front (k : Kind) (a : Admitted) (s : State) : Prop := Acts s ∧ s.frontQuick k = some a

/-- The executor has nothing to choose: an operation runs, or none is suspended or waits. -/
def NoChoice (s : State) : Prop := s.exec.running.isSome = true ∨ s.pick = none

/-- No desk change waits for the sweep to end, and the executor has nothing to choose. -/
def Steady (s : State) : Prop := s.desk.baseWritten = false ∧ NoChoice s

/-- No stalled channel can be given a page: none waits for one, or all 8,192 are in use (R52, R54). -/
def NoneResumes (s : State) : Prop := s.feed.stalled = [] ∨ 8192 ≤ s.pool.pages.length

/-- The running operation has not yet first run. -/
def Fresh (o : Op) (s : State) : Prop := Acts s ∧ s.exec.running = some o ∧ o.begun = false ∧ s.exec.preempt = none

/-- The running operation has first run and has not ended; no suspension of it is asked for. -/
def Stepping (o : Op) (s : State) : Prop :=
  Acts s ∧ s.exec.running = some o ∧ o.begun = true ∧ o.ended = false ∧ o.stopping = false ∧ s.exec.preempt = none

/-- What lies outside the blocks that carry work: the board, the registers, the modules, the retention unit. -/
structure Kept (s t : State) : Prop where
  pending : t.pending = s.pending
  powered : t.powered = s.powered
  stamp : t.stamp = s.stamp
  engine : t.engine = s.engine
  base : t.desk.base = s.desk.base
  period : t.desk.period = s.desk.period
  media : t.media = s.media

/-- A byte of host memory. -/
def byteAt (s : State) (a : Nat) : Byte := Memory.byte Config.hostFill s.mem a

/-- An address outside the desk in use: its 8,320 bytes are the header and the 64 slips (The desk). -/
def OffDesk (s : State) (a : Nat) : Prop := a < s.desk.place ∨ s.desk.place + 8320 ≤ a

/-- The desk in use lies in the host's address space. -/
def DeskFits (s : State) : Prop := s.desk.place + 8320 ≤ 2 ^ 64

/-- The journal can take one entry at once. -/
def EntryFits (s : State) : Prop := s.jnl.line = [] ∧ s.jnl.buffer.length < 4096 ∧ 0 < s.room

/-- An entry has been taken by the journal, or waits in its line. -/
def Submitted (b : EntryBody) (s : State) : Prop :=
  (∃ e ∈ s.jnl.store, e.body = b) ∨ ∃ x ∈ s.jnl.line, b ∈ x.entries

/-- The channels of the feed unit other than one. -/
def OtherChans (c : ChanNo) (s t : State) : Prop := ∀ d, d ≠ c → t.chan d = s.chan d

/-- The free-space watch after it has judged the free count as it now stands: the side is what F and T give, and a change of side in
an enabled direction, and nothing else, advances FREE-WATCH (R35). -/
def Watched (s t : State) : Prop :=
  t.cat.watch = { s.cat.watch with low := decide (t.freeCount < t.threshold) } ∧
  bget t.desk.counters Counter.freeWatch.index = bget s.desk.counters Counter.freeWatch.index +
    (if t.cat.watch.low ≠ s.cat.watch.low ∧ (if t.cat.watch.low then s.cat.watch.falling else s.cat.watch.rising) = true
     then 1 else 0)

/-- The coder has a block in hand and a target or a segment being opened: it selects nothing. -/
def CoderHolds (s : State) : Prop := s.inHand.isSome = true ∧ s.cat.openReq = none

/-- The journal can take some entries, one after another, at once. -/
def EntriesFit (n : Nat) (s : State) : Prop := s.jnl.line = [] ∧ s.jnl.buffer.length + n ≤ 4096 ∧ n ≤ s.room

/-- The scrub, with the lap counts it has now, has given a verdict and goes on (R165, R166): to the next number, WALKING; or, past the
last, with SCRUB-LAP, the n-th entry of the event, RESTING at 0 where the journal takes the entries at once, and else WALKING as it
waits at the last number (log 36). -/
def ScrubMovesOn (now : Scrub) (n : Nat) (s t : State) : Prop :=
  let laps (x : State) := bget x.desk.counters Counter.scrubLaps.index
  (s.scrub.cursor + 1 < 262144 →
    t.scrub = { now with cursor := s.scrub.cursor + 1, state := .walking, visit := none }) ∧
  (262144 ≤ s.scrub.cursor + 1 →
    Submitted (EntryBody.mk0 .scrubLap .none now.checked now.failed (now.startDay.getD 0)) t ∧
    (EntriesFit n s → t.scrub = { now with cursor := 0, state := .resting, visit := none } ∧ laps t = laps s + 1) ∧
    (¬ EntriesFit n s → t.scrub = { now with state := .walking, visit := none } ∧ t.waits .scrub = true ∧ laps t = laps s))

/-- A sweep can begin that finds every slip but one FREE, not held and with its map entry clear; no read fails, no stalled channel can
be given a page, the executor has nothing to choose and no desk change waits. -/
def OneSlip (bus : Bus) (i : SlipNo) (s : State) : Prop :=
  s.powered = true ∧ s.sweepReady = true ∧ DeskFits s ∧ bus.fails = [] ∧ Memory.wf Config.hostFill s.mem = true ∧ Steady s ∧
  NoneResumes s ∧
  ∀ j, j ≠ i → bget s.desk.held j = .notHeld ∧ bget s.desk.map j = 0 ∧ byteAt (at_ bus s) (s.slipAt j) = markFree

/-- A slip has been answered, on the engine `u` (R193): it is let go; where the answer is dropped its map entry stays; otherwise the
entry is the status and, in a desk that lies in the address space, the mark is ANSWERED and the answer area holds the status and the
values. A channel that holds the same slip and waits for a page could write its drained mark there, and no run has one. -/
def Answered (u : State) (slip : Option SlipNo) (st : Status) (vs : List Byte) (t : State) : Prop :=
  ∀ i, slip = some i → bget t.desk.held i = .notHeld ∧
    (u.dropsAnswer i = true → bget t.desk.map i = bget u.desk.map i) ∧
    (u.dropsAnswer i = false → bget t.desk.map i = st.code ∧
      (DeskFits u → Memory.wf Config.hostFill u.mem = true → (∀ c ∈ u.feed.stalled, (u.chan c).slip ≠ some i) →
        byteAt t (u.slipAt i) = markAnswered ∧ t.hostBytes (u.answerAt i) 40 = answerBytes st vs))

/-- An operation that is chosen now goes on with no reading and does not end at once. -/
def GoesOnLater (q : Op) : Prop :=
  q.body.visit = none ∧ ∀ sel cursor c v, q.body = .verify sel cursor c v → cursor < 262144

/-- The operations beside one have numbers of their own, and none that is chosen when it ends resumes a reading or ends at once, so
that the choice changes the executor alone. -/
def QuietChoice (o : Op) (s : State) : Prop := ∀ q ∈ s.exec.suspended ++ s.exec.waiting, q.adm ≠ o.adm ∧ GoesOnLater q

/-- The end of the sweep under way changes nothing of its slips: no desk change waits for it, and an operation runs or none that is
chosen at its end resumes a reading or ends at once. -/
def Calm (s : State) : Prop :=
  s.desk.baseWritten = false ∧ (s.exec.running.isSome = true ∨
    ∀ q ∈ s.exec.suspended ++ s.exec.waiting ++ ((s.desk.sweep.map Sweep.long).getD []), GoesOnLater q)

/-- What a sweep has made of slip i, POSTED, not held and let in by the threshold (R188). A long operation has been handed over to an
executor whose operation runs, and runs at once on one that is idle (R190). -/
def PostedSlip (bus : Bus) (i : SlipNo) (s t : State) : Prop :=
  let u := at_ bus s
  let code := (byteAt u (s.slipAt i + 1)).toNat
  let status := bget t.desk.map i
  let free := bget t.desk.held i = .notHeld
  t.desk.nextAdm = s.desk.nextAdm + 1 ∧
  (Kind.ofCode code = none → status = Status.unknownKind.code ∧ byteAt t (s.slipAt i) = markAnswered ∧ free) ∧
  ∀ k, Kind.ofCode code = some k →
    let a : Admitted := { slip := i, prio := min (byteAt u (s.slipAt i + 2)).toNat 3, adm := s.desk.nextAdm, urgent := flagSet (byteAt u (s.slipAt i + 3)), kind := k, params := u.readParams k i }
    let quick := t.desk.sweep = some { quick := [a], long := [] }
    let handed (o : Op) := (s.exec.running.isSome = true → t.exec = (s.handOver o).exec) ∧
      (s.exec.running = none → t.exec = { s.exec with running := some o }) ∧ t.desk.sweep = none
    (∀ st, u.admissionRefusal k a.params = some st →
      status = st.code ∧ byteAt t (s.slipAt i) = markAnswered ∧ free ∧ t.exec = s.exec) ∧
    (u.admissionRefusal k a.params = none →
      status = 0 ∧ byteAt t (s.slipAt i) = markTaken ∧ bget t.desk.held i = .held ∧
      (k = .ingest → t.desk.list = insertBy Admitted.before a s.desk.list) ∧
      (k.cls = .quick → k ≠ .retain → quick) ∧
      (∀ b, k.body a.params = some b → handed (a.op b)) ∧
      (k = .retain → ∀ g : GroupNo, field a.params 0 1 = g.val →
        let old := (bget s.ret.groups g).days
        let new := field a.params 2 2
        (new ≤ old → quick ∧ t.ret = s.ret) ∧
        (old < new → handed (a.op (.walk g 0 0)) ∧
          t.ret = { s.ret with groups := bset s.ret.groups g { days := new, walk := some (old, new) } })))

/-- A request has joined the foreground queue of lane l, which was `old`, or is already granted from the front of it; and the lane has
made every grant that it can (R124, R126). -/
def JoinedFore (r : Request) (old : Lane) (l : LaneNo) (t : State) : Prop :=
  let now := bget t.lanes.lane l
  let q := old.foreQ ++ [r]
  (now.foreQ = q ∨ ∃ x, q = x :: now.foreQ ∧ now.inProgress = some x ∧ old.inProgress = none) ∧ Lane.grant t.lanes.share now = now

/-- The same of the background queue. -/
def JoinedBack (r : Request) (old : Lane) (l : LaneNo) (t : State) : Prop :=
  let now := bget t.lanes.lane l
  let q := old.backQ ++ [r]
  (now.backQ = q ∨ ∃ x, q = x :: now.backQ ∧ now.inProgress = some x ∧ old.inProgress = none) ∧ Lane.grant t.lanes.share now = now

/-- The fetch that a reader asks for, of a segment's bytes from an offset on: the next 1,048,576, or what is left of the read length
(R157). -/
def fetchOf (n offset length : Nat) (r : Reader) : Request := .fetch n offset (min 1048576 (length - offset)) r

/-- A switch selector and switch id that are not refused BAD-SWITCH (R32, R38, R149, R162, R168). -/
def GoodSwitch (all : Bool) (sw : Nat) : Prop := all = true ∨ sw ≤ 1023

/-- A selection that is not refused RANGE: its days in order, and one of the four groups' flags set (R38, R149, R162). -/
def GoodSelection (c : Selection) : Prop := c.first ≤ c.last ∧ ∃ g, g < 4 ∧ c.mask.getLsbD g = true

/-- Parameters of an EXTRACT that are not refused RANGE: a group's flag set, a capacity, a sequence range in order (R168). -/
def GoodExtract (p : ExtractParams) : Prop :=
  (∃ g, g < 4 ∧ p.mask.getLsbD g = true) ∧ p.capacity ≠ 0 ∧ ∀ a b, p.range = some (a, b) → a ≤ b

/-- Parameters of a FORMAT that are not refused RANGE (R39). -/
def GoodFormat (p : FormatParams) : Prop :=
  (∀ d ∈ p.days, 1 ≤ d ∧ d ≤ 16383) ∧ (1 ≤ p.window ∧ p.window ≤ 31) ∧ 1 ≤ p.horizon ∧ p.horizon ≤ 366

/-- What staging keeps of a page, whatever the standing of its places. -/
def staged (p : Page) : Page := { p with places := p.places.map fun x => { x with standing := .held } }

/-- Nothing has been tallied, staged or made to stall: the tallies and editions, the serial counter, the waiting order, the bindings
and every page as they were, but that the coder may have selected places; where it holds a block, not even that. -/
def NothingStaged (s t : State) : Prop :=
  t.eds = s.eds ∧ t.pool.serial = s.pool.serial ∧ t.pool.pages.map staged = s.pool.pages.map staged ∧
  t.feed.stalled = s.feed.stalled ∧ t.feed.bindings = s.feed.bindings ∧ (CoderHolds s → t.pool = s.pool ∧ t.coder = s.coder)

/-- The progress of an EXTRACT that begins at its resume point, in the segment it resumes in (R170). -/
def resumedAt (s : State) (p : ExtractParams) (blk i : Nat) (st : ExtractState) (n : Nat) (g : Segment) : ExtractState :=
  { st with groups := (State.maskGroups p.mask).filter fun q => decide (g.key.group < q),
            key := some (g.key.group, g.part + 1, ((s.dirEntry g.key).map DirEntry.highest).getD g.part),
            skip := some (blk, i), read := st.read + 1,
            visit := some { (State.newVisit n g) with asked := min 1048576 g.bytes, waiting := true } }

end Sys2Proof.Claims

open Sys2Proof.Claims

/-- O1. A step runs the command at the front of the queue. For every command c, queue rest and state s: a step of s
with c at the front of its queue is exec c on s with the queue's rest; with an empty queue it is one idle microsecond
of the sweep timer (the model's choice, log 8). (The row's queue (log 8)) -/
def Obligations.StepRunsTheFrontCommand : Prop :=
  (∀ (c : Instr) (rest : List Instr) (s : State),
    Machine.step { s with pending := c :: rest } = Machine.exec c { s with pending := rest }) ∧
  ∀ s : State, s.pending = [] → Machine.step s = .next s.idle

/-- O2. Every command answers a next state, with the queue of waiting commands as it was. For every command and every
state, exec answers a next state, so there is no fault and no refusal, and the queue of waiting commands in it is the
queue before. (00_scope.md, 95_what_each_step_holds.md, The row's queue (log 8)) -/
def Obligations.EveryCommandRuns : Prop :=
  ∀ (c : Instr) (s : State), ∃ t, Machine.exec c s = .next t ∧ t.pending = s.pending

/-- O3. The state after power-on without a stamp keeps the invariants. State.reset is BLANK with the stamp absent,
both registers 0, release, settled and head marks at 1, no hold, no usable extent, free count 0, notice counters 0,
and it meets the invariant that every step keeps. That no module answers is the model's choice (log 1). (R41, R155,
R183, R184, R195, R197) -/
def Obligations.ResetIsSafe : Prop :=
  State.reset.safe = true ∧ State.reset.engine = .blank ∧ State.reset.stamp = false ∧
  State.reset.readRegister .deskBase = 0 ∧ State.reset.readRegister .sweepPeriod = 0 ∧
  State.reset.jnl.head = 1 ∧ State.reset.jnl.release = 1 ∧ State.reset.jnl.settled = 1 ∧ State.reset.ret.holds = [] ∧
  State.reset.usableCount = 0 ∧ State.reset.freeCount = 0 ∧ ∀ c : Counter, bget State.reset.desk.counters c.index = 0

/-- O4. Every step keeps the registers legal, the memories canonical, the hold list and the staging pool legal. From
every state in which DESK BASE is a multiple of 4,096, SWEEP PERIOD is 0 or from 100 to 10,000,000, both memories are
in canonical form, the hold list has at most 64 holds with distinct ids, and the staging pool at most 8,192 pages in
use, in the order of their staging serials and below the serial counter, every step gives a state in which the same
holds. (R184, R148, R149, R150, R200, R131, R52) -/
def Obligations.EveryStepKeepsTheInvariant : Prop :=
  ∀ s t : State, s.safe = true → Machine.step s = .next t → t.safe = true

/-- O5. Only a write or a power-on changes a register, and only completions and lane starts change the modules. For
every state and every command: DESK BASE changes at no command but DESK_BASE and POWER_ON, and SWEEP PERIOD at none
but SWEEP_PERIOD and POWER_ON; an engine reset keeps both. The modules' bytes are unchanged by every command other
than POWER_ON, ENGINE_RESET and the completions of a store, a fetch, an erase, a FORMAT erase and a journal write.
(R131, R136, R184, R198) -/
def Obligations.RegistersAndModulesChangeAtTheirOwnCommands : Prop :=
  ∀ (c : Instr) (s t : State), Machine.exec c s = .next t →
    ((∀ v, c ≠ .deskBase v) → (∀ p b, c ≠ .powerOn p b) → t.desk.base = s.desk.base) ∧
    ((∀ v, c ≠ .sweepPeriod v) → (∀ p b, c ≠ .powerOn p b) → t.desk.period = s.desk.period) ∧
    ((∀ p b, c ≠ .powerOn p b) → (∀ v p b, c ≠ .engineReset v p b) → (∀ l k, c ≠ .storeCompletion l k) →
      (∀ l o b, c ≠ .fetchCompletion l o b) → (∀ l k, c ≠ .eraseCompletion l k) →
      (∀ l k b, c ≠ .formatEraseCompletion l k b) → (∀ l k b, c ≠ .journalWriteCompletion l k b) → t.media = s.media)

/-- O6. An engine without power, or a RECOVERING one, is left alone by every command that is not for it. For every
state without power and every command other than POWER_ON, and for every RECOVERING state and every command other than
POWER_ON, POWER_LOSS, ENGINE_RESET, DESK_BASE, SWEEP_PERIOD, NUDGE, SWEEP_TIMER_EXPIRY and, once the first restoration
has been made, SHARE_WINDOW_END, LANE_OFFLINE, ERASE_COMPLETION and JOURNAL_WRITE_COMPLETION, exec answers a state
that differs in nothing but host memory, which the host itself has written, the command's failing ranges and the
model's own counter. POWER_LOSS of a powered engine changes nothing but the power. That a command without power leaves
working state standing (log 17), and that no command other than those named has an occasion while RECOVERING (log 10),
are the model's choices. (R184, R185, R197) -/
def Obligations.WithoutPowerNothingChanges : Prop :=
  (∀ (c : Instr) (s : State),
    (s.powered = false ∧ ∀ p b, c ≠ .powerOn p b) ∨ (s.engine = .recovering ∧ alwaysActs c = false ∧
      (laneCommand c = true → s.recovery.made = 0)) →
    ∃ t, Machine.exec c s = .next t ∧ { t with mem := s.mem, fails := s.fails, fresh := s.fresh } = s ∧
      (c.bus? = none → t.mem = s.mem) ∧ ∀ b, c.bus? = some b → t.mem = (s.onBus b).mem) ∧
  ∀ s : State, Machine.exec .powerLoss s = .next { s with powered := false }

/-- O7. Power-on with the validity stamp absent makes the engine BLANK. For every state whose stamp is absent:
POWER_ON answers a powered BLANK engine with both registers 0, each lane ONLINE exactly where its module answers, its
queues empty, the share 0, F 0, no usable extent, the journal empty with its marks at 1, no hold, every channel FREE,
nothing in the executor, no slip held, the eight counters 0 and the notice gate CLOSED. (R41, R123, R128, R155, R183,
R184, R195, R196, R197) -/
def Obligations.PowerOnWithoutStampIsBlank : Prop :=
  ∀ (present : BitVec 16) (start : Start) (s : State), s.stamp = false →
    ∃ t, Machine.exec (.powerOn present start) s = .next t ∧ t.powered = true ∧ t.engine = .blank ∧ t.stamp = false ∧
      t.desk.base = 0 ∧ t.desk.period = 0 ∧ t.desk.place = 0 ∧
      (∀ l, bget t.lanes.lane l = Lane.start (present.getLsbD l.val)) ∧ t.onlineMask = present.toNat ∧ t.lanes.share = 0 ∧
      t.freeCount = 0 ∧ t.cat.usable = 0 ∧ t.jnl = Journal.blank ∧ t.ret = Retention.blank ∧ t.exec = Exec.blank ∧
      t.feed = Feed.blank ∧ t.recon = Recon.blank ∧ t.eds = Editions.blank ∧ (∀ i, bget t.desk.held i = .notHeld) ∧
      (∀ c : Counter, bget t.desk.counters c.index = 0) ∧ t.desk.gateOpen = false ∧ t.pending = s.pending

/-- O8. Power-on with the validity stamp present makes the engine RECOVERING and, its blocks restored, READY. For
every state whose stamp is present: POWER_ON answers a powered engine with the stamp present, both registers 0, each
lane ONLINE exactly where its module answers, the share 0, no slip held, an empty admission list, no sweep asked for,
the gate CLOSED, the next admission number 0, every channel FREE (R64), and the retention table, holds and settings as
retained memory held them (R154 step 1). Where all eight restorations are made in the step the engine is READY, the
executor holds no suspended operation and, running first and then waiting, exactly one walk from segment number 0,
without a slip and of priority 0, for each group whose walk is pending, in group order (R154 step 3), and no binding
is kept; where fewer are, it is RECOVERING with that many made. The journal keeps its release and settled marks and
its stored entries; with at least one restoration made, RESTART has been taken at the old head, with the cause
POWER-ON, the settled mark found and the number of entries that were unsettled, and RESTARTS has advanced by 1, where
the buffer and the window have room, and otherwise it waits first in the line. That a step may make fewer, and that a
binding is cleared when its entries are handed to the journal's line, are the model's choices (log 10). (R64, R123,
R128, R154, R183, R184, R188, R196, R197, log 10) -/
def Obligations.PowerOnWithStampRecovers : Prop :=
  ∀ (present : BitVec 16) (start : Start) (s : State), s.stamp = true →
    ∃ t, Machine.exec (.powerOn present start) s = .next t ∧ t.powered = true ∧ t.stamp = true ∧
      t.desk.base = 0 ∧ t.desk.period = 0 ∧ (∀ l, (bget t.lanes.lane l).online = present.getLsbD l.val) ∧
      t.lanes.share = 0 ∧ (∀ i, bget t.desk.held i = .notHeld) ∧ t.desk.list = [] ∧ t.desk.asked = false ∧
      t.desk.sweep = none ∧ t.desk.gateOpen = false ∧ t.desk.nextAdm = 0 ∧
      (∀ c, t.chan c = Channel.idle) ∧ t.ret = s.ret ∧ t.pending = s.pending ∧
      (start.made.val = 8 → t.engine = .ready ∧ (∀ c, bget t.feed.bindings c = none) ∧ t.exec.suspended = [] ∧
        (t.exec.running.toList ++ t.exec.waiting).map (fun o => (o.slip, o.prio, o.begun, o.body)) =
          ((indices 4).filter fun g => (bget s.ret.groups g).walk.isSome).map fun g => (none, 0, true, .walk g 0 0)) ∧
      (start.made.val ≠ 8 → t.engine = .recovering ∧ t.recovery = { cause := .powerOn, made := start.made.val }) ∧
      t.jnl.release = s.jnl.release ∧ t.jnl.settled = s.jnl.settled ∧ s.jnl.store <+: t.jnl.store ∧
      let restart := EntryBody.mk0 .restart .none 1 s.jnl.settled (s.jnl.head - s.jnl.settled)
      let fits := s.jnl.buffer.length < 4096 ∧ 0 < s.room
      (1 ≤ start.made.val → fits →
        (∃ e ∈ t.jnl.store, e.seq = s.jnl.head ∧ e.day = s.ret.day ∧ e.second = false ∧ e.body = restart) ∧
        bget t.desk.counters Counter.restarts.index = bget s.desk.counters Counter.restarts.index + 1) ∧
      (1 ≤ start.made.val → ¬ fits → (t.jnl.line.head?.map Submission.entries) = some [restart] ∧ t.jnl.store = s.jnl.store ∧
        bget t.desk.counters Counter.restarts.index = bget s.desk.counters Counter.restarts.index)

/-- O9. Recovery closes or frees what was FILLING, re-issues the erases, and restores staging, switches, slots and
pins. For every RECOVERING state whose segment table lists its records in rising order, the catalog's restoration
makes a FILLING segment with bytes CLOSED and the extent of one without FREE, keeps a CLOSED one, in each with no
store in flight and the reserve mark at the byte count, and keeps an ERASING one whose lane is ONLINE, its erase
queued again in the background (R42, R154 step 2); one whose lane is OFFLINE has its lane-fault flag set,
SEGMENT-EXPIRED with outcome ERASE-FAILED submitted, and its extent RETIRED with the erase count kept, or, where the
journal does not take the entry at once, still ERASING until it does (R134, R147). For every state, staging's
restoration leaves no place IN-FLIGHT, cuts every page that had an owner to its committed prefix, seals it and takes
its owner, keeps every other page's records and frees the pages then done, and leaves no binding (R64; log 10 for the
binding); every FEEDING switch becomes IDLE and no other context changes (R84); every slot's reference count is the
number of segments bound to it, a RETAINED slot of none becoming FREE (R100); and no segment is pinned (R172). The
eight restorations are made in the order journal, catalog, staging and feed, switches, editions, retention, audit,
coder, the last making the engine READY (R197), and after each every lane has made the grant that it can make (R126).
(R42, R64, R84, R100, R126, R134, R147, R154, R172, R197, log 10) -/
def Obligations.RecoveryRestoresTheBlocks : Prop :=
  (∀ s : State, s.engine = .recovering → rising s.cat.table = true →
    let t := s.recoverCatalog
    let kept (g : Segment) : Segment := { g with inFlight := 0, reserve := g.bytes }
    (∀ n g, s.live? n = some (.filling, g) → g.bytes ≠ 0 → t.live? n = some (.closed, kept g)) ∧
    (∀ n g, s.live? n = some (.filling, g) → g.bytes = 0 → (t.extent? n).map Extent.content = some .free) ∧
    (∀ n g, s.live? n = some (.closed, g) → t.live? n = some (.closed, kept g)) ∧
    ∀ n g, s.live? n = some (.erasing, g) → s.isOnline (laneOf n) = true →
      t.live? n = some (.erasing, kept g) ∧ .erase n ∈ (bget t.lanes.lane (laneOf n)).backQ) ∧
  (∀ (n : Nat) (e : Extent) (g : Segment) (s : State), s.engine = .recovering → rising s.cat.table = true →
    s.extent? n = some e → e.content = .live .erasing g → s.isOnline (laneOf n) = false →
    let t := s.recoverCatalog
    Submitted (EntryBody.mk0 .segmentExpired (.key g.key) n g.part 3) t ∧
    (t.extent? n = some { content := .retired, erases := e.erases, fault := true } ∨
      (t.extent? n = some { content := .live .erasing { g with inFlight := 0, reserve := g.bytes }, erases := e.erases, fault := true } ∧
        ∃ x ∈ t.jnl.line, x.entries = [EntryBody.mk0 .segmentExpired (.key g.key) n g.part 3] ∧ x.acts = [.eraseDone n false]))) ∧
  (∀ s : State,
    s.recoverFeed.pool.pages = (s.pool.pages.map State.recoverPage).filter (fun p => !p.done) ∧
    (∀ c, bget s.recoverFeed.feed.bindings c = none) ∧
    ∀ p : Page, (State.recoverPage p).owner = none ∧ (∀ x ∈ (State.recoverPage p).places, x.standing ≠ .inFlight) ∧
      (State.recoverPage p).key = p.key ∧ (State.recoverPage p).sealedUp = (p.sealedUp || p.owner.isSome) ∧
      (State.recoverPage p).places.map Place.data =
        (if p.owner.isSome then p.places.take p.committed else p.places).map Place.data) ∧
  (∀ (n : Nat) (s : State), s.recoverRecon.switchCtx n =
    { s.switchCtx n with state := if (s.switchCtx n).state = .feeding then .idle else (s.switchCtx n).state }) ∧
  (∀ (i : SlotNo) (s : State), bget s.recoverEditions.eds.slots i =
    if (bget s.eds.slots i).state = .retained ∧ s.boundTo i = 0 then EditionSlot.freeSlot
    else { bget s.eds.slots i with refs := s.boundTo i }) ∧
  (∀ (n : Nat) (st : LiveState) (g : Segment) (s : State), s.live? n = some (st, g) →
    s.recoverAudit.live? n = some (st, { g with pins := 0 })) ∧
  ∀ (l : LaneNo) (s : State), s.engine = .recovering →
    (let u : State := { s with recovery := { s.recovery with made := s.recovery.made + 1 } };
      (s.recovery.made = 0 → s.restoreNext = (u.recoverJournal s.recovery.cause).pump) ∧
      (s.recovery.made = 1 → s.restoreNext = u.recoverCatalog.pump) ∧
      (s.recovery.made = 2 → s.restoreNext = u.recoverFeed.pump) ∧
      (s.recovery.made = 3 → s.restoreNext = u.recoverRecon.pump) ∧
      (s.recovery.made = 4 → s.restoreNext = u.recoverEditions.pump) ∧
      (s.recovery.made = 5 → s.restoreNext = u.recoverRetention.pump) ∧
      (s.recovery.made = 6 → s.restoreNext = u.recoverAudit.pump) ∧
      (s.recovery.made = 7 → s.restoreNext = u.recoverCoder.pump ∧ s.restoreNext.engine = .ready)) ∧
    Lane.grant s.restoreNext.lanes.share (bget s.restoreNext.lanes.lane l) = bget s.restoreNext.lanes.lane l

/-- O10. A write of 1 to ENGINE CONTROL resets the engine in any state and keeps the registers. For every powered
state, RECOVERING ones among them: ENGINE_RESET with the value 1 answers an engine that is BLANK where the stamp is
absent, and where it is present READY with all eight restorations made in the step and RECOVERING with fewer (log 10),
with DESK BASE and SWEEP PERIOD kept, the timer at 0, no sweep pending, no slip held, the share 0 and each lane ONLINE
exactly where its module answers. With the stamp absent the eight notice counters stand as they were left. With the
stamp present, at least one restoration made and room in the journal, RESTART has been taken at the old head, with the
cause ENGINE-RESET, the settled mark found and the number of entries that were unsettled, so a reset taken while
RECOVERING takes a second one. With any other value nothing changes. (R184, R198, R41, R183, R185, R128, R195, log 10)
-/
def Obligations.EngineResetKeepsRegisters : Prop :=
  ∀ (v : Word32) (present : BitVec 16) (start : Start) (s : State), s.powered = true →
    (v ≠ 1 → Machine.exec (.engineReset v present start) s = .next s) ∧
    (v = 1 → ∃ t, Machine.exec (.engineReset v present start) s = .next t ∧
      t.engine = (if s.stamp then (if start.made.val = 8 then .ready else .recovering) else .blank) ∧
      t.stamp = s.stamp ∧ t.powered = true ∧ t.desk.base = s.desk.base ∧
      t.desk.period = s.desk.period ∧ t.desk.timer = 0 ∧ t.desk.asked = false ∧ t.desk.sweep = none ∧
      (∀ i, bget t.desk.held i = .notHeld) ∧ t.lanes.share = 0 ∧
      (∀ l, (bget t.lanes.lane l).online = present.getLsbD l.val) ∧
      (s.stamp = false → t.desk.counters = s.desk.counters ∧ t.desk.kept = s.desk.counters) ∧
      (s.stamp = true → 1 ≤ start.made.val → s.jnl.buffer.length < 4096 → 0 < s.room →
        ∃ e ∈ t.jnl.store, e.seq = s.jnl.head ∧
          e.body = EntryBody.mk0 .restart .none 2 s.jnl.settled (s.jnl.head - s.jnl.settled)))

/-- O11. The five registers behave as R184 and their fields give, and the timer and NUDGE ask for sweeps. For every
powered state: DESK BASE is read back rounded down to a multiple of 4,096, SWEEP PERIOD as 0, 100, 10,000,000 or the
value written; a NUDGE asks for a sweep where there is a desk; NUDGE and ENGINE CONTROL read 0; ENGINE STATE shows the
state in bits 0 to 7, the online-lane mask in 16 to 31, the product code in 32 to 47 and the revision in 48 to 55 (its
value, and that the unnamed bits 8 to 15 and 56 to 63 read 0, are the model's choices, log 4); a write of 1 to ENGINE
CONTROL starts the engine reset and other values change nothing; power-on clears DESK BASE and SWEEP PERIOD and an
engine reset keeps them. A write of SWEEP PERIOD restarts the count from 0 and asks for nothing; a NUDGE leaves the
timer; a timer expiry counts again from 0 and asks for a sweep; while DESK BASE is 0 the request is discarded; while
SWEEP PERIOD is 0 the timer does not count; an idle microsecond counts 1 or, at the period, expires. Nothing else
changes at these. While RECOVERING a request is remembered all the same, no sweep can begin, and an idle microsecond
also makes the next restoration. That a step on an empty queue is one microsecond, that SWEEP_TIMER_EXPIRY comes at
any count (log 8), and that a microsecond makes one restoration (log 10) are the model's choices. (R184, R185, R197,
Register fields (12_shared_memory_formats.md), log 4, log 8, log 10) -/
def Obligations.RegistersBehaveAsTheTable : Prop :=
  ∀ s : State, s.powered = true →
    (∀ v, ∃ t, Machine.exec (.deskBase v) s = .next t ∧ t.readRegister .deskBase = v.toNat / 4096 * 4096) ∧
    (∀ v, ∃ t, Machine.exec (.sweepPeriod v) s = .next t ∧
      t = { s with desk := { s.desk with period := State.takenPeriod v, timer := 0 } } ∧
      t.readRegister .sweepPeriod =
        (if v.toNat = 0 then 0 else if v.toNat < 100 then 100 else if 10000000 < v.toNat then 10000000 else v.toNat)) ∧
    (∀ v, s.desk.base ≠ 0 → Machine.exec (.nudge v) s = .next { s with desk := { s.desk with asked := true } }) ∧
    (∀ v, s.desk.base = 0 → Machine.exec (.nudge v) s = .next s) ∧
    s.readRegister .nudge = 0 ∧ s.readRegister .engineControl = 0 ∧
    s.readRegister .engineState % 2 ^ 16 = s.engine.code ∧
    s.readRegister .engineState / 2 ^ 16 % 2 ^ 16 = s.onlineMask ∧
    (∀ l : LaneNo, s.onlineMask.testBit l.val = (bget s.lanes.lane l).online) ∧
    s.readRegister .engineState / 2 ^ 32 % 2 ^ 16 = 0x2460 ∧
    s.readRegister .engineState / 2 ^ 48 = Config.revision.toNat ∧
    (∀ p b, ∃ t, Machine.exec (.powerOn p b) s = .next t ∧ t.readRegister .deskBase = 0 ∧ t.readRegister .sweepPeriod = 0) ∧
    (∀ v p b, ∃ t, Machine.exec (.engineReset v p b) s = .next t ∧ t.readRegister .deskBase = s.readRegister .deskBase ∧
      t.readRegister .sweepPeriod = s.readRegister .sweepPeriod ∧ (v ≠ 1 → t = s) ∧
      (v = 1 → t = s.startUp .engineReset p b)) ∧
    (s.desk.period ≠ 0 → s.desk.base ≠ 0 →
      Machine.exec .sweepTimerExpiry s = .next { s with desk := { s.desk with timer := 0, asked := true } }) ∧
    (s.desk.period ≠ 0 → s.desk.base = 0 →
      Machine.exec .sweepTimerExpiry s = .next { s with desk := { s.desk with timer := 0 } }) ∧
    (s.desk.period = 0 → Machine.exec .sweepTimerExpiry s = .next s) ∧
    (s.engine = .recovering → s.sweepReady = false ∧ s.idle = s.timerTick.restoreNext) ∧
    (s.engine ≠ .recovering →
      (s.desk.period = 0 → s.idle = s) ∧
      (s.desk.period ≠ 0 → s.desk.timer + 1 < s.desk.period.toNat →
        s.idle = { s with desk := { s.desk with timer := s.desk.timer + 1 } }) ∧
      (s.desk.period ≠ 0 → s.desk.period.toNat ≤ s.desk.timer + 1 → s.idle = s.timerExpires))

/-- O12. A write of DESK BASE aborts the open files and lets every slip of the former desk go. For every powered state
that is not RECOVERING, with no sweep under way: DESK_BASE answers an engine whose desk is the written address rounded
down, with an empty admission list, no slip held, the next sweep a first sweep, and every operation of the executor
detached from its slip and otherwise as it was (R199 for READY; for BLANK and FORMATTING it names the detaching alone,
and the rest is log 24's reading). A channel in HEADER, RUNNING or STALLED that is not yet closing is FREE where it
has no file; with a file it is FREE, or has lost its slip and waits with its FILE-ABORTED entries to end without an
answer, its switch is not FEEDING, no page is its own any more, and a READY engine has submitted the FILE-ABORTED pair
with its committed copy and cause DESK-CHANGE. A channel in ENDING loses its slip alone. With a sweep under way only
the register changes and the change is noted. The retention unit, the editions, the scrub, the stamp, the engine state
and the modules are unchanged in both. While RECOVERING the desk in use becomes the new address at once (log 10).
(R59, R60, R61, R184, R199, log 24, log 10) -/
def Obligations.DeskChangeLetsEverySlipGo : Prop :=
  ∀ (v : Word64) (s : State), s.powered = true →
    (s.engine = .recovering → Machine.exec (.deskBase v) s = .next { s with desk := { s.desk with base := State.takenBase v, place := (State.takenBase v).toNat, asked := s.desk.asked && State.takenBase v != 0 } }) ∧
    (s.engine ≠ .recovering → ∃ t, Machine.exec (.deskBase v) s = .next t ∧ t.desk.base = State.takenBase v ∧
      t.ret = s.ret ∧ t.eds = s.eds ∧ t.scrub = s.scrub ∧ t.stamp = s.stamp ∧ t.engine = s.engine ∧ t.media = s.media ∧
      t.pending = s.pending ∧ t.desk.period = s.desk.period ∧
      (s.desk.sweep = none → t.desk.place = t.desk.base.toNat ∧ t.desk.list = [] ∧ (∀ i, bget t.desk.held i = .notHeld) ∧
        t.desk.first = true ∧ t.exec = (let off := fun o : Op => { o with slip := none }
        { s.exec with running := s.exec.running.map off, suspended := s.exec.suspended.map off, waiting := s.exec.waiting.map off }) ∧
        (∀ c, (s.chan c).state = .ending → t.chan c = { s.chan c with slip := none }) ∧
        ∀ c, ((s.chan c).state = .header ∨ (s.chan c).state = .running ∨ (s.chan c).state = .stalled) →
          (s.chan c).closing = .none →
          ((s.chan c).file = none → t.chan c = Channel.idle) ∧
          ∀ f, (s.chan c).file = some f →
            (t.chan c = Channel.idle ∨ ((t.chan c).closing = .silent ∧ (t.chan c).slip = none)) ∧
            (t.switchCtx f.switch).state ≠ .feeding ∧ (∀ p ∈ t.pool.pages, p.owner ≠ some c) ∧
            (s.engine = .ready → ∀ b ∈ abortedPair f.switch (s.committed c) .deskChange, Submitted b t)) ∧
      (s.desk.sweep ≠ none → t.desk.place = s.desk.place ∧ t.desk.baseWritten = true ∧ t.exec = s.exec ∧ t.recon = s.recon))

/-- O13. A sweep of a desk whose slips are all FREE takes the header, writes the engine fields and opens the gate. For
every powered state with a sweep asked for and none under way, a desk in use that lies in the address space, no
failing read, no slip held, every mark FREE, a clear answer map, not the first sweep, and the executor having nothing
to choose (an operation runs, or none is suspended or waits): SWEEP answers a state in which no sweep is asked for or
under way, the current share is the header's value or at most 1023, the admission threshold and the notice enable mask
are the header's, the watch's level is the header's or at most 15 and its edge the header's, its side the one that F
and the new T give where the level differs from the one held and otherwise as it was, FREE-WATCH not advancing in
either case; scrub enable and the scrub period (0 taken as 1) are the header's, and a lap begins exactly where the
scrub is then active and RESTING with a start day of none or below D, all else of the scrub as it was. The archive
day, the pages in use and the free count stand in the engine fields of the header, and every byte outside the desk is
as the host left it. Where no stalled channel can be given a page (none is stalled, or all 8,192 pages are in use) and
the coder has nothing to select, the executor and the channels are unchanged and the gate opens: where a counter that
the header enables differs from its kept value one message goes, the gate is CLOSED and keeps all eight; otherwise it
is OPEN, with no message. (R35, R36, R128, R164, R186, R195, R196) -/
def Obligations.SweepOfAQuietDesk : Prop :=
  ∀ (bus : Bus) (s : State), s.powered = true → s.sweepReady = true → DeskFits s → bus.fails = [] →
    Memory.wf Config.hostFill s.mem = true → s.desk.first = false → Steady s →
    (∀ i, bget s.desk.held i = .notHeld) → (∀ i, bget s.desk.map i = 0) →
    (∀ i, byteAt (at_ bus s) (s.slipAt i) = markFree) →
    let h := (at_ bus s).hostBytes s.desk.place 8
    let sc : Scrub := { s.scrub with enable := flagSet (h.getD 6 0), period := max (field h 7 1) 1 }
    let begins := s.engine = .ready ∧ sc.enable = true ∧ sc.state = .resting ∧ ∀ d, sc.startDay = some d → d < s.ret.day
    let differs := ∃ c : Counter, (h.getD 1 0).getLsbD c.index.val = true ∧ bget s.desk.counters c.index ≠ bget s.desk.kept c.index
    ∃ t, Machine.exec (.sweep bus) s = .next t ∧ t.desk.asked = false ∧ t.desk.sweep = none ∧
      t.lanes.share = min (field h 2 2) 1023 ∧ t.desk.threshold = min (field h 0 1) 3 ∧
      t.desk.enable = byteAt (at_ bus s) (s.desk.place + 1) ∧
      t.cat.watch.level = min (field h 4 1) 15 ∧ t.cat.watch.falling = (h.getD 5 0).getLsbD 0 ∧
      t.cat.watch.rising = (h.getD 5 0).getLsbD 1 ∧
      (t.cat.watch.level = s.cat.watch.level → t.cat.watch.low = s.cat.watch.low) ∧
      (t.cat.watch.level ≠ s.cat.watch.level →
        t.cat.watch.low = decide (s.freeCount < t.cat.watch.level * s.usableCount / 16)) ∧
      bget t.desk.counters Counter.freeWatch.index = bget s.desk.counters Counter.freeWatch.index ∧
      (begins → t.scrub = { sc with cursor := 0, checked := 0, failed := 0, startDay := some s.ret.day, state := .walking }) ∧
      (¬ begins → t.scrub = sc) ∧
      t.hostBytes (s.desk.place + 8) 8 =
        leBytes 2 s.ret.day ++ unsignedField 2 s.pagesInUse ++ unsignedField 4 s.freeCount ∧
      (∀ a, OffDesk s a → byteAt t a = byteAt (at_ bus s) a) ∧ t.ret = s.ret ∧ t.recon = s.recon ∧ Kept s t ∧
      (NoneResumes s → s.coderNext = none → t.desk.counters = s.desk.counters ∧ t.exec = s.exec ∧ t.feed = s.feed ∧
        (differs → t.desk.messages = s.desk.messages + 1 ∧ t.desk.gateOpen = false ∧ t.desk.kept = s.desk.counters) ∧
        (¬ differs → t.desk.messages = s.desk.messages ∧ t.desk.gateOpen = true ∧ t.desk.kept = s.desk.kept))

/-- O14. A sweep admits a posted slip, notes a withdrawal, reads a ring's marks again, and rebuilds the map at a first
sweep. For every powered state whose sweep can begin and finds every slip but i FREE, not held, its map entry clear,
no read failing, no channel stalled or no page FREE, an operation running or none to choose, and no desk change
waiting, SWEEP answers a state in which none is asked for. Not the first sweep, slip i not held: a map entry that is
set stays exactly where the mark is ANSWERED; another mark, and a POSTED slip kept out by the threshold, stays and is
not held. A POSTED slip that it lets in takes the count as its admission number, which then rises by 1 without a bound
(the model's choices, logs 40 and 38): a code of no kind is answered UNKNOWN-KIND, one that admission refuses so;
otherwise it is TAKEN and held: INGEST is listed, a quick slip waits alone in the sweep for its command (the model's
choice, log 14), a long one is handed over where one runs and runs at once where none does, and a lengthening RETAIN
has set its group's count and mark. Slip i held, its mark not TAKEN: the withdrawal is noted. A slip of the admission
list leaves it and is released; so does a cancellable operation that waits or is suspended, its pin released, and a
running VERIFY or EXTRACT without an outstanding fetch (the model's points, log 15); another running cancellable one
is to stop; any other runs on. Its open channel is FREE without a file, the slip released; with one its switch is not
FEEDING, no page is its own, it waits for none (R54), and a READY engine has submitted FILE-ABORTED with cause
WITHDRAWN; one in ENDING or being closed goes on. Slip i held, its mark TAKEN: one of no channel, or of one in ENDING
or being closed, stays as it is; of any other the filled mark and final fields are taken, or, at a ring fault, the
file is aborted with that cause, the slip of a channel without a file being answered RING-FAULT. At a first sweep a
TAKEN slip that is not held is answered RESTARTED, an ANSWERED slip's entry is the status in its answer area, and
every other is clear. (R46, R54, R60, R62, R141, R186, R187, R188, R190, R192, logs 14, 15, 38 and 40) -/
def Obligations.SweepDealsWithTheMarks : Prop :=
  ∀ (bus : Bus) (i : SlipNo) (s : State), OneSlip bus i s →
    let u := at_ bus s
    let m := byteAt u (s.slipAt i)
    let h := u.hostBytes s.desk.place 8
    let prio := min (byteAt u (s.slipAt i + 2)).toNat 3
    let enters := min (field h 0 1) 3 = 0 ∨ prio < min (field h 0 1) 3
    let was := bget s.desk.held i
    ∃ t, Machine.exec (.sweep bus) s = .next t ∧ t.desk.asked = false ∧ t.desk.first = (s.desk.first && t.desk.sweep.isSome) ∧
      let status := bget t.desk.map i
      let free := bget t.desk.held i = .notHeld
      (s.desk.first = false → was = .notHeld → (m ≠ markPosted ∨ ¬ enters) →
        byteAt t (s.slipAt i) = m ∧ free ∧ t.desk.list = s.desk.list ∧ t.exec = s.exec ∧ t.desk.sweep = none ∧
        status = if m = markAnswered then bget s.desk.map i else 0) ∧
      (s.desk.first = false → was = .notHeld → m = markPosted → enters → PostedSlip bus i s t) ∧
      (s.desk.first = false → was = .held → m ≠ markTaken → (m = markAnswered ∨ status = 0) ∧
        ((∃ a ∈ s.desk.list, a.slip = i) → free ∧ t.desk.list = s.desk.list.filter fun a => a.slip != i) ∧
        ((∀ a ∈ s.desk.list, a.slip ≠ i) → t.desk.list = s.desk.list ∧
          (s.chanOfSlip i = none →
            (∀ o, ((s.exec.waiting ++ s.exec.suspended).find? fun o => o.slip == some i) = some o →
              (o.body.cancellable = true → free ∧ t.exec.running = s.exec.running ∧
                t.exec.waiting = (s.exec.waiting.filter fun x => x.adm != o.adm) ∧
                t.exec.suspended = (s.exec.suspended.filter fun x => x.adm != o.adm) ∧
                ∀ v st g, o.body.visit = some v → s.live? v.seg = some (st, g) →
                  t.live? v.seg = some (st, { g with pins := g.pins - 1 })) ∧
              (o.body.cancellable = false → bget t.desk.held i = .withdrawn ∧ t.exec = s.exec)) ∧
            (((s.exec.waiting ++ s.exec.suspended).find? fun o => o.slip == some i) = none →
              ∀ r, s.exec.running = some r → r.slip = some i →
                (r.body.cancellable = true → r.body.fetches = true → r.fetching = false →
                  free ∧ (s.exec.suspended = [] → s.exec.waiting = [] → t.exec.running = none)) ∧
                (r.body.cancellable = true → (r.body.fetches = false ∨ r.fetching = true) →
                  bget t.desk.held i = .withdrawn ∧ t.exec = { s.exec with running := some { r with stopping := true } }) ∧
                (r.body.cancellable = false → bget t.desk.held i = .withdrawn ∧ t.exec = s.exec))) ∧
          ∀ c, s.chanOfSlip i = some c → t.exec = s.exec ∧
            ((s.chan c).state = .ending ∨ (s.chan c).closing ≠ .none →
              t.feed = s.feed ∧ t.recon = s.recon ∧ bget t.desk.held i = .withdrawn) ∧
            ((s.chan c).state ≠ .ending → (s.chan c).closing = .none →
              ((s.chan c).file = none → t.chan c = Channel.idle ∧ bget t.feed.bindings c = none ∧ free) ∧
              ∀ f, (s.chan c).file = some f → (t.switchCtx f.switch).state ≠ .feeding ∧
                (∀ p ∈ t.pool.pages, p.owner ≠ some c) ∧ c ∉ t.feed.stalled ∧
                (s.engine = .ready → (∀ b ∈ abortedPair f.switch (s.committed c) .withdrawn, Submitted b t) ∧
                  (EntriesFit 3 s → t.chan c = Channel.idle ∧ bget t.feed.bindings c = none ∧ free))))) ∧
      (s.desk.first = false → was = .held → m = markTaken → t.exec = s.exec ∧ t.desk.list = s.desk.list ∧
        ((s.chanOfSlip i = none ∨ ∃ c, s.chanOfSlip i = some c ∧ ((s.chan c).state = .ending ∨ (s.chan c).closing ≠ .none)) →
          t.feed = s.feed ∧ bget t.desk.held i = .held ∧ byteAt t (s.slipAt i) = markTaken ∧ status = 0) ∧
        ∀ c, s.chanOfSlip i = some c → (s.chan c).state ≠ .ending → (s.chan c).closing = .none →
          let r := readMarks (u.hostBytes (s.paramsAt i) 56)
          (marksFault (s.chan c) r = false → r.final = false →
            t.chan c = { s.chan c with filledSeen := r.filled } ∧ bget t.desk.held i = .held) ∧
          (marksFault (s.chan c) r = false → r.final = true → (s.chan c).file = none → 64 ≤ r.total →
            t.chan c = { s.chan c with filledSeen := r.filled, finalTotal := some r.total } ∧ bget t.desk.held i = .held) ∧
          (marksFault (s.chan c) r = false → r.final = true → (s.chan c).file = none → r.total < 64 →
            t.chan c = Channel.idle ∧ status = Status.badHeader.code ∧ free) ∧
          (marksFault (s.chan c) r = true →
            ((s.chan c).file = none → t.chan c = Channel.idle ∧ status = Status.ringFault.code ∧ free) ∧
            ∀ f, (s.chan c).file = some f → (t.switchCtx f.switch).state ≠ .feeding ∧
              (∀ p ∈ t.pool.pages, p.owner ≠ some c) ∧ c ∉ t.feed.stalled ∧
              (s.engine = .ready → (∀ b ∈ abortedPair f.switch (s.committed c) .ringFault, Submitted b t) ∧
                (EntriesFit 3 s → t.chan c = Channel.idle ∧ status = Status.ringFault.code ∧ free)))) ∧
      (s.desk.first = true → was = .notHeld → m ≠ markPosted →
        (m = markTaken → status = Status.restarted.code ∧ byteAt t (s.slipAt i) = markAnswered ∧ free ∧
          t.hostBytes (s.answerAt i) 40 = answerBytes .restarted [] ∧
          bget t.desk.counters Counter.answers.index = bget s.desk.counters Counter.answers.index + 1) ∧
        (m = markAnswered → status = byteAt u (s.answerAt i)) ∧ (m ≠ markTaken → m ≠ markAnswered → status = 0) ∧
        (∀ j, j ≠ i → bget t.desk.map j = 0) ∧
        ∀ c : Counter, t.hostBytes (s.counterAt c) 4 = leBytes 4 (bget t.desk.counters c.index).toNat)

/-- O15. What a read of a ring's marks faults, and the sweep of a first desk, of a withdrawn slip and of a file that has
its final total. A read of the marks is a ring fault exactly where the filled mark is below the one seen or more than
the ring size above the drained mark, a set final flag comes with a total length below the filled mark or the one
seen, or a total that was taken before has changed or its flag is clear. For every powered state whose sweep can begin
and finds every slip but i FREE, not held and its map entry clear, no read failing, no stalled channel that can be
given a page (none is stalled, or all 8,192 pages are in use), the executor having nothing to choose (an operation
runs, or none is suspended or waits) and no desk change waiting: at a first sweep a POSTED slip that is not held is
admitted or refused as at any other sweep where the threshold lets it in (the number before the rise, logs 40 and 38;
a quick slip waits for the command of its kind, log 14; a long one runs at once where no operation runs, R190), and
otherwise stays POSTED and not held. A slip whose withdrawal was noted before stays so whatever its mark, its entry
standing only where the mark is ANSWERED: the executor, the admission list and the channels are unchanged. A held,
TAKEN slip of a channel that reads a file has its marks taken where they make no ring fault; with the final flag set
the total is taken, and where the channel is RUNNING, owes no commit point, waits for no entry and has fewer than 64
bytes left, it is in ENDING with the drained mark at the total and the rest as its trailing fragment (COMMIT_POINT
then closes the file, log 11); in every other case the two fields alone change. (R46, R47, R58, R141, R186, R187,
R188, R190, R192, logs 11, 14, 38 and 40) -/
def Obligations.SweepFindsTheOtherSlips : Prop :=
  (∀ (ch : Channel) (r : RingMarks), marksFault ch r = true ↔
    r.filled < ch.filledSeen ∨ ch.drained + ch.ringSize < r.filled ∨
    (r.final = true ∧ (r.total < ch.filledSeen ∨ r.total < r.filled)) ∨
    ∃ m, ch.finalTotal = some m ∧ (r.final = false ∨ r.total ≠ m)) ∧
  ∀ (bus : Bus) (i : SlipNo) (s : State), OneSlip bus i s →
    let u := at_ bus s
    let m := byteAt u (s.slipAt i)
    let threshold := min (field (u.hostBytes s.desk.place 8) 0 1) 3
    let enters := threshold = 0 ∨ min (byteAt u (s.slipAt i + 2)).toNat 3 < threshold
    let was := bget s.desk.held i
    ∃ t, Machine.exec (.sweep bus) s = .next t ∧ t.desk.asked = false ∧
      (s.desk.first = true → was = .notHeld → m = markPosted → t.desk.first = t.desk.sweep.isSome ∧
        (enters → PostedSlip bus i s t) ∧
        (¬ enters → byteAt t (s.slipAt i) = markPosted ∧ bget t.desk.held i = .notHeld ∧ bget t.desk.map i = 0 ∧
          t.desk.list = s.desk.list ∧ t.exec = s.exec ∧ t.desk.nextAdm = s.desk.nextAdm)) ∧
      (was = .withdrawn → bget t.desk.held i = .withdrawn ∧ byteAt t (s.slipAt i) = m ∧ t.exec = s.exec ∧
        t.desk.list = s.desk.list ∧ t.feed = s.feed ∧
        (m ≠ markAnswered → bget t.desk.map i = 0) ∧
        (m = markAnswered → bget t.desk.map i = if s.desk.first then byteAt u (s.answerAt i) else bget s.desk.map i)) ∧
      (s.desk.first = false → was = .held → m = markTaken →
        ∀ c f, s.chanOfSlip i = some c → (s.chan c).file = some f → (s.chan c).state ≠ .ending → (s.chan c).closing = .none →
          let ch := s.chan c
          let r := readMarks (u.hostBytes (s.paramsAt i) 56)
          let ends := ch.state = .running ∧ f.commitDue = false ∧ s.waits (.chan c) = false ∧ r.total < ch.drained + 64
          marksFault ch r = false → bget t.desk.held i = .held ∧ t.exec = s.exec ∧ OtherChans c s t ∧
            (r.final = false → t.chan c = { ch with filledSeen := r.filled }) ∧
            (r.final = true → ¬ ends → t.chan c = { ch with filledSeen := r.filled, finalTotal := some r.total }) ∧
            (r.final = true → ends → ch.drained ≤ r.total →
              t.chan c = { ch with state := .ending, filledSeen := r.filled, finalTotal := some r.total, drained := r.total,
                                   file := some { f with trailing := r.total - ch.drained } }))

/-- O16. Which posted slips are admitted, what admission does, and in which order refusals are judged. For every slip
and state: at a threshold other than 0, a slip whose priority, taken as at most 3, is not below it stays as it is.
Otherwise the slip is held and its mark TAKEN, and the count of admissions rises by 1. Its kind is judged first: a
code of 0 or above 20 is answered UNKNOWN-KIND; then the parameter fields of its kind are read, and the slip is
answered with the first refusal, or goes on with its priority and the number that the count held before the rise. A
kind that the engine state does not take is refused WRONG-STATE before anything else of its kind; INGEST, ADVANCE,
EXPIRE and VERIFY are then refused JOURNAL-FULL below the reserve of 65,536. BLANK takes FORMAT alone, FORMATTING and
RECOVERING take none, READY takes every kind but FORMAT. Past these tests a RETAIN is refused RANGE where its group is
above 3 or its count outside 1 to 16,383, then BUSY where its group's walk-pending mark is raised or a shortening of
the group waits in the sweep; an ADVANCE is refused BUSY where a pass runs, waits or is suspended that has not come to
its end, then RANGE where its new day is not above D, above D + 366 or above 65,535; an EXPIRE is refused BUSY in the
same case; and nothing else is refused. That the number is the count before its rise (log 40), and that the count goes
on past 2⁶⁴ − 1 are the model's choices (log 38). (R141, R151, R153, R177, R187, R188, R200, log 38, log 40) -/
def Obligations.AdmissionByThresholdAndOrder : Prop :=
  (∀ (i : SlipNo) (s : State),
    let p := min (s.byteOrFree (s.slipAt i + 2)).toNat 3
    let t := s.takeSlipMark i
    let code := (t.byteOrFree (t.slipAt i + 1)).toNat
    (s.desk.threshold ≠ 0 ∧ s.desk.threshold ≤ p → s.admitSlip i = s) ∧
    (s.desk.threshold = 0 ∨ p < s.desk.threshold →
      (s.admitSlip i).desk.nextAdm = s.desk.nextAdm + 1 ∧ bget t.desk.held i = .held ∧
      (DeskFits s → Memory.wf Config.hostFill s.mem = true → byteAt t (s.slipAt i) = markTaken) ∧
      (code = 0 ∨ 20 < code → s.admitSlip i = t.answer (some i) .unknownKind []) ∧
      (1 ≤ code → code ≤ 20 → ∃ k, Kind.ofCode code = some k ∧
        (∀ st, t.admissionRefusal k (t.readParams k i) = some st → s.admitSlip i = t.answer (some i) st []) ∧
        (t.admissionRefusal k (t.readParams k i) = none → s.admitSlip i =
          t.dispatch { slip := i, prio := p, adm := s.desk.nextAdm, urgent := flagSet (t.byteOrFree (t.slipAt i + 3)), kind := k, params := t.readParams k i })))) ∧
  ∀ (s : State) (k : Kind) (p : List Byte),
    (s.takesKind k = true ↔ (s.engine = .blank ∧ k = .format) ∨ (s.engine = .ready ∧ k ≠ .format)) ∧
    (s.takesKind k = false → s.admissionRefusal k p = some .wrongState) ∧
    (s.takesKind k = true → (k = .ingest ∨ k = .advance ∨ k = .expire ∨ k = .verify) → s.room < 65536 →
      s.admissionRefusal k p = some .journalFull) ∧
    (s.takesKind k = true → (k = .ingest ∨ k = .advance ∨ k = .expire ∨ k = .verify → 65536 ≤ s.room) →
      let g := field p 0 1
      let count := field p 2 2
      let badRetain := 3 < g ∨ count < 1 ∨ 16383 < count
      let walks := ∃ x : GroupNo, x.val = g ∧ (bget s.ret.groups x).walk.isSome = true
      let shortened := ∃ w, s.desk.sweep = some w ∧ ∃ a ∈ w.quick, a.kind = .retain ∧ field a.params 0 1 = g
      let newDay := field p 0 4
      let badDay := newDay ≤ s.ret.day ∨ s.ret.day + 366 < newDay ∨ 65535 < newDay
      let passing (o : Op) := (∃ q, o.body.pass = some q) ∧ o.ended = false
      let pass := (∃ o ∈ s.exec.running.toList ++ s.exec.suspended ++ s.exec.waiting, passing o) ∨
        ∃ w, s.desk.sweep = some w ∧ ∃ o ∈ w.long, passing o
      (k = .retain →
        (badRetain → s.admissionRefusal k p = some .range) ∧
        (¬ badRetain → walks ∨ shortened → s.admissionRefusal k p = some .busy) ∧
        (¬ badRetain → ¬ (walks ∨ shortened) → s.admissionRefusal k p = none)) ∧
      (k = .advance →
        (pass → s.admissionRefusal k p = some .busy) ∧ (¬ pass → badDay → s.admissionRefusal k p = some .range) ∧
        (¬ pass → ¬ badDay → s.admissionRefusal k p = none)) ∧
      (k = .expire →
        (pass → s.admissionRefusal k p = some .busy) ∧ (¬ pass → s.admissionRefusal k p = none)) ∧
      (k ≠ .retain → k ≠ .advance → k ≠ .expire → s.admissionRefusal k p = none))

/-- O17. An answer is written or dropped with its slip released; a notice counter advances; the gate sends one message.
For every slip of a desk that lies in the address space and every state with host memory in canonical form: the answer
is dropped exactly where a withdrawal is noted, or the mark is read and is not 2, TAKEN (a read fails where it passes
the 2⁶⁴ host addresses or meets a range whose accesses fail); it then changes nothing but the slip's release.
Otherwise the answer area holds the status and the values, the mark is ANSWERED, the map entry holds the status in the
engine and in the desk header, ANSWERS has advanced by 1 in the engine and in the header, the slip is released, and
every byte outside the desk is unchanged. For every counter and state: an advance adds 1 to that counter, wrapping,
and leaves the other seven. While the gate is OPEN and the counter enabled, one message goes, the gate closes and
keeps the values of all eight; otherwise no message goes and the gate and kept values stand. So it is while DESK BASE
is 0 too, where the advance writes nothing into host memory (that the message then still goes is the model's choice,
log 44). When the gate opens, a message goes exactly when an enabled counter differs from its kept value, and only
then is the gate CLOSED afterwards. (R193, R194, R195, R196, log 44) -/
def Obligations.AnswersAndNotices : Prop :=
  (∀ (i : SlipNo) (st : Status) (vs : List Byte) (s : State), DeskFits s → s.desk.place ≠ 0 →
    Memory.wf Config.hostFill s.mem = true →
    (s.dropsAnswer i = true ↔ bget s.desk.held i = .withdrawn ∨
      (s.readFails (s.slipAt i) 1 = false ∧ byteAt s (s.slipAt i) ≠ 2)) ∧
    (s.dropsAnswer i = true → s.answer (some i) st vs = s.releaseSlip i) ∧
    (s.dropsAnswer i = false →
      let t := s.answer (some i) st vs
      t.hostBytes (s.answerAt i) 40 = answerBytes st vs ∧ byteAt t (s.slipAt i) = markAnswered ∧
      bget t.desk.map i = st.code ∧ byteAt t (s.mapAt i) = st.code ∧
      bget t.desk.counters Counter.answers.index = bget s.desk.counters Counter.answers.index + 1 ∧
      t.hostBytes (s.counterAt .answers) 4 = leBytes 4 (bget s.desk.counters Counter.answers.index + 1).toNat ∧
      bget t.desk.held i = .notHeld ∧ ∀ a, OffDesk s a → byteAt t a = byteAt s a)) ∧
  (∀ (c : Counter) (s : State),
    let t := s.notice c
    bget t.desk.counters c.index = bget s.desk.counters c.index + 1 ∧
    (∀ d : Counter, d ≠ c → bget t.desk.counters d.index = bget s.desk.counters d.index) ∧
    (s.desk.gateOpen = true ∧ s.enabled c = true →
      t.desk.messages = s.desk.messages + 1 ∧ t.desk.gateOpen = false ∧ t.desk.kept = t.desk.counters) ∧
    (¬ (s.desk.gateOpen = true ∧ s.enabled c = true) →
      t.desk.messages = s.desk.messages ∧ t.desk.gateOpen = s.desk.gateOpen ∧ t.desk.kept = s.desk.kept)) ∧
  (∀ (c : Counter) (s : State), s.desk.place = 0 → (s.notice c).mem = s.mem) ∧
  (∀ (a n : Nat) (s : State), s.readFails a n = true ↔ 2 ^ 64 < a + n ∨ ∃ r ∈ s.fails, r.1 < a + n ∧ a < r.1 + r.2) ∧
  ∀ s : State, s.desk.gateOpen = false →
    ((∃ c : Counter, s.enabled c = true ∧ bget s.desk.counters c.index ≠ bget s.desk.kept c.index) →
      s.openGate.desk.messages = s.desk.messages + 1 ∧ s.openGate.desk.gateOpen = false ∧
      s.openGate.desk.kept = s.desk.counters) ∧
    ((∀ c : Counter, s.enabled c = true → bget s.desk.counters c.index = bget s.desk.kept c.index) →
      s.openGate.desk.messages = s.desk.messages ∧ s.openGate.desk.gateOpen = true ∧ s.openGate.desk.kept = s.desk.kept)

/-- O18. FORMAT first runs: accepted, or refused for its state, its parameters or want of a lane. For every powered state
whose running operation is a FORMAT not yet run: where the engine is not BLANK, a retention day count lies outside 1
to 16,383, the late window outside 1 to 31 or the gap horizon outside 1 to 366 (R39), or no lane is ONLINE, the engine
state, the stamp, the usable set and the journal's release and settled marks stay; otherwise FORMAT clears the stamp,
makes the engine FORMATTING, fixes the usable set as the lanes ONLINE now, empties the table and the directory, owes
one erase for each usable extent, and the operation has begun; the erases of the 16,380 usable extents of each ONLINE
lane have joined its background queue, in rising extent index (the model's choice, log 24), of which the lane may have
granted one request; and the journal is emptied: no entry in the store or the buffer, the head, the release mark and
the settled mark at 1, the write pointer at lane 0, no write outstanding and nothing waiting. The retention unit and
the modules are unchanged. (R16, R39, R124, R126, R182, R190, log 24) -/
def Obligations.FormatBegins : Prop :=
  ∀ (bus : Bus) (o : Op) (p : FormatParams) (s : State), Fresh o s → o.body = .format p →
    ∃ t, Machine.exec (.format bus) s = .next t ∧ t.ret = s.ret ∧ t.media = s.media ∧
      ((s.engine ≠ .blank ∨ ¬ GoodFormat p ∨ s.onlineMask = 0) →
        t.engine = s.engine ∧ t.stamp = s.stamp ∧ t.cat.usable = s.cat.usable ∧ t.jnl.release = s.jnl.release ∧
        t.jnl.settled = s.jnl.settled) ∧
      (s.engine = .blank ∧ GoodFormat p ∧ s.onlineMask ≠ 0 →
        t.engine = .formatting ∧ t.stamp = false ∧ t.cat.usable.toNat = s.onlineMask ∧ t.cat.table = [] ∧ t.cat.dir = [] ∧
        t.cat.eraseLeft = t.usableCount ∧ t.exec.running = some { o with begun := true } ∧
        t.jnl.store = [] ∧ t.jnl.buffer = [] ∧ t.jnl.head = 1 ∧ t.jnl.release = 1 ∧ t.jnl.settled = 1 ∧ t.jnl.pointer = 0 ∧
        t.jnl.out = none ∧ t.jnl.line = [] ∧
        ∀ l : LaneNo, let old := bget s.lanes.lane l
          let now := bget t.lanes.lane l
          (old.online = false → now = old) ∧
          (old.online = true → ∀ q, q = old.backQ ++ (List.range 16380).map (fun i => Request.erase (16384 * l.val + 4 + i)) →
            now.backQ = q ∨ ∃ r, q = r :: now.backQ ∧ now.inProgress = some r ∧ old.inProgress = none))

/-- O19. A FORMAT erase completes; the last one builds every block, journals FORMATTED, makes the engine READY and answers
the slip. For every powered FORMATTING state with a FORMAT running and an erase in progress on the lane: while more
than one erase is owed, FORMAT_ERASE_COMPLETION takes 1 from what is owed, notes a failed extent, and stays
FORMATTING. With the last one the engine is READY with the stamp written, D is the parameter's day, the late window
and gap horizon are the parameters, each group has its parameter's retention days and no walk, every class is in group
0, auto-cut is on, no hold is held, no switch is known, no gap is held, every edition slot is FREE with serial 0, the
rotation pointer is at lane 0, the directory is empty, no segment is being opened, no channel is bound, and the
free-space watch keeps its level and edge and takes its side from the new free count, without an advance of
FREE-WATCH. The first entry of the journal is FORMATTED, with number 1, the new day, the usable count, the number of
failed extents and the number of lanes, and EXTENT-RETIRED is submitted for each failed extent, READY not waiting for
those that do not fit (the model's choice, log 42). Where no other operation waits or is suspended: every usable
extent is FREE with erase count 0 and no flag, but for the failed ones, which are RETIRED with the flag set; every
staging page is FREE and the serial counter 0, every channel FREE, none waiting for a page or bound to a slip, the
coder IDLE with both buffers FREE, the executor empty; the scrub is RESTING with its cursor and both counts 0 and its
start day none, its enable and period as they were; and the slip is answered DONE where no erase failed and
MEDIA-ERROR where one did, with the usable count U and the number of extents retired as its values. An erase that
succeeded leaves its extent reading as erased; one that failed leaves the modules' bytes (the model's choice, log 27).
(R16, R36, R40, R65, R84, R101, R139, R155, R173, R174, R182, logs 27 and 42) -/
def Obligations.FormatEraseCompletes : Prop :=
  ∀ (bus : Bus) (l : LaneNo) (ok : Bool) (n : Nat) (o : Op) (p : FormatParams) (s : State), s.powered = true →
    s.engine = .formatting → s.exec.running = some o → o.body = .format p →
    (bget s.lanes.lane l).inProgress = some (.erase n) →
    let failed := if ok then s.cat.eraseFailed else s.cat.eraseFailed ++ [n]
    ∃ t, Machine.exec (.formatEraseCompletion l ok bus) s = .next t ∧ t.desk.base = s.desk.base ∧
      t.desk.period = s.desk.period ∧
      (1 < s.cat.eraseLeft → t.engine = .formatting ∧ t.cat.eraseLeft = s.cat.eraseLeft - 1 ∧ t.stamp = s.stamp ∧
        t.ret = s.ret ∧ t.cat.eraseFailed = failed) ∧
      (s.cat.eraseLeft ≤ 1 → t.engine = .ready ∧ t.stamp = true ∧ t.ret.day = p.day ∧ t.ret.lateWindow = p.window ∧
        t.ret.gapHorizon = p.horizon ∧ t.ret.autoCut = true ∧ t.ret.holds = [] ∧
        t.ret.classMap = Vector.replicate 8 0 ∧
        (∀ g : GroupNo, bget t.ret.groups g = { days := p.days.getD g.val 1, walk := none }) ∧ t.recon = Recon.blank ∧
        t.eds = Editions.blank ∧ t.cat.rotation = 0 ∧ t.cat.dir = [] ∧
        t.cat.watch = { s.cat.watch with low := decide (t.freeCount < t.threshold) } ∧
        bget t.desk.counters Counter.freeWatch.index = bget s.desk.counters Counter.freeWatch.index ∧
        t.jnl.store.head? = some { seq := 1, day := p.day, second := false,
                                   body := EntryBody.mk0 .formatted .none s.usableCount failed.length (s.usableCount / 16380) } ∧
        (∀ m ∈ failed, Submitted (EntryBody.mk0 .extentRetired (.segment m) 0 2 0) t) ∧
        t.feed.bindings = Vector.replicate 8 none ∧ t.cat.openReq = none ∧
        (s.exec.suspended = [] → s.exec.waiting = [] →
          (∀ m, s.usable m = true →
            t.extent? m = some (if m ∈ failed then { content := .retired, erases := 0, fault := true }
                                else { content := .free, erases := 0, fault := false })) ∧
          t.pool = Pool.blank ∧ t.feed = Feed.blank ∧ t.coder = Coder.blank ∧
          t.scrub = { s.scrub with cursor := 0, checked := 0, failed := 0, startDay := none, state := .resting, awaitsRoom := false, visit := none } ∧
          t.exec = Exec.blank ∧
          Answered (at_ bus s) o.slip (if failed = [] then .done else .mediaError) (fours [s.usableCount, failed.length]) t)) ∧
      (ok = true → ∀ i, i < 67108864 → Memory.byte Config.mediaFill t.media (State.mediaAt n i) = 0xFF) ∧
      (ok = false → t.media = s.media)

/-- O20. A FREE channel takes the first slip of the admission list. For every acting engine (powered, not RECOVERING)
with a FREE channel, a slip on the admission list whose named parameters can be read, no channel being stalled: INGEST
takes the first slip off the list. A ring whose base or size is no multiple of 64, or whose size lies outside 4,096 to
67,108,864, leaves every channel as it was, and the slip is answered RANGE. With a ring of a right shape the first
read is a ring fault where the filled mark is above the ring size or a set final flag comes with a total length below
it: the slip is answered RING-FAULT with a drained mark of 0 and the channel is FREE without a binding. A final total
below 64 has the same end with BAD-HEADER. Otherwise the lowest FREE channel is in HEADER with that slip, ring and
filled mark, a drained mark of 0, and the final total where the flag is set. Every other channel, the switch table,
the retention unit and the editions are unchanged. (R43, R46, R47, R58, R193, R200) -/
def Obligations.IngestTakesTheFirstSlip : Prop :=
  ∀ (bus : Bus) (c : ChanNo) (a : Admitted) (rest : List Admitted) (s : State), Acts s → s.freeChan = some c →
    s.desk.list = a :: rest → s.feed.stalled = [] → (∀ x ∈ Kind.ingest.fields, (at_ bus s).readFails (s.paramsAt a.slip + x.1) x.2 = false) →
    let p := (at_ bus s).hostBytes (s.paramsAt a.slip) 56
    ∃ t, Machine.exec (.ingest bus) s = .next t ∧ t.desk.list = rest ∧ OtherChans c s t ∧ t.recon = s.recon ∧
      t.ret = s.ret ∧ t.eds = s.eds ∧ Kept s t ∧
      (State.badRing (field p 0 8) (field p 8 4) = true → t.chan c = s.chan c) ∧
      (State.badRing (field p 0 8) (field p 8 4) = true → bget t.feed.bindings c = bget s.feed.bindings c ∧
        Answered (at_ bus s) (some a.slip) .range [] t) ∧
      (State.badRing (field p 0 8) (field p 8 4) = true ↔
        field p 0 8 % 64 ≠ 0 ∨ field p 8 4 % 64 ≠ 0 ∨ field p 8 4 < 4096 ∨ 67108864 < field p 8 4) ∧
      (State.badRing (field p 0 8) (field p 8 4) = false →
        let filled := field p 16 8
        let final := flagSet (p.getD 24 0)
        let total := field p 32 8
        let fault := field p 8 4 < filled ∨ (final = true ∧ total < filled)
        let Takes (m : Option Nat) : Prop :=
          t.chan c = { Channel.idle with state := .header, slip := some a.slip, ringBase := field p 0 8,
                                         ringSize := field p 8 4, filledSeen := filled, finalTotal := m } ∧
          bget t.feed.bindings c = some { slip := some a.slip, file := none }
        let Ends (st : Status) : Prop := t.chan c = Channel.idle ∧ bget t.feed.bindings c = none ∧
          Answered (at_ bus s) (some a.slip) st (leBytes 8 0) t
        (fault → Ends .ringFault) ∧ (¬ fault → final = false → Takes none) ∧
        (¬ fault → final = true → total < 64 → Ends .badHeader) ∧ (¬ fault → final = true → 64 ≤ total → Takes (some total)))

/-- O21. The five tests of a header in their order, and HEADER_TAKE refuses a header or accepts it. For every header
and state the tests give BAD-HEADER for a wrong marker or version; then BAD-SWITCH for a switch id above 1023; then
BAD-HEADER for a declared count of 2³¹ or more; then FUTURE-DAY for a record day above D + 1; then STREAM-BUSY for a
switch that a channel is bound to; and no refusal otherwise. The entries called for are LATE-FILE exactly where the
record day plus the late window is below D, and REPEAT-FILE exactly where the file number is not 0, the register holds
the record day and the number is not above the register's. For every acting engine (powered, not RECOVERING) whose
channel holds a whole header that can be read, nothing being stalled: where a test of R3 fails, the channel is FREE
without a binding, the slip is answered with that status, the drained mark 64 and zeros, and the switch table is
unchanged; where the header cannot be read the end is the same with RING-FAULT and the drained mark as it was (the
model's choice, log 29). Where every test passes, a file is bound to the switch, of the record day, its working
context the switch's with the highest record day raised to the record day, the register (record day, file number)
where the file is numbered and the register empty, of a lower day, or of a lower number that day; with every count 0,
the count balance minus the declared records and the charge balance minus the declared sum; the switch is FEEDING; and
the binding holds the same starting account. Where no entry is called for, or the engine is READY and its journal
takes them all at once (each then stands in its store), the channel is RUNNING with a drained mark of 64 where no
final total is held; with a final total of 128 or more it is RUNNING too; with one from 64 to 127 it is in ENDING with
the drained mark at the final total and the bytes above 64 as its trailing fragment. Where a READY engine's journal
does not take them all at once, each is submitted and the channel waits in HEADER with its file. Every other channel
is unchanged. (R3, R4, R5, R45, R49, R50, R58, R67, R175, R193, log 29) -/
def Obligations.HeaderIsJudged : Prop :=
  (∀ (h : Header) (s : State),
    (h.marker ≠ 0x48 ∨ h.version ≠ 1 → s.headerRefusal h = some .badHeader) ∧
    (h.marker = 0x48 → h.version = 1 →
      (1023 < h.switch → s.headerRefusal h = some .badSwitch) ∧
      (h.switch ≤ 1023 → 2147483648 ≤ h.declared → s.headerRefusal h = some .badHeader) ∧
      (h.switch ≤ 1023 → h.declared < 2147483648 → s.ret.day + 1 < h.day → s.headerRefusal h = some .futureDay) ∧
      (h.switch ≤ 1023 → h.declared < 2147483648 → h.day ≤ s.ret.day + 1 →
        s.headerRefusal h = if s.switchBound h.switch then some .streamBusy else none)) ∧
    let late := EntryBody.mk0 .lateFile (.switch h.switch) h.day h.file s.ret.day
    let again := EntryBody.mk0 .repeatFile (.switch h.switch) h.day h.file 0
    (∀ b ∈ s.headerEntries h, b = late ∨ b = again) ∧
    (late ∈ s.headerEntries h ↔ h.day + s.ret.lateWindow < s.ret.day) ∧
    (again ∈ s.headerEntries h ↔
      h.file ≠ 0 ∧ ∃ f0, (s.switchCtx h.switch).register = some (h.day, f0) ∧ h.file ≤ f0)) ∧
  (∀ (bus : Bus) (c : ChanNo) (s : State), Acts s → s.headerReady c = true → s.feed.stalled = [] →
    (s.chan c).closing = .none → (at_ bus s).readFails (s.ringAt c 0) 64 = true →
    ∃ t, Machine.exec (.headerTake c bus) s = .next t ∧ OtherChans c s t ∧ t.ret = s.ret ∧ t.eds = s.eds ∧ Kept s t ∧
      t.chan c = Channel.idle ∧ bget t.feed.bindings c = none ∧ t.recon = s.recon ∧
      Answered (at_ bus s) (s.chan c).slip .ringFault (leBytes 8 (s.chan c).drained) t) ∧
  ∀ (bus : Bus) (c : ChanNo) (s : State), Acts s → s.headerReady c = true → s.feed.stalled = [] →
    (at_ bus s).readFails (s.ringAt c 0) 64 = false →
    let h := readHeader ((at_ bus s).hostBytes (s.ringAt c 0) 64)
    let x := s.switchCtx h.switch
    let work : SwitchCtx := { x with
      state := .feeding, highDay := some (max (x.highDay.getD 0) h.day),
      register := match x.register with
        | none => if h.file = 0 then none else some (h.day, h.file)
        | some (d, f) => if h.file ≠ 0 ∧ (d < h.day ∨ (d = h.day ∧ f < h.file)) then some (h.day, h.file) else some (d, f) }
    let file : File := { switch := h.switch, bound := true, day := h.day, work := work, pendingGaps := [], account := State.startAccount h, filled := 0, commitDue := false, held := none, trailing := 0 }
    let taken := s.engine = .ready ∧ EntriesFit (s.headerEntries h).length s
    ∃ t, Machine.exec (.headerTake c bus) s = .next t ∧ OtherChans c s t ∧ t.ret = s.ret ∧ t.eds = s.eds ∧ Kept s t ∧
      (∀ x, s.headerRefusal h = some x → t.chan c = Channel.idle ∧ bget t.feed.bindings c = none ∧ t.recon = s.recon ∧
        Answered (at_ bus s) (s.chan c).slip x (leBytes 8 64) t) ∧
      (s.headerRefusal h = none → (s.chan c).closing = .none →
        (t.switchCtx h.switch).state = .feeding ∧ t.recon.gaps = s.recon.gaps ∧
        bget t.feed.bindings c = some { slip := (s.chan c).slip, file := some (h.switch, State.startAccount h) }) ∧
      (s.headerRefusal h = none → (s.chan c).closing = .none → (s.headerEntries h = [] ∨ taken) →
        (∀ b ∈ s.headerEntries h, ∃ e ∈ t.jnl.store, e.body = b) ∧
        (∀ m, (s.chan c).finalTotal = some m → 64 ≤ m → m < 128 → s.waits (.chan c) = false →
          (t.chan c).state = .ending ∧ (t.chan c).drained = m ∧ (t.chan c).file = some { file with trailing := m - 64 }) ∧
        (((s.chan c).finalTotal = none ∨ ∃ m, (s.chan c).finalTotal = some m ∧ 128 ≤ m) →
          (t.chan c).state = .running ∧ (t.chan c).drained = 64 ∧ (t.chan c).file = some file)) ∧
      (s.headerRefusal h = none → (s.chan c).closing = .none → s.engine = .ready → s.headerEntries h ≠ [] → ¬ taken →
        (t.chan c).state = .header ∧ (t.chan c).drained = 64 ∧ (t.chan c).file = some file ∧ t.waits (.chan c) = true ∧
        ∀ b ∈ s.headerEntries h, Submitted b t)

/-- O22. Which records are rejected, clamped and expired on arrival, with which corrections; how a header and a record
are laid out. For every record as read: it is rejected exactly where its marker is not 0x52, its class is above 7, its
start time above 863,999, or a digit place within the first 18 places and within the length of its calling or its
called number holds a value above 11; it is clamped exactly where its duration is above 16,777,215 or a number's
length above 18. The corrected record has the same class, cause, sequence, start time, route, site and charge, the
duration or 16,777,215 where it is longer, and of each number the first places up to the length, 18 at most. The
fields of the 64 bytes of a record and of a header stand at the offsets of their layouts, lowest byte first, each
digit place in half a byte, the low half first. The group of a class from 0 to 7 is the class map's entry, from 0 to
3; and a record of a key is expired on arrival exactly where its record day plus its group's retention days, at most
65,535, is at or before D. (R6, R7, R9, R10, R11, R12, R138, Day-file header and record (12_shared_memory_formats.md))
-/
def Obligations.RecordFieldsAreJudged : Prop :=
  (∀ r : Raw,
    let bad (len : Nat) (places : List Nat) : Prop := ∃ i d, i < len ∧ i < 18 ∧ places[i]? = some d ∧ 11 < d
    (r.rejected = true ↔ r.marker ≠ 0x52 ∨ 7 < r.cls ∨ 863999 < r.start ∨ bad r.callingLen r.callingDigits ∨
      bad r.calledLen r.calledDigits) ∧
    (r.clamped = true ↔ 16777215 < r.duration ∨ 18 < r.callingLen ∨ 18 < r.calledLen) ∧
    r.corrected.cls = r.cls ∧ r.corrected.cause = r.cause ∧ r.corrected.seq = r.seq ∧ r.corrected.start = r.start ∧
    r.corrected.route = r.route ∧ r.corrected.site = r.site ∧ r.corrected.charge = r.charge ∧
    (r.duration ≤ 16777215 → r.corrected.duration = r.duration) ∧
    (16777215 < r.duration → r.corrected.duration = 16777215) ∧
    (r.callingLen ≤ 18 → r.corrected.calling = r.callingDigits.take r.callingLen) ∧
    (18 < r.callingLen → r.corrected.calling = r.callingDigits.take 18) ∧
    (r.calledLen ≤ 18 → r.corrected.called = r.calledDigits.take r.calledLen) ∧
    (18 < r.calledLen → r.corrected.called = r.calledDigits.take 18)) ∧
  (∀ b : List Byte, b.length = 64 →
    let r := readRecord b
    let at' (i : Nat) := (b.getD i 0).toNat
    r.marker = b.getD 0 0 ∧ r.cls = at' 1 ∧ r.cause = at' 2 ∧ r.callingLen = at' 3 ∧ r.calledLen = at' 18 ∧
    r.seq.toNat = at' 4 + 256 * at' 5 + 65536 * at' 6 + 16777216 * at' 7 ∧
    r.start = at' 8 + 256 * at' 9 + 65536 * at' 10 + 16777216 * at' 11 ∧
    r.duration = at' 12 + 256 * at' 13 + 65536 * at' 14 + 16777216 * at' 15 ∧
    r.route = at' 16 + 256 * at' 17 ∧ r.site = at' 20 + 256 * at' 21 + 65536 * at' 22 + 16777216 * at' 23 ∧
    r.charge = at' 24 + 256 * at' 25 + 65536 * at' 26 + 16777216 * at' 27 ∧
    r.callingDigits.length = 18 ∧ r.calledDigits.length = 18 ∧
    ∀ i, i < 9 → r.callingDigits[2 * i]? = some (at' (28 + i) % 16) ∧
      r.callingDigits[2 * i + 1]? = some (at' (28 + i) / 16) ∧
      r.calledDigits[2 * i]? = some (at' (37 + i) % 16) ∧ r.calledDigits[2 * i + 1]? = some (at' (37 + i) / 16)) ∧
  (∀ b : List Byte, b.length = 64 →
    let h := readHeader b
    let at' (i : Nat) := (b.getD i 0).toNat
    h.marker = b.getD 0 0 ∧ h.version = at' 1 ∧ h.switch = at' 2 + 256 * at' 3 ∧ h.day = at' 4 + 256 * at' 5 ∧
    h.file = at' 6 + 256 * at' 7 ∧ h.declared = at' 8 + 256 * at' 9 + 65536 * at' 10 + 16777216 * at' 11 ∧
    h.charges = at' 16 + 256 * at' 17 + 65536 * at' 18 + 16777216 * at' 19 +
      4294967296 * (at' 20 + 256 * at' 21 + 65536 * at' 22 + 16777216 * at' 23)) ∧
  ∀ s : State,
    (∀ c : Fin 8, s.groupOf c.val = (bget s.ret.classMap c).val ∧ s.groupOf c.val ≤ 3) ∧
    ∀ (k : StreamKey) (g : GroupNo), k.group = g.val →
      (s.expiredOnArrival k = true ↔ min (k.day + (bget s.ret.groups g).days) 65535 ≤ s.ret.day)

/-- O23. RECORD_TAKE counts the record by its outcome, stages it, stalls with it, or aborts at an overflow. For every
acting engine (powered, not RECOVERING) whose channel can take its next record, the record being readable and nothing
stalled: the drained mark rises by 64 (with a final total see RecordReachesItsEnd) and the account gains 1 seen, 1 in
the count balance and the charge in the charge balance. A rejected record adds 1 rejected; one that is expired on
arrival adds 1 expired; a duplicate adds 1 duplicate, each with 1 clamped where the record is clamped (a rejected
record is not); none of the three changes the working context with its expected number, the pending gap list, the
tallies and editions, what is staged and its serials, the bindings or the waiting order (the coder may select records
meanwhile, unless it holds a block); a duplicate's are those of its classification. An accepted record adds 1
accepted, and the expected sequence and pending gap list are those of the classification; with its corrections it is
written after the last record of the channel's OPEN page of its group, which is SEALED with its 1,024th record, or,
without one, into a FREE page opened with the serial that the pool's counter holds, which then rises by 1 (the model's
choice, log 40) without a bound (log 38); without a FREE page the channel is STALLED with the record, last in the
waiting order, and STALLS has advanced by 1. Where the pending gap list would pass 256 entries the file is aborted:
the switch is not FEEDING, no page is the channel's, the kept expected number, the gap table, the tallies and the
serials stay, a READY engine has submitted the FILE-ABORTED pair with the committed copy and cause GAP-OVERFLOW, and
where its journal takes the entries at once the channel is FREE without a binding and its slip answered GAP-OVERFLOW
with the drained mark and the committed copy. The retention unit, every other channel and every byte outside the desk
are unchanged, and so are the switch table and the gap table without an overflow. (R8, R12, R13, R51, R53, R54, R60,
R61, R68, R75, R87, logs 38 and 40) -/
def Obligations.RecordIsSeenAndCounted : Prop :=
  ∀ (bus : Bus) (c : ChanNo) (f : File) (s : State), Acts s → s.recordReady c = true →
    (s.chan c).file = some f → s.feed.stalled = [] → (at_ bus s).readFails (s.ringAt c (s.chan c).drained) 64 = false →
    let raw := readRecord ((at_ bus s).hostBytes (s.ringAt c (s.chan c).drained) 64)
    let g := s.groupOf raw.cls
    let k : StreamKey := { switch := f.switch, day := f.day, group := g }
    let j := classify (s.rangesOf f.switch) f.work.expected f.pendingGaps raw.corrected.seq
    let n := f.account.counts
    let seen (m : Counts) : Account := { f.account with counts := { m with seen := n.seen + 1 }, countBal := f.account.countBal + 1, chargeBal := f.account.chargeBal + BitVec.ofNat 64 raw.charge }
    let cl := n.clamped + if raw.clamped then 1 else 0
    let Passed (t : State) : Prop := NothingStaged s t ∧
      (t.chan c).file.map (fun x => (x.work, x.pendingGaps, x.filled, x.held)) = some (f.work, f.pendingGaps, f.filled, f.held)
    ∃ t, Machine.exec (.recordTake c bus) s = .next t ∧
      (raw.rejected = true ∨ s.expiredOnArrival k = true ∨ j.gaps.length ≤ 256 → t.recon = s.recon) ∧ t.ret = s.ret ∧ OtherChans c s t ∧ Kept s t ∧
      (∀ a, OffDesk s a → byteAt t a = byteAt (at_ bus s) a) ∧
      ((s.chan c).finalTotal = none → (raw.rejected = true ∨ s.expiredOnArrival k = true ∨ j.gaps.length ≤ 256) →
        (t.chan c).drained = (s.chan c).drained + 64) ∧
      (raw.rejected = true → Passed t ∧ (t.chan c).file.map File.account = some (seen { n with rejected := n.rejected + 1 })) ∧
      (raw.rejected = false → s.expiredOnArrival k = true → Passed t ∧
        (t.chan c).file.map File.account = some (seen { n with expired := n.expired + 1, clamped := cl })) ∧
      (raw.rejected = false → s.expiredOnArrival k = false → j.gaps.length ≤ 256 → j.verdict = .duplicate → Passed t ∧
        (t.chan c).file.map File.account = some (seen { n with duplicates := n.duplicates + 1, clamped := cl }) ∧
        (t.chan c).file.map File.pendingGaps = some j.gaps ∧
        (t.chan c).file.map (fun x => x.work.expected) = some j.expected) ∧
      (raw.rejected = false → s.expiredOnArrival k = false → j.gaps.length ≤ 256 → j.verdict = .accepted →
        (t.chan c).file.map File.account = some
          { (seen { n with accepted := n.accepted + 1, clamped := cl }) with
            restarts := f.account.restarts + if j.restart then 1 else 0 } ∧
        (t.chan c).file.map File.pendingGaps = some j.gaps ∧
        (t.chan c).file.map (fun x => x.work.expected) = some j.expected ∧
        t.eds = Editions.count raw.corrected s.eds ∧
        (∀ p, s.openPage c g = some p → ((s.chan c).finalTotal = none → (t.chan c).state = .running) ∧ ∃ q ∈ t.pool.pages, q.serial = p.serial ∧ q.key = p.key ∧
          q.owner = some c ∧ q.committed = p.committed ∧ q.sealedUp = decide (1024 ≤ p.places.length + 1) ∧
          q.places.map Place.data = p.places.map Place.data ++ [raw.corrected]) ∧
        (s.openPage c g = none → s.poolHasPage = true → ((s.chan c).finalTotal = none → (t.chan c).state = .running) ∧ t.pool.serial = s.pool.serial + 1 ∧
          ∃ q ∈ t.pool.pages, q.serial = s.pool.serial ∧ q.key = k ∧ q.owner = some c ∧ q.committed = 0 ∧ q.sealedUp = false ∧
            q.places.map Place.data = [raw.corrected]) ∧
        (s.openPage c g = none → s.poolHasPage = false → (t.chan c).state = .stalled ∧ (t.chan c).drained = (s.chan c).drained + 64 ∧
          (t.chan c).file.map File.held = some (some (raw.corrected, g)) ∧ t.feed.stalled = [c] ∧
          bget t.desk.counters Counter.stalls.index = bget s.desk.counters Counter.stalls.index + 1)) ∧
      (raw.rejected = false → s.expiredOnArrival k = false → 256 < j.gaps.length →
        (t.switchCtx f.switch).state ≠ .feeding ∧ (∀ p ∈ t.pool.pages, p.owner ≠ some c) ∧ t.recon.gaps = s.recon.gaps ∧
        (t.switchCtx f.switch).expected = (s.switchCtx f.switch).expected ∧ t.eds = s.eds ∧ t.pool.serial = s.pool.serial ∧
        (s.engine = .ready →
          (∀ b ∈ abortedPair f.switch (s.committed c) .gapOverflow, Submitted b t) ∧
          (EntriesFit 3 s → t.chan c = Channel.idle ∧ bget t.feed.bindings c = none ∧
            let a := s.committed c
            Answered (at_ bus s) (s.chan c).slip .gapOverflow
              (leBytes 8 ((s.chan c).drained + 64) ++ unsignedField 4 a.counts.seen ++ unsignedField 4 a.counts.accepted
                ++ unsignedField 4 a.counts.rejected ++ unsignedField 4 a.counts.duplicates ++ signedField a.countBal
                ++ leBytes 8 a.chargeBal.toNat) t)))

/-- O24. After a record: the commit point, the end of the file, the abort at an unreadable ring; and the page that a
sweep's abort gives a STALLED channel. For every acting engine (powered, not RECOVERING) whose channel can take its
next record, nothing being stalled. The record being readable and finished (rejected, expired on arrival, a duplicate,
or accepted and written, the pending gap list within 256): where the seen count is then a multiple of 1,024 the
channel stays RUNNING and owes a commit point (the command COMMIT_POINT makes it, log 11), whatever its final total;
otherwise it owes none, and is RUNNING still where no final total is held or 64 bytes or more are left; with fewer it
is in ENDING, drained to the final total, the rest its trailing fragment. A record with which the channel stalls is
not finished: the channel is STALLED, owes no commit point and does not end, whatever its final total. Where the 64
bytes cannot be read the file is aborted: the switch is not FEEDING, no page is the channel's, a READY engine has
submitted the FILE-ABORTED pair with the committed copy and cause RING-FAULT, and where its journal takes the entries
at once the channel is FREE without a binding and its slip answered RING-FAULT with the committed copy and the drained
mark as it was (that the record then counts as not taken is the model's choice, log 29). And where a sweep (as in
SweepDealsWithTheMarks, not the first, the pool's serials in order) finds a held slip's mark not TAKEN, its channel
reading a file, neither in ENDING nor being closed, and owning a page without a committed record, with all 8,192 pages
in use and another channel, first in the waiting order, holding a record for which it has no OPEN page: the withdrawn
channel owns no page and does not wait; the other waits and is STALLED no longer and has written its record into a new
OPEN page of its key, with the counter's serial and that record alone. (R45, R51, R53, R54, R56, R58, R60, R61, R193,
logs 11 and 29) -/
def Obligations.RecordReachesItsEnd : Prop :=
  (∀ (bus : Bus) (c : ChanNo) (f : File) (s : State), Acts s → s.recordReady c = true →
    (s.chan c).file = some f → s.feed.stalled = [] →
    let d := (s.chan c).drained
    let raw := readRecord ((at_ bus s).hostBytes (s.ringAt c d) 64)
    let g := s.groupOf raw.cls
    let expired := s.expiredOnArrival { switch := f.switch, day := f.day, group := g }
    let j := classify (s.rangesOf f.switch) f.work.expected f.pendingGaps raw.corrected.seq
    let written := (s.openPage c g).isSome = true ∨ s.poolHasPage = true
    let finished := raw.rejected = true ∨ expired = true ∨ (j.gaps.length ≤ 256 ∧ (j.verdict = .duplicate ∨ written))
    let a := s.committed c
    ∃ t, Machine.exec (.recordTake c bus) s = .next t ∧ OtherChans c s t ∧ t.ret = s.ret ∧ Kept s t ∧
      ((at_ bus s).readFails (s.ringAt c d) 64 = false →
        (finished → (f.account.counts.seen + 1) % 1024 = 0 → (t.chan c).state = .running ∧ (t.chan c).drained = d + 64 ∧
          (t.chan c).file.map File.commitDue = some true ∧ (t.chan c).finalTotal = (s.chan c).finalTotal) ∧
        (finished → (f.account.counts.seen + 1) % 1024 ≠ 0 →
          (t.chan c).file.map File.commitDue = some false ∧
          ((s.chan c).finalTotal = none → (t.chan c).state = .running ∧ (t.chan c).drained = d + 64) ∧
          ∀ m, (s.chan c).finalTotal = some m →
            (d + 128 ≤ m → (t.chan c).state = .running ∧ (t.chan c).drained = d + 64) ∧
            (d + 64 ≤ m → m < d + 128 → (t.chan c).state = .ending ∧ (t.chan c).drained = m ∧
              (t.chan c).file.map File.trailing = some (m - (d + 64)))) ∧
        (raw.rejected = false → expired = false → j.gaps.length ≤ 256 → j.verdict = .accepted → ¬ written →
          (t.chan c).state = .stalled ∧ (t.chan c).drained = d + 64 ∧ (t.chan c).file.map File.commitDue = some false ∧
          (t.chan c).finalTotal = (s.chan c).finalTotal)) ∧
      ((at_ bus s).readFails (s.ringAt c d) 64 = true →
        (t.switchCtx f.switch).state ≠ .feeding ∧ (∀ p ∈ t.pool.pages, p.owner ≠ some c) ∧ t.recon.gaps = s.recon.gaps ∧
        (s.engine = .ready → (∀ b ∈ abortedPair f.switch a .ringFault, Submitted b t) ∧
          (EntriesFit 3 s → t.chan c = Channel.idle ∧ bget t.feed.bindings c = none ∧
            Answered (at_ bus s) (s.chan c).slip .ringFault
              (leBytes 8 d ++ unsignedField 4 a.counts.seen ++ unsignedField 4 a.counts.accepted
                ++ unsignedField 4 a.counts.rejected ++ unsignedField 4 a.counts.duplicates ++ signedField a.countBal
                ++ leBytes 8 a.chargeBal.toNat) t)))) ∧
  ∀ (bus : Bus) (i : SlipNo) (c d : ChanNo) (rest : List ChanNo) (f : File) (r : Rec) (g : Nat) (s : State), OneSlip bus i s →
    s.desk.first = false → bget s.desk.held i = .held → byteAt (at_ bus s) (s.slipAt i) ≠ markTaken →
    (∀ a ∈ s.desk.list, a.slip ≠ i) → s.chanOfSlip i = some c → (s.chan c).state ≠ .ending → (s.chan c).closing = .none →
    (s.chan c).file.isSome = true → (∃ p ∈ s.pool.pages, p.owner = some c ∧ p.committed = 0) →
    s.feed.stalled = d :: rest → d ≠ c → (s.chan d).file = some f → f.held = some (r, g) → s.openPage d g = none →
    s.pool.legal = true →
    ∃ t, Machine.exec (.sweep bus) s = .next t ∧ c ∉ t.feed.stalled ∧ d ∉ t.feed.stalled ∧ (t.chan d).state ≠ .stalled ∧
      (t.chan d).file.map File.held = some none ∧ (∀ p ∈ t.pool.pages, p.owner ≠ some c) ∧
      ∃ p ∈ t.pool.pages, p.serial = s.pool.serial ∧ p.key = { switch := f.switch, day := f.day, group := g } ∧
        p.owner = some d ∧ p.sealedUp = false ∧ p.committed = 0 ∧ p.places.map Place.data = [r]

/-- O25. The verdict, the expected number and the pending gap list of a classified record. For every table of ranges,
pending gap list, expected value e and number s, with d = s - e modulo 2³²: without an expected value the record is
accepted, e becomes s + 1 and the two numbers from s are cleared of gaps; for d = 0 it is accepted, e becomes s + 1
and the list stays (that no span is cleared there, though R76 keeps e out of the ranges, is the model's choice, log
32); below 2²⁰ it is accepted, e becomes s + 1, the d + 2 numbers from e are cleared and a NEW entry of d numbers from
e is appended; from 2²⁰ below 2³¹ it is accepted as a restart with e = s + 1 and the same clearing; from 2³¹ on e is
unchanged, and the record is accepted as a fill exactly where a gap of the working view holds s: a NEW entry by R73,
otherwise the range by R74, s then standing in a FILL entry of that range; and otherwise it is a duplicate that
changes nothing. Clearing a span (R71) takes out every NEW entry that shares a number with it and every FILL entry of
a range that it displaces, keeps every other entry in its order, and appends one DISPLACE entry for each range that
shares a number with the span and is not yet displaced; no number of the span then lies in a gap of the working view
(R69). A run of m numbers from a holds x exactly where x - a modulo 2³² is below m, and two runs meet exactly where
some number lies in both; a range is displaced exactly where a DISPLACE entry names it, a number lies in a NEW entry
or in a FILL entry of a range exactly where one of the list has it in its run, and the range of the working view that
holds a number is one of the table that has it in its run, is not displaced and has it in no FILL entry, and there is
none exactly where no range of the table is so. (R68, R69, R70, R71, R73, R74, log 32) -/
def Obligations.ClassificationByDistance : Prop :=
  (∀ (gaps : List Range) (p : List GapEntry) (x : SeqNo),
    ((classify gaps none p x).verdict = .accepted ∧ (classify gaps none p x).expected = some (x + 1) ∧
      (classify gaps none p x).gaps = clearSpan x 2 gaps p ∧ (classify gaps none p x).fill = false ∧
      (classify gaps none p x).restart = false) ∧
    ∀ e : SeqNo,
      let d := (x - e).toNat
      let j := classify gaps (some e) p x
      (d = 0 → j.verdict = .accepted ∧ j.expected = some (x + 1) ∧ j.gaps = p ∧ j.fill = false ∧ j.restart = false) ∧
      (1 ≤ d → d < 1048576 → j.verdict = .accepted ∧ j.expected = some (x + 1) ∧
        j.gaps = clearSpan e (d + 2) gaps p ++ [.new e d] ∧ j.fill = false ∧ j.restart = false) ∧
      (1048576 ≤ d → d < 2147483648 → j.verdict = .accepted ∧ j.expected = some (x + 1) ∧
        j.gaps = clearSpan e (d + 2) gaps p ∧ j.fill = false ∧ j.restart = true) ∧
      (2147483648 ≤ d → j.expected = some e ∧ j.restart = false ∧
        (inNew p x = true → j.verdict = .accepted ∧ j.fill = true ∧ j.gaps = fillNew x p) ∧
        (inNew p x = false → ∀ r, viewRange gaps p x = some r → j.verdict = .accepted ∧ j.fill = true ∧
          filledIn j.gaps r.first x = true ∧
          ((∀ y ∈ p, endsBelow r.first x y = false ∧ beginsAbove r.first x y = false) → j.gaps = p ++ [.fill r.first x 1])) ∧
        (inNew p x = false → viewRange gaps p x = none → j.verdict = .duplicate ∧ j.fill = false ∧ j.gaps = p))) ∧
  (∀ (a b x : SeqNo) (m n : Nat) (p : List GapEntry) (gaps : List Range),
    (runHas a m x = true ↔ (x - a).toNat < m) ∧
    (runsMeet a m b n = true ↔ ∃ y : SeqNo, (y - a).toNat < m ∧ (y - b).toNat < n) ∧
    (displaced p a = true ↔ GapEntry.displace a ∈ p) ∧
    (inNew p x = true ↔ ∃ f k, GapEntry.new f k ∈ p ∧ (x - f).toNat < k) ∧
    (filledIn p a x = true ↔ ∃ f k, GapEntry.fill a f k ∈ p ∧ (x - f).toNat < k) ∧
    (let holds (r : Range) : Prop := (x - r.first).toNat < r.count ∧ GapEntry.displace r.first ∉ p ∧ filledIn p r.first x = false
     (viewRange gaps p x = none ↔ ∀ r ∈ gaps, ¬ holds r) ∧ ∀ r, viewRange gaps p x = some r → r ∈ gaps ∧ holds r)) ∧
  ∀ (first : SeqNo) (count : Nat) (gaps : List Range) (p : List GapEntry),
    let meets (r : SeqNo) : Prop := ∃ g ∈ gaps, g.first = r ∧ runsMeet first count g.first g.count = true
    let q := clearSpan first count gaps p
    (∀ f n, GapEntry.new f n ∈ q ↔ GapEntry.new f n ∈ p ∧ runsMeet first count f n = false) ∧
    (∀ r f n, GapEntry.fill r f n ∈ q ↔ GapEntry.fill r f n ∈ p ∧ (displaced p r = true ∨ ¬ meets r)) ∧
    (∃ kept l, q = kept ++ l ∧ kept.Sublist p ∧ l.Nodup ∧
      (∀ r, GapEntry.displace r ∈ kept ↔ GapEntry.displace r ∈ p) ∧
      ∀ x, x ∈ l ↔ ∃ r, x = GapEntry.displace r ∧ displaced p r = false ∧ meets r) ∧
    ∀ y, runHas first count y = true → inNew q y = false ∧ viewRange gaps q y = none

/-- O26. A behind record in a NEW entry shrinks it, splits it or removes it. For every NEW entry of from 1 to 2³¹
numbers, every number it holds and the entries around it: the first or the last number shrinks the entry by one from
that end; a number inside splits it, the entry keeping the numbers below and a second NEW entry directly after it
holding those above; an entry of count 1 is removed. The entries before, which do not hold the number, and those after
are unchanged. The record is accepted as a fill. (R73) -/
def Obligations.FillOfANewGap : Prop :=
  ∀ (gaps : List Range) (e : SeqNo) (before after : List GapEntry) (f : SeqNo) (n k : Nat), 1 ≤ n → n ≤ 2147483648 → k < n →
    (∀ q m, GapEntry.new q m ∈ before → runHas q m (f + BitVec.ofNat 32 k) = false) →
    fillNew (f + BitVec.ofNat 32 k) (before ++ .new f n :: after) =
      before ++ (if n = 1 then [] else
        if k = 0 then [.new (f + 1) (n - 1)] else
        if k = n - 1 then [.new f (n - 1)] else
        [.new f k, .new (f + BitVec.ofNat 32 k + 1) (n - 1 - k)]) ++ after ∧
    (2147483648 ≤ (f + BitVec.ofNat 32 k - e).toNat →
      let j := classify gaps (some e) (before ++ .new f n :: after) (f + BitVec.ofNat 32 k)
      j.verdict = .accepted ∧ j.fill = true ∧
      j.gaps = fillNew (f + BitVec.ofNat 32 k) (before ++ .new f n :: after))

/-- O27. What the three passes of a merge do to the gap table, range by range and number by number, with their
entries, and its bound of 4,096 ranges. A merge applies the FILL entries of the pending gap list, then its DISPLACE
entries, then its NEW entries, each in list order, with the entries they submit in the same order. A FILL whose first
number no range of the switch holds leaves the table and submits LATE-FILL with the run; one whose range holds the
whole run puts in the range's place what is left below and above the run, the lower first, with the range's opening
day, and submits nothing, so that with ranges that do not overlap exactly the run's numbers leave the switch's gaps.
Where that splits the range in a table of 4,096 or more, the oldest range that does not hold the run is abandoned
first, with GAP-ABANDONED and cause CAPACITY. A DISPLACE abandons the range it names with GAP-ABANDONED and cause
DISPLACED, and does nothing where the table holds none. A NEW entry becomes a range at the newest end with the opening
day D and submits GAP-OPENED; in a table of 4,096 or more the oldest range of any switch is abandoned before it with
cause CAPACITY. For every switch, day, pending gap list and gap table of at most 4,096 ranges: where no two ranges of
one switch overlap and each has from 1 to 2²⁰ - 1 numbers (R76), the whole first pass and the whole merge of its three
passes leave at most 4,096 ranges. A NEW entry, the whole second pass and the whole third pass leave at most 4,096
ranges of any such table, and so does a FILL entry where a full table has a range that does not hold the run's first
number. An ADVANCE's horizon keeps exactly the ranges whose opening day plus the horizon is not below the new day, in
their order, and none is abandoned where the new day is below the horizon. (R76, R77, R78, R79, R80) -/
def Obligations.MergeByNumber : Prop :=
  (let abandoned (r : Range) (cause : Nat) := EntryBody.mk0 .gapAbandoned (.switch r.switch) r.first.toNat r.count cause
  (∀ (sw day : Nat) (p : List GapEntry) (g : List Range),
    let andThen (x y : List Range × List EntryBody) : List Range × List EntryBody := (y.1, x.2 ++ y.2)
    let fills := p.filterMap fun
      | .fill _ f n => some (f, n)
      | _ => none
    let displaced := p.filterMap fun
      | .displace r => some r
      | _ => none
    let news := p.filterMap fun
      | .new f n => some (f, n)
      | _ => none
    let a := fills.foldl (fun x e => andThen x (applyFill sw e.1 e.2 x.1)) (g, [])
    let b := displaced.foldl (fun x r => andThen x (applyDisplace sw r x.1)) a
    mergeGaps sw day p g = news.foldl (fun x e => andThen x (applyNew sw e.1 e.2 day x.1)) b) ∧
  (∀ (sw n : Nat) (f : SeqNo) (g : List Range),
    let holds (x : SeqNo) (r : Range) : Prop := r.switch = sw ∧ (x - r.first).toNat < r.count
    let merged := applyFill sw f n g
    ((∀ r ∈ g, ¬ holds f r) → merged = (g, [EntryBody.mk0 .lateFill (.switch sw) f.toNat n 0])) ∧
    ∀ before r after, g = before ++ r :: after → (∀ q ∈ before, ¬ holds f q) → holds f r →
      let d := (f - r.first).toNat
      1 ≤ n → d + n ≤ r.count → r.count ≤ 1048575 →
      let left : List Range := (if d = 0 then [] else [{ r with count := d }]) ++
        (if d + n = r.count then [] else [{ r with first := f + BitVec.ofNat 32 n, count := r.count - d - n }])
      let splits := d ≠ 0 ∧ d + n ≠ r.count
      (g.length < 4096 ∨ ¬ splits → merged = (before ++ left ++ after, []) ∧
        ((∀ q ∈ before ++ after, q.switch = sw → runsMeet r.first r.count q.first q.count = false) →
          ∀ x, (∃ q ∈ merged.1, holds x q) ↔ (∃ q ∈ g, holds x q) ∧ ¬ (x - f).toNat < n)) ∧
      (4096 ≤ g.length → splits →
        (∀ o rest, before = o :: rest → merged = (rest ++ left ++ after, [abandoned o 1])) ∧
        (before = [] → ∀ l o m, after = l ++ o :: m → (∀ q ∈ l, holds f q) → ¬ holds f o →
          merged = (left ++ l ++ m, [abandoned o 1])))) ∧
  (∀ (sw : Nat) (f : SeqNo) (g : List Range),
    ((∀ q ∈ g, q.switch ≠ sw ∨ q.first ≠ f) → applyDisplace sw f g = (g, [])) ∧
    ∀ before r after, g = before ++ r :: after → (∀ q ∈ before, q.switch ≠ sw ∨ q.first ≠ f) → r.switch = sw → r.first = f →
      applyDisplace sw f g = (before ++ after, [abandoned r 2])) ∧
  ∀ (sw n day : Nat) (f : SeqNo) (g : List Range),
    let opened := EntryBody.mk0 .gapOpened (.switch sw) f.toNat n day
    let range : Range := { switch := sw, first := f, count := n, day := day }
    (g.length < 4096 → applyNew sw f n day g = (g ++ [range], [opened])) ∧
    ∀ o rest, 4096 ≤ g.length → g = o :: rest → applyNew sw f n day g = (rest ++ [range], [abandoned o 1, opened])) ∧
  (∀ (sw day : Nat) (p : List GapEntry) (g : List Range), g.length ≤ 4096 →
    (∀ r ∈ g, 0 < r.count ∧ r.count ≤ 1048575) →
    (g.Pairwise fun a b => a.switch = b.switch → runsMeet a.first a.count b.first b.count = false) →
    (passFill sw p g).1.length ≤ 4096 ∧ (mergeGaps sw day p g).1.length ≤ 4096) ∧
  (∀ (sw day n : Nat) (f : SeqNo) (p : List GapEntry) (g : List Range), g.length ≤ 4096 →
    (applyNew sw f n day g).1.length ≤ 4096 ∧ (passDisplace sw p g).1.length ≤ 4096 ∧
    (passNew sw day p g).1.length ≤ 4096 ∧
    ((g.length = 4096 → ∃ q ∈ g, rangeHas sw f q = false) → (applyFill sw f n g).1.length ≤ 4096)) ∧
  ∀ (newDay horizon : Nat) (g : List Range),
    (horizonGaps newDay horizon g).1 = (g.filter fun r => decide (newDay ≤ r.day + horizon)) ∧
    (newDay < horizon → (horizonGaps newDay horizon g).1 = g)

/-- O28. An interval's commit point merges the file and commits its pages. For every acting engine (powered, not
RECOVERING) whose channel is RUNNING, owes a commit point and waits for nothing, its switch FEEDING in the switch
table, and nothing being stalled: COMMIT_POINT empties the pending gap list, makes the binding's committed copy the
running account, puts the working context's expected number, highest record day and file register and the accepted and
duplicate counts added since the last commit into the switch table, leaves the merged gap table, submits on a READY
engine every entry of the merge (LATE-FILL, GAP-ABANDONED, GAP-OPENED; MergeByNumber says which), commits every page
of the channel as far as it is written, takes the owner of a SEALED one alone, keeps the key, the serial and the
records of each (a SEALED page whose places are all RELEASED becoming FREE), owes no commit point any more, and leaves
the channel RUNNING, but where a final total is held that leaves fewer than 64 bytes: with the merge's entries taken
it is then in ENDING with the drained mark at that total and the bytes left over as its trailing fragment, and
without, it waits RUNNING with them. That the two totals rise without a bound is the model's choice (log 38). The
retention unit, the editions and every other channel are unchanged. (R50, R57, R58, R77, R78, R79, log 38) -/
def Obligations.CommitPointMergesAndCommits : Prop :=
  ∀ (bus : Bus) (c : ChanNo) (f : File) (s : State), Acts s → (s.chan c).state = .running →
    (s.chan c).file = some f → f.commitDue = true → (s.chan c).closing = .none → s.waits (.chan c) = false →
    s.feed.stalled = [] → (s.switchCtx f.switch).state = .feeding →
    ∃ t, Machine.exec (.commitPoint c bus) s = .next t ∧ t.ret = s.ret ∧ t.eds = s.eds ∧ OtherChans c s t ∧ Kept s t ∧
      (let d := (s.chan c).drained
       let runs := (t.chan c).state = .running ∧ (t.chan c).drained = d
       ((s.chan c).finalTotal = none → runs) ∧
       ∀ m, (s.chan c).finalTotal = some m → (d + 64 ≤ m → runs) ∧
         (d ≤ m → m < d + 64 →
           (((at_ bus s).mergeFile c f).2 = true → (t.chan c).state = .ending ∧ (t.chan c).drained = m ∧
             (t.chan c).file.map File.trailing = some (m - d)) ∧
           (((at_ bus s).mergeFile c f).2 = false → runs ∧ t.waits (.chan c) = true))) ∧
      (t.chan c).file.map File.pendingGaps = some [] ∧ (t.chan c).file.map File.commitDue = some false ∧
      (t.chan c).file.map File.account = some f.account ∧
      bget t.feed.bindings c = some { slip := (s.chan c).slip, file := some (f.switch, f.account) } ∧
      (t.switchCtx f.switch).expected = f.work.expected ∧ (t.switchCtx f.switch).highDay = f.work.highDay ∧
      (t.switchCtx f.switch).register = f.work.register ∧
      (t.switchCtx f.switch).accepted =
        (s.switchCtx f.switch).accepted + (f.account.counts.accepted - (s.committed c).counts.accepted) ∧
      (t.switchCtx f.switch).duplicates =
        (s.switchCtx f.switch).duplicates + (f.account.counts.duplicates - (s.committed c).counts.duplicates) ∧
      t.recon.gaps = (mergeGaps f.switch s.ret.day f.pendingGaps s.recon.gaps).1 ∧
      (s.engine = .ready → ∀ b ∈ (mergeGaps f.switch s.ret.day f.pendingGaps s.recon.gaps).2, Submitted b t) ∧
      ∀ p ∈ s.pool.pages, p.owner = some c →
        (∃ q ∈ t.pool.pages, q.serial = p.serial ∧ q.key = p.key ∧ q.sealedUp = p.sealedUp ∧
          q.committed = p.places.length ∧ q.owner = (if p.sealedUp then none else some c) ∧
          q.places.map Place.data = p.places.map Place.data) ∨
        (p.sealedUp = true ∧ ∀ x ∈ p.places, x.standing = .released)

/-- O29. The final commit point merges the file; its entries taken, the switch is released and the file closed. For
every acting engine (powered, not RECOVERING) whose channel is in ENDING and waits for nothing, its switch FEEDING in
the switch table, nothing being stalled: COMMIT_POINT puts the working context's expected number, highest record day
and file register and the accepted and duplicate counts added since the last commit into the switch table, leaves the
merged gap table, submits on a READY engine every entry of the merge, and commits every page of the channel as far as
it is written, keeping its key, its serial and its records (a page whose places are all RELEASED may become FREE).
Where the journal takes the merge's entries at once, the switch is IDLE and no staging page is the channel's any more,
and a READY engine has submitted TRAILING-BYTES where there is a trailing fragment, the FILE-CLOSED pair with the
file's counts, SEQUENCE-RESTART with the restart count and the final expected number where that count is not 0, and
BALANCE-MISMATCH where a balance is not 0. Where the journal can take all of these at once, the coder holding a block,
the channel is FREE without a binding, and its slip, where the answer is not dropped, is answered DONE with the
drained mark and the file's final values. Where the journal does not take the merge's entries, the channel waits in
ENDING before the rest of R59 (R50), its switch FEEDING, its committed copy the running account. The retention unit
and the editions are unchanged. That the final commit point and the close of the file are the one command COMMIT_POINT
is the model's choice (log 11). (R1, R50, R57, R59, R63, R67, R72, R77, R81, R175, R193, log 11) -/
def Obligations.EndOfFileReleasesTheSwitch : Prop :=
  ∀ (bus : Bus) (c : ChanNo) (f : File) (s : State), Acts s → (s.chan c).state = .ending →
    (s.chan c).file = some f → (s.chan c).closing = .none → s.waits (.chan c) = false → s.feed.stalled = [] →
    (s.switchCtx f.switch).state = .feeding →
    let merged := mergeGaps f.switch s.ret.day f.pendingGaps s.recon.gaps
    let n := f.account.counts
    ∃ t, Machine.exec (.commitPoint c bus) s = .next t ∧ t.ret = s.ret ∧ t.eds = s.eds ∧ Kept s t ∧
      (t.switchCtx f.switch).expected = f.work.expected ∧ (t.switchCtx f.switch).highDay = f.work.highDay ∧
      (t.switchCtx f.switch).register = f.work.register ∧
      (t.switchCtx f.switch).accepted = (s.switchCtx f.switch).accepted + (n.accepted - (s.committed c).counts.accepted) ∧
      (t.switchCtx f.switch).duplicates = (s.switchCtx f.switch).duplicates + (n.duplicates - (s.committed c).counts.duplicates) ∧
      t.recon.gaps = merged.1 ∧ (s.engine = .ready → ∀ b ∈ merged.2, Submitted b t) ∧
      (∀ p ∈ s.pool.pages, p.owner = some c →
        (∃ q ∈ t.pool.pages, q.serial = p.serial ∧ q.key = p.key ∧ q.committed = p.places.length ∧
          q.places.map Place.data = p.places.map Place.data) ∨ ∀ x ∈ p.places, x.standing = .released) ∧
      (((at_ bus s).mergeFile c f).2 = true →
        (t.switchCtx f.switch).state = .idle ∧ (∀ p ∈ t.pool.pages, p.owner ≠ some c) ∧
        (s.engine = .ready →
          (f.trailing ≠ 0 → Submitted (EntryBody.mk0 .trailingBytes (.switch f.switch) f.trailing 0 0) t) ∧
          Submitted (EntryBody.mk0 .fileClosed (.switch f.switch) n.seen n.accepted n.rejected) t ∧
          Submitted (EntryBody.mk0 .fileClosed (.switch f.switch) n.duplicates n.clamped f.filled) t ∧
          (f.account.restarts ≠ 0 → Submitted (EntryBody.mk0 .sequenceRestart (.switch f.switch) f.account.restarts
            ((f.work.expected.map BitVec.toNat).getD 0) 0) t) ∧
          (f.account.countBal ≠ 0 ∨ f.account.chargeBal ≠ 0 → Submitted (EntryBody.mk0 .balanceMismatch (.switch f.switch)
            f.account.countBal f.account.chargeBal.toNat f.day) t))) ∧
      (s.engine = .ready → EntriesFit (merged.2.length + 5) s → CoderHolds s →
        t.chan c = Channel.idle ∧ bget t.feed.bindings c = none ∧
        ∀ i, (s.chan c).slip = some i → (at_ bus s).dropsAnswer i = false → bget t.desk.map i = Status.done.code ∧
          bget t.desk.held i = .notHeld ∧
          (DeskFits s → Memory.wf Config.hostFill s.mem = true → byteAt t (s.slipAt i) = markAnswered ∧
            t.hostBytes (s.answerAt i) 40 = answerBytes .done
              (leBytes 8 (s.chan c).drained ++ unsignedField 4 n.seen ++ unsignedField 4 n.accepted
                ++ unsignedField 4 n.rejected ++ unsignedField 4 n.duplicates ++ signedField f.account.countBal
                ++ leBytes 8 f.account.chargeBal.toNat))) ∧
      (((at_ bus s).mergeFile c f).2 = false →
        (t.chan c).state = .ending ∧ (t.chan c).closing = .committed ∧ t.waits (.chan c) = true ∧
        (t.switchCtx f.switch).state = .feeding ∧
        bget t.feed.bindings c = some { slip := (s.chan c).slip, file := some (f.switch, f.account) })

/-- O30. A coded block is placed and its store queued, or fails on an OFFLINE lane, or its target is closed or an open
asked for. For every acting engine (powered, not RECOVERING) with a block in hand and a target. Where the target is
FILLING, its lane ONLINE and the block fits, CODING_COMPLETE makes the buffer IN-FLIGHT at the reserve mark, raises
the reserve mark by the block's length and the stores in flight by 1, and the store joins the lane's foreground queue,
of which the lane may grant the first; and where the other buffer is FREE the coder selects the ready key (unless its
open is refused), or is IDLE without one; with both IN-FLIGHT it is WAITING-LANE. Where the lane is OFFLINE the store
fails at once: the lane-fault flag is set, STORE-FAILED and SEGMENT-CLOSED with cause STORE-ERROR are submitted, the
target is CLOSED with its reserve mark at its byte count, the buffer is free for a new block, and each place is HELD
or newly selected (that the failure comes before the selection is the model's choice, log 13). Where the block does
not fit, the target is CLOSED, SEGMENT-CLOSED with cause FULL is submitted, and an open for the key is asked for;
where the target is no longer FILLING its content is unchanged and an open is asked for. The open waits with the block
in hand, arrived unless the key's highest part has stores in flight; at the part limit an arriving one is refused: the
key's limit flag is set, STREAM-LIMIT is submitted where it was not set, the block is in hand no more, and each place
is HELD or newly selected. Entries are submitted on a READY engine; the coder goes on with one that is not taken at
once (the model's choice, log 42). The retention unit, the switch table, the channels' bindings and the modules are
unchanged. (R20, R23, R28, R30, R31, R105, R113, R114, R117, R134, log 13, log 42) -/
def Obligations.CodingCompletesByItsTarget : Prop :=
  ∀ (i : Fin 2) (k : StreamKey) (places : List PlaceId) (n : Nat) (s : State), Acts s →
    s.inHand = some (i, k, places) → s.coder.target = some n → s.cat.openReq = none → s.feed.stalled = [] →
    ∃ t, Machine.exec .codingComplete s = .next t ∧ t.ret = s.ret ∧ t.recon = s.recon ∧ t.feed = s.feed ∧ t.exec = s.exec ∧
      Kept s t ∧
      (let old := bget s.lanes.lane (laneOf n)
       let now := bget t.lanes.lane (laneOf n)
       let letGo : Prop := ∀ p ∈ t.pool.pages, ∀ j x, (p.serial, j) ∈ places → p.places[j]? = some x →
        x.standing = .held ∨ ∃ b k' ps, bget t.coder.buffers b = .forming k' ps ∧ (p.serial, j) ∈ ps
       let asked : Prop :=
        (s.atPartLimit k = false ∨ t.partBusy k = true → t.coder.state = .waitingExtent ∧ t.coder.target = none ∧
          bget t.coder.buffers i = .forming k places ∧ t.cat.openReq = some { key := k, arrived := !t.partBusy k }) ∧
        (s.atPartLimit k = true → t.partBusy k = false → (t.dirEntry k).map DirEntry.limited = some true ∧
          (s.engine = .ready → (s.dirEntry k).map DirEntry.limited = some false →
            Submitted (EntryBody.mk0 .streamLimit (.key k) 0 0 0) t) ∧
          (∀ ps, bget t.coder.buffers i ≠ .forming k ps) ∧ letGo)
       (∀ g, s.live? n = some (.filling, g) → g.reserve + (s.codedBytes g places).length ≤ 67108864 →
        (s.isOnline (laneOf n) = true →
          t.live? n = some (.filling, { g with reserve := g.reserve + (s.codedBytes g places).length,
                                               inFlight := g.inFlight + 1 }) ∧
          (∃ first last, bget t.coder.buffers i = .inFlight n g.reserve places first last (s.codedBytes g places)) ∧
          (∀ q, q = old.foreQ ++ [Request.store n g.reserve i (s.codedBytes g places)] →
            now.foreQ = q ∨ ∃ r, q = r :: now.foreQ ∧ now.inProgress = some r ∧ old.inProgress = none) ∧
          ∀ j, j ≠ i →
            (bget s.coder.buffers j = .free → s.readyKey = none → t.coder.state = .idle) ∧
            (∀ k', bget s.coder.buffers j = .free → s.readyKey = some k' →
              s.atPartLimit k' = false ∨ t.partBusy k' = true ∨ (s.fillingOf k').isSome = true →
              bget t.coder.buffers j = .forming k' ((s.availableOf k').take 64) ∧ t.coder.target = s.fillingOf k' ∧
              t.coder.state = if (s.fillingOf k').isSome then .coding else .waitingExtent) ∧
            (∀ a b ps x y bs, bget s.coder.buffers j = .inFlight a b ps x y bs → t.coder.state = .waitingLane)) ∧
        (s.isOnline (laneOf n) = false →
          t.live? n = some (.closed, { g with reserve := g.bytes }) ∧ (t.extent? n).map Extent.fault = some true ∧
          (s.engine = .ready → Submitted (EntryBody.mk0 .storeFailed (.segment n) g.part g.reserve places.length) t ∧
            Submitted (EntryBody.mk0 .segmentClosed (.segment n) CloseCause.storeError.code g.part 2) t) ∧
          (bget t.coder.buffers i = .free ∨ ∃ k' ps, bget t.coder.buffers i = .forming k' ps) ∧ letGo)) ∧
       (∀ g, s.live? n = some (.filling, g) → 67108864 < g.reserve + (s.codedBytes g places).length → g.reserve ≠ 0 →
        t.live? n = some (.closed, g) ∧ t.fillingOf g.key = none ∧
        (s.engine = .ready → Submitted (EntryBody.mk0 .segmentClosed (.segment n) CloseCause.full.code g.part 2) t) ∧ asked) ∧
       ((∀ g, s.live? n ≠ some (.filling, g)) → t.live? n = s.live? n ∧ asked))

/-- O31. Which places are available, which keys are ready, which key the coder selects, and what the selection and an
open's arrival do. For every state: a place of a key is available where it is HELD and below its page's committed
prefix; the available places of a key stand in staging order; a key is ready where it has one, has 64 or no channel is
bound to its switch, and its directory entry, if any, does not have its limit flag set. In a pool whose pages stand in
the order of their serials (EveryStepKeepsTheInvariant), the key to select is a ready one, if there is one, whose
oldest available place lies in the page of the lowest serial. Every command ends with the coder going on; at one that
does nothing else (SCRUB_STEP while scrub enable is clear, nothing being stalled): with nothing in hand and no open
asked for, the coder is WAITING-LANE without a FREE buffer, IDLE without a ready key, and else takes that key: its
first places up to 64, and no others, go IN-FLIGHT and the lower FREE buffer is FORMING with them; the key's FILLING
segment is the target and the coder CODING, or an open is asked for and it is WAITING-EXTENT. An open waits while the
key's highest part has stores in flight; it then arrives, or, at the part limit, is refused: the limit flag is set,
STREAM-LIMIT is submitted on a READY engine where it was not set, and each place of the block in hand is HELD or newly
selected. (R23, R26, R52, R55, R102, R103, R104, R105, R113, R117) -/
def Obligations.CoderSelectsTheOldestReadyKey : Prop :=
  (∀ (s : State) (k : StreamKey),
    let places := s.availableOf k
    (∀ id, id ∈ places ↔ ∃ p ∈ s.pool.pages, p.key = k ∧ p.serial = id.1 ∧ id.2 < p.committed ∧
      ∃ x, p.places[id.2]? = some x ∧ x.standing = .held) ∧
    (s.pool.legal = true → places.Pairwise fun a b => a.1 < b.1 ∨ (a.1 = b.1 ∧ a.2 < b.2)) ∧
    (s.keyReady k = true ↔ 0 < places.length ∧
      (64 ≤ places.length ∨ ∀ c f, (s.chan c).file = some f → f.bound = true → f.switch ≠ k.switch) ∧
      ∀ d, s.dirEntry k = some d → d.limited = false)) ∧
  (∀ s : State, s.pool.legal = true → (s.readyKey = none ↔ ∀ k, s.keyReady k = false) ∧
    ∀ k, s.readyKey = some k → s.keyReady k = true ∧
      ∀ k', s.keyReady k' = true → ∀ a b, (s.availableOf k).head? = some a → (s.availableOf k').head? = some b → a.1 ≤ b.1) ∧
  ∀ s : State, Acts s → s.scrub.enable = false → s.feed.stalled = [] →
    ∃ t, Machine.exec .scrubStep s = .next t ∧ t.ret = s.ret ∧ t.recon = s.recon ∧ t.eds = s.eds ∧ t.feed = s.feed ∧
      t.exec = s.exec ∧ t.scrub = s.scrub ∧ t.cat.table = s.cat.table ∧ Kept s t ∧
      (let letGo (places : List PlaceId) : Prop := ∀ p ∈ t.pool.pages, ∀ j x, (p.serial, j) ∈ places → p.places[j]? = some x →
        x.standing = .held ∨ ∃ b k' ps, bget t.coder.buffers b = .forming k' ps ∧ (p.serial, j) ∈ ps
       let refused (k : StreamKey) : Prop := (t.dirEntry k).map DirEntry.limited = some true ∧
        (s.engine = .ready → (s.dirEntry k).map DirEntry.limited = some false →
          Submitted (EntryBody.mk0 .streamLimit (.key k) 0 0 0) t)
       (s.inHand = none → s.cat.openReq = none →
        (s.freeBuffer = none → t.coder = { s.coder with state := .waitingLane, target := none } ∧ t.pool = s.pool) ∧
        (s.freeBuffer.isSome = true → s.readyKey = none →
          t.coder = { s.coder with state := .idle, target := none } ∧ t.pool = s.pool) ∧
        ∀ i k, s.freeBuffer = some i → s.readyKey = some k →
          let places := (s.availableOf k).take 64
          let waits := s.atPartLimit k = false ∨ s.partBusy k = true
          ((s.fillingOf k).isSome = true ∨ waits →
            t.coder = { buffers := bset s.coder.buffers i (.forming k places), target := s.fillingOf k,
                        state := if (s.fillingOf k).isSome then .coding else .waitingExtent } ∧
            (∀ p ∈ t.pool.pages, ∀ j x, (p.serial, j) ∈ places → p.places[j]? = some x → x.standing = .inFlight) ∧
            ∀ p ∈ t.pool.pages, ∃ q ∈ s.pool.pages, p.serial = q.serial ∧ p.key = q.key ∧ p.committed = q.committed ∧
              p.owner = q.owner ∧ p.places.map Place.data = q.places.map Place.data ∧
              ∀ j, (p.serial, j) ∉ places → p.places[j]? = q.places[j]?) ∧
          (s.fillingOf k = none → waits → t.cat.openReq = some { key := k, arrived := !s.partBusy k }) ∧
          (s.fillingOf k = none → ¬ waits → refused k ∧ letGo places)) ∧
       ∀ r i k places, s.cat.openReq = some r → s.inHand = some (i, k, places) →
        (r.arrived = true ∨ s.partBusy r.key = true → t.cat.openReq = some r ∧ t.coder = s.coder ∧ t.pool = s.pool) ∧
        (r.arrived = false → s.partBusy r.key = false → s.atPartLimit r.key = false →
          t.cat.openReq = some { r with arrived := true } ∧ t.coder = s.coder ∧ t.pool = s.pool) ∧
        (r.arrived = false → s.partBusy r.key = false → s.atPartLimit r.key = true → refused r.key ∧ letGo places))

/-- O32. A granted open makes the next extent of the rotation the key's FILLING segment and the block's target. For
every acting engine (powered, not RECOVERING) whose open request has arrived, with a block in hand, nothing being
stalled: where an extent can be granted, SEGMENT_OPEN moves the rotation pointer past the lane granted, makes the
extent the key's FILLING segment, the directory's FILLING segment and the coder's target, and answers the request. In
READY, its segment table listing usable numbers in rising order, the lane granted is the first from the rotation
pointer upwards, wrapping, that is ONLINE, usable and has a FREE extent, and the extent is the lane's FREE one of the
lowest erase count, the lowest-numbered among equals; where no lane has one none is granted and the request waits as
it is. With fewer than 256 FILLING segments the new segment is the part after the key's highest with its digest as
link, or part 1 with link 0 for a key without an entry, all counts and the digest 0, UNVERIFIED, never verified,
unpinned, bound to the CURRENT edition or to none, with the expiry day of the key's record day plus its group's days,
at most 65,535, and the erase count and lane-fault flag of the FREE record; the directory entry names that part, the
segment as its FILLING one and one segment more; 1 is added to the reference count of the bound slot, and in READY the
free-space watch judges the free count as it now stands: FREE-WATCH advances by 1 at a crossing in an enabled
direction and at no other change. With 256 the segment of the oldest record day, the lowest-numbered among equals, is
first closed with cause OPEN-LIMIT (CLOSED, or its extent FREE where it has been given no store), and the granted
extent opens for the key all the same, whether or not the journal takes the entry at once (the model's choice, log
42). That a waiting request is granted by this command, between other commands, is the model's choice (log 12). The
retention unit, the switch table and the modules are unchanged. (R22, R24, R25, R26, R27, R31, R35, R97, R116, log 12,
log 42) -/
def Obligations.OpenGrantsTheNextExtent : Prop :=
  ∀ (k : StreamKey) (s : State), Acts s → s.cat.openReq = some { key := k, arrived := true } →
    s.inHand.isSome = true → s.feed.stalled = [] →
    let free (n : Nat) (erases : Nat) : Prop := ∃ e, s.extent? n = some e ∧ e.content = .free ∧ e.erases = erases
    let can (l : LaneNo) : Prop := s.usableLane l = true ∧ s.isOnline l = true ∧ ∃ n a, laneOf n = l ∧ free n a
    let listed := s.engine = .ready ∧ rising s.cat.table = true ∧ ∀ p ∈ s.cat.table, s.usable p.1 = true
    ∃ t, Machine.exec .segmentOpen s = .next t ∧ t.ret = s.ret ∧ t.recon = s.recon ∧ t.feed = s.feed ∧ t.exec = s.exec ∧
      Kept s t ∧
      (listed → (s.grantExtent = none ↔ ∀ l, ¬ can l) ∧
        ∀ l n, s.grantExtent = some (l, n) → can l ∧ (∀ m, m - s.cat.rotation < l - s.cat.rotation → ¬ can m) ∧ laneOf n = l ∧
          ∃ a, free n a ∧ ∀ m b, laneOf m = l → free m b → a < b ∨ (a = b ∧ n ≤ m)) ∧
      (s.fillings.length < 256 → ∀ l n, s.grantExtent = some (l, n) → (s.extent? n).isSome = true →
        t.cat.rotation = l + 1 ∧ t.cat.openReq = none ∧
        (let part := ((s.dirEntry k).map fun d => d.highest + 1).getD 1
          ∃ g : Segment, t.live? n = some (.filling, g) ∧ g.key = k ∧ g.part = part ∧
            g.link = ((s.dirEntry k).map DirEntry.digest).getD 0 ∧ g.records = 0 ∧ g.blocks = 0 ∧ g.bytes = 0 ∧
            g.firstSeq = none ∧ g.lastSeq = none ∧ g.digest = 0 ∧ g.mark = .unverified ∧ g.verified = none ∧ g.fails = 0 ∧
            g.pins = 0 ∧ g.reserve = 0 ∧ g.inFlight = 0 ∧
            (∀ x : GroupNo, k.group = x.val → g.expiry = min (k.day + (bget s.ret.groups x).days) 65535) ∧
            g.edition = s.currentRef ∧
            (∀ r, g.edition = some r → (bget s.eds.slots r.slot).state = .current ∧ (bget s.eds.slots r.slot).serial = r.serial) ∧
            (g.edition = none → ∀ i, (bget s.eds.slots i).state ≠ .current) ∧
            t.dirEntry k = some { highest := part, digest := 0, filling := some n,
                                  count := ((s.dirEntry k).map DirEntry.count).getD 0 + 1,
                                  limited := ((s.dirEntry k).map DirEntry.limited).getD false }) ∧
        (t.extent? n).map Extent.erases = (s.extent? n).map Extent.erases ∧
        (t.extent? n).map Extent.fault = (s.extent? n).map Extent.fault ∧
        t.fillingOf k = some n ∧ t.coder.target = some n ∧ t.coder.state = .coding ∧ (s.engine = .ready → Watched s t) ∧
        ∀ r, s.currentRef = some r →
          (bget t.eds.slots r.slot).refs = (bget s.eds.slots r.slot).refs + 1) ∧
      (256 ≤ s.fillings.length → listed → ∀ l n, s.grantExtent = some (l, n) →
        t.cat.rotation = l + 1 ∧ t.cat.openReq = none ∧ t.fillingOf k = some n ∧ t.coder.target = some n ∧
        t.coder.state = .coding ∧
        (∃ g, t.live? n = some (.filling, g) ∧ g.key = k ∧ g.records = 0 ∧ g.blocks = 0 ∧ g.bytes = 0 ∧ g.reserve = 0) ∧
        ∃ v g, s.live? v = some (.filling, g) ∧
          (∀ m h, s.live? m = some (.filling, h) → g.key.day < h.key.day ∨ (g.key.day = h.key.day ∧ v ≤ m)) ∧
          (g.reserve ≠ 0 → t.live? v = some (.closed, g)) ∧ (g.reserve = 0 → (t.extent? v).map Extent.content = some .free) ∧
          Submitted (EntryBody.mk0 .segmentClosed (.segment v) CloseCause.openLimit.code g.part
            (if g.reserve = 0 then 1 else 2)) t) ∧
      (s.grantExtent = none → t.cat.openReq = some { key := k, arrived := true } ∧ t.cat.table = s.cat.table ∧
        t.coder = s.coder)

/-- O33. Which queue a grant serves, the quota a window latches, and how a complete window ends. For every lane and
share: a lane can make a grant exactly where it is ONLINE, has nothing in progress and an error run below 3 (the last
is the model's choice, log 12), and makes none where it cannot. Where it can, the first journal request is granted
before any other; without one, and with fewer than 256 window grants made, the first background request is granted
while the background grants are below the quota in force, else the first foreground request, else the first background
request. A window grant adds 1 to the window grants, and 1 to the background grants where the background queue is
served. A lane about to make the first window grant of a window sets its quota to S/4 rounded down, plus 1 where w mod
4 is below S mod 4; a lane that has made one keeps its quota; a journal grant latches nothing and moves none of the
four counters. For a share of at most 1,023 the quota is at most 256, and over any four windows in a row, also across
the wrap of w, the quotas add up to S. For every engine whose lanes act (powered, and either not RECOVERING or with
its first restoration made) and lane: where 256 window grants have been made, SHARE_WINDOW_END adds 1 to the window
index, wrapping, and the grants of the new window are at most the one that it may begin with; otherwise the window
index stays. Every lane's ONLINE state and every other lane's window index, the modules, the retention unit, the
switch table, the editions, the executor and the segment table are unchanged. That a complete window waits for this
command is the model's choice (log 12). (R126, R127, R129, R130, log 12) -/
def Obligations.GrantOrder : Prop :=
  (∀ (share : Nat) (l : Lane),
    (l.canGrant = true ↔ l.online = true ∧ l.inProgress = none ∧ l.errorRun < 3) ∧
    (l.canGrant = false → Lane.grant share l = l) ∧
    (l.canGrant = true →
      (∀ r q, l.journalQ = r :: q → Lane.grant share l = { l with inProgress := some r, journalQ := q }) ∧
      (l.journalQ = [] → l.grants < 256 →
        let quota := if l.grants = 0 then quotaOf share l.window else l.quota.getD 0
        (∀ r q, l.backQ = r :: q → (l.backGrants < quota ∨ l.foreQ = []) →
          (Lane.grant share l).inProgress = some r ∧ (Lane.grant share l).backQ = q ∧
          (Lane.grant share l).foreQ = l.foreQ ∧ (Lane.grant share l).grants = l.grants + 1 ∧
          (Lane.grant share l).backGrants = l.backGrants + 1) ∧
        (∀ r q, l.foreQ = r :: q → (l.backQ = [] ∨ quota ≤ l.backGrants) →
          (Lane.grant share l).inProgress = some r ∧ (Lane.grant share l).foreQ = q ∧
          (Lane.grant share l).backQ = l.backQ ∧ (Lane.grant share l).grants = l.grants + 1 ∧
          (Lane.grant share l).backGrants = l.backGrants))) ∧
    (l.canGrant = true → l.journalQ = [] → (l.foreQ ≠ [] ∨ l.backQ ≠ []) → l.grants = 0 →
      (Lane.grant share l).quota =
        some (if l.window.toNat % 4 < share % 4 then share / 4 + 1 else share / 4)) ∧
    (l.grants ≠ 0 → (Lane.grant share l).quota = l.quota) ∧
    (l.journalQ ≠ [] → (Lane.grant share l).quota = l.quota ∧ (Lane.grant share l).window = l.window ∧
      (Lane.grant share l).grants = l.grants ∧ (Lane.grant share l).backGrants = l.backGrants) ∧
    (share ≤ 1023 → quotaOf share l.window ≤ 256 ∧
      quotaOf share l.window + quotaOf share (l.window + 1) + quotaOf share (l.window + 2) +
        quotaOf share (l.window + 3) = share)) ∧
  ∀ (l : LaneNo) (s : State), s.laneActs = true →
    ∃ t, Machine.exec (.shareWindowEnd l) s = .next t ∧
      (256 ≤ (bget s.lanes.lane l).grants → (bget t.lanes.lane l).window = (bget s.lanes.lane l).window + 1 ∧
        (bget t.lanes.lane l).grants ≤ 1 ∧ (bget t.lanes.lane l).backGrants ≤ (bget t.lanes.lane l).grants) ∧
      ((bget s.lanes.lane l).grants < 256 → (bget t.lanes.lane l).window = (bget s.lanes.lane l).window) ∧
      (∀ k, (bget t.lanes.lane k).online = (bget s.lanes.lane k).online) ∧
      (∀ k, k ≠ l → (bget t.lanes.lane k).window = (bget s.lanes.lane k).window) ∧
      t.ret = s.ret ∧ t.recon = s.recon ∧ t.eds = s.eds ∧ t.exec = s.exec ∧ t.cat.table = s.cat.table ∧ Kept s t

/-- O34. A store completes: the block is appended and its places released, or the segment closes at it and they are held
again. For every acting engine (powered, not RECOVERING) with the store of an IN-FLIGHT buffer in progress on a lane
and its segment live, the modules in canonical form: on success at the byte count, STORE_COMPLETION takes 1 from the
stores in flight, adds the block's bytes, records and 1 block, sets the first sequence if the block is the first and
the last sequence, folds the bytes into the digest, leaves every other field, and the module reads back the block; the
directory entry's highest digest is the new one where the segment is the highest part, and all else of it stays but
the limit flag. On success elsewhere only the stores in flight change. On a media error the lane-fault flag is set and
a READY engine has submitted STORE-FAILED with the part, the block's offset and its record count; the key of a FILLING
one has no FILLING segment and SEGMENT-CLOSED is submitted too, with cause STORE-ERROR, the part and the outcome, the
key of any other keeps its own; a FILLING segment that has been given a store is CLOSED with its reserve mark back at
its byte count, a CLOSED one only loses the store in flight (that its reserve mark stays is the model's reading of
R30, log 31), and the modules are unchanged (the last is the model's choice, log 27), none of it waiting for its
entries to be taken (log 42). The buffer is FREE, or at once FORMING with a block newly selected. Where no channel is
stalled and the coder holds its other block, it is FREE, and every place of the block is RELEASED where it was
appended and HELD otherwise, in each page still in use; a page that is SEALED, without an owner and with every place
RELEASED is FREE. The retention unit, the switch table and the executor are unchanged. The digest of no bytes is 0;
the digest of a run followed by further bytes is the digest of the run with the further bytes folded in; and that of
the nine digits 123456789 is 0xE3069283, the check value of the polynomial in R19's convention (known outside the
spec). (R19, R29, R30, R31, R55, R118, R119, R131, log 27, log 31, log 42) -/
def Obligations.StoreCompletionAppends : Prop :=
  (∀ (l : LaneNo) (ok : Bool) (n offset : Nat) (buf : Fin 2) (places : List PlaceId) (first last : SeqNo) (bytes : List Byte)
    (st : LiveState) (g : Segment) (s : State), Acts s →
    (bget s.lanes.lane l).inProgress = some (.store n offset buf bytes) →
    bget s.coder.buffers buf = .inFlight n offset places first last bytes → s.live? n = some (st, g) →
    Memory.wf Config.mediaFill s.media = true →
    ∃ t, Machine.exec (.storeCompletion l ok) s = .next t ∧ t.ret = s.ret ∧ t.recon = s.recon ∧ t.exec = s.exec ∧
      t.engine = s.engine ∧ t.desk.base = s.desk.base ∧
      (ok = true → g.bytes = offset →
        t.live? n = some (st, { g with inFlight := g.inFlight - 1, bytes := g.bytes + bytes.length,
                                       records := g.records + places.length, blocks := g.blocks + 1,
                                       firstSeq := if g.blocks = 0 then some first else g.firstSeq, lastSeq := some last,
                                       digest := foldDigest g.digest bytes }) ∧
        ∀ d, s.dirEntry g.key = some d → ∃ x, t.dirEntry g.key = some x ∧ x.highest = d.highest ∧ x.filling = d.filling ∧
          x.count = d.count ∧ x.digest = if d.highest = g.part then foldDigest g.digest bytes else d.digest) ∧
      (ok = true → t.mediaRead n offset bytes.length = bytes) ∧
      (ok = true → g.bytes ≠ offset → t.live? n = some (st, { g with inFlight := g.inFlight - 1 }) ∧
        (t.dirEntry g.key).map DirEntry.digest = (s.dirEntry g.key).map DirEntry.digest) ∧
      (ok = false → t.media = s.media ∧ (t.extent? n).map Extent.fault = some true ∧
        (s.engine = .ready → Submitted (EntryBody.mk0 .storeFailed (.segment n) g.part offset places.length) t) ∧
        (st = .filling → t.fillingOf g.key = none ∧ (s.engine = .ready →
          Submitted (EntryBody.mk0 .segmentClosed (.segment n) 5 g.part (if g.reserve = 0 then 1 else 2)) t)) ∧
        (st ≠ .filling → t.fillingOf g.key = s.fillingOf g.key) ∧
        (st = .filling → g.reserve ≠ 0 →
          t.live? n = some (.closed, { g with inFlight := g.inFlight - 1, reserve := g.bytes })) ∧
        (st = .closed → t.live? n = some (.closed, { g with inFlight := g.inFlight - 1 }))) ∧
      (bget t.coder.buffers buf = .free ∨ ∃ k ps, bget t.coder.buffers buf = .forming k ps) ∧
      (s.feed.stalled = [] → CoderHolds s → bget t.coder.buffers buf = .free ∧
        (∀ p ∈ t.pool.pages, p.done = false ∧ ∃ q ∈ s.pool.pages, p.serial = q.serial ∧ p.owner = q.owner ∧
          p.places.map Place.data = q.places.map Place.data) ∧
        ∀ p ∈ t.pool.pages, ∀ i x, (p.serial, i) ∈ places → p.places[i]? = some x →
          x.standing = if ok = true ∧ g.bytes = offset then .released else .held)) ∧
  digestOf [] = 0 ∧ (∀ a b : List Byte, digestOf (a ++ b) = foldDigest (digestOf a) b) ∧
  digestOf [0x31, 0x32, 0x33, 0x34, 0x35, 0x36, 0x37, 0x38, 0x39] = 0xE3069283

/-- O35. A lane whose error run is 3 goes OFFLINE with its entry and its counter, and its queued requests fail. For
every lane: a completion with success sets the error run to 0 and one with a media error adds 1; a lane whose error
run has reached 3 makes no grant (the model's order of the two events, log 12). For every engine whose lanes act
(powered, and either not RECOVERING or with its first restoration made) and lane: where the lane is ONLINE with
nothing in progress and an error run of at least 3, LANE_OFFLINE makes it OFFLINE, clears its flag in the online-lane
mask, leaves it without a request, and advances LANE-FAULTS by 1; a READY or RECOVERING engine has submitted
LANE-OFFLINE with the extent and kind of the request of the third error, the lane and the number of requests it
failed; and with none queued and outside FORMATTING the free-space watch has judged the free count as it now stands. A
single queued request, the executor having nothing to choose, fails by its owner's rule: an erase of an ERASING
segment, its entries being taken, leaves the extent RETIRED with the flag set and the erase count as it was; a store
closes its FILLING segment that has been given a store, with the flag set, 1 less in flight and the reserve mark at
the byte count; a fetch sets the flag, makes the segment of the scrub or a VERIFY SUSPECT with its fail count and the
failed count up by 1 (a VERIFY past the last number then answering DONE with its counts), and unpins the segment of an
EXTRACT, whose part is counted as skipped; and a journal write settles nothing, its run being formed anew at the
settled mark on the next ONLINE lane after the one it had, where one is. Otherwise every lane's ONLINE state stays, as
it does for every other lane. That none of this waits for its entry is the model's choice (log 42). The retention unit
outside FORMATTING, the registers and the modules are unchanged. (R20, R35, R119, R123, R132, R133, R147, R158, R171,
R179, log 12, log 42) -/
def Obligations.LaneGoesOffline : Prop :=
  (∀ (share : Nat) (l : Lane), (Lane.complete true l).errorRun = 0 ∧ (Lane.complete false l).errorRun = l.errorRun + 1 ∧
    (3 ≤ l.errorRun → Lane.grant share l = l)) ∧
  ∀ (bus : Bus) (l : LaneNo) (s : State), s.laneActs = true →
    let a := bget s.lanes.lane l
    let queued := a.journalQ ++ a.foreQ ++ a.backQ
    ∃ t, Machine.exec (.laneOffline l bus) s = .next t ∧ t.media = s.media ∧ t.desk.base = s.desk.base ∧
      t.desk.period = s.desk.period ∧ (s.engine ≠ .formatting → t.ret = s.ret ∧ t.engine = s.engine ∧ t.stamp = s.stamp) ∧
      (∀ k, k ≠ l → (bget t.lanes.lane k).online = (bget s.lanes.lane k).online) ∧
      (a.online = false ∨ a.inProgress ≠ none ∨ a.errorRun < 3 →
        (bget t.lanes.lane l).online = (bget s.lanes.lane l).online) ∧
      (a.online = true → a.inProgress = none → 3 ≤ a.errorRun →
        let b := bget t.lanes.lane l
        b.online = false ∧ t.onlineMask.testBit l.val = false ∧ b.inProgress = none ∧ b.journalQ = [] ∧ b.foreQ = [] ∧
        b.backQ = [] ∧
        bget t.desk.counters Counter.laneFaults.index = bget s.desk.counters Counter.laneFaults.index + 1 ∧
        (∀ r, (s.engine = .ready ∨ s.engine = .recovering) → a.lastError = some r →
          Submitted (EntryBody.mk0 .laneOffline (.segment (State.Request.extent r)) l.val r.kindCode queued.length) t) ∧
        (queued = [] → s.engine ≠ .formatting → Watched s t) ∧
        (NoChoice s →
          (∀ n e g, queued = [.erase n] → s.extent? n = some e → e.content = .live .erasing g → EntriesFit 2 s →
            t.extent? n = some { content := .retired, erases := e.erases, fault := true }) ∧
          (∀ n off i bs o places x y bytes g, queued = [.store n off i bs] →
            bget s.coder.buffers i = .inFlight n o places x y bytes → s.live? n = some (.filling, g) → g.reserve ≠ 0 →
            (t.extent? n).map Extent.fault = some true ∧
            t.live? n = some (.closed, { g with inFlight := g.inFlight - 1, reserve := g.bytes })) ∧
          (∀ n off len q, queued = [.fetch n off len q] → (s.extent? n).isSome = true →
            (t.extent? n).map Extent.fault = some true ∧
            ∀ st g v, s.live? n = some (st, g) → v.seg = n →
              let suspect : Prop :=
                ∃ p, t.live? n = some (st, { g with mark := .suspect, fails := min (g.fails + 1) 15, pins := p })
              (q = .scrub → s.scrub.visit = some v → suspect ∧ t.scrub.failed = s.scrub.failed + 1) ∧
              ∀ o, q = .op o.adm → s.exec.running = some o → v.waiting = true → o.stopping = false → s.exec.preempt = none →
                (∀ sel cursor c, o.body = .verify sel cursor c (some v) → cursor + 1 < 262144 ∨ QuietChoice o s → suspect ∧
                  let c' : VerifyCounts := { c with checked := c.checked + 1, failed := c.failed + 1 }
                  (∃ cur w, t.exec.running = some { o with body := .verify sel cur c' w }) ∨
                    (262144 ≤ cursor + 1 ∧ t.exec.running = s.pick ∧
                      Answered (at_ bus s) o.slip .done (fours [c'.checked, c'.passed, c'.failed, c'.skipped]) t)) ∧
                ∀ p ex, o.body = .extract p ex → ex.visit = some v → t.live? n = some (st, { g with pins := g.pins - 1 }) ∧
                  t.exec.running =
                    some { o with body := .extract p { ex with visit := none, skip := none, skipped := ex.skipped + 1 } }) ∧
          ∀ n off bs r, queued = [.journalWrite n off bs] → s.jnl.out = some r → t.jnl.settled = s.jnl.settled ∧
            (s.jnl.buffer ≠ [] → ∀ m, t.nextOnline (r.lane + 1) = some m →
              ∃ count, s.runLength ≤ count ∧ t.jnl.out = some { lane := m, first := s.jnl.settled, count := count } ∧
                t.jnl.pointer = m + 1)))

/-- O36. A fetch that fails makes the segment of a scrub step or VERIFY SUSPECT, and ends an EXTRACT's reading of its
part. For every acting engine (powered, not RECOVERING) with a fetch in progress for the segment that its reader
visits, FETCH_COMPLETION with a media error sets the extent's lane-fault flag. For the scrub (the executor having
nothing to choose: an operation runs, or none is suspended or waits) and for a VERIFY that runs and is not asked to
stop (at the last number where no operation chosen at its end resumes a reading or ends at once): the segment is
SUSPECT with its fail count up by 1 to at most 15 and its other fields but the pin as they were, the reader's checked
and failed counts gain 1, a READY engine has submitted VERIFY-FAIL with cause 1, the new fail count and the offset of
the failed fetch, and either the visit is over and the pin released, the cursor having moved on, the scrub then
WALKING, or, past the last number, its lap ended or waiting with SCRUB-LAP (log 36); a VERIFY past the last number has
its slip answered DONE with the four counts and the next operation runs; or the visit waits with its pin for that
entry (for the scrub, exactly where the journal does not take it at once). For an EXTRACT the segment keeps its mark,
its pin is released, and the part is counted as skipped. Where a suspension of the operation is requested and the
preempting operation waits, it now runs, and the suspended operation stands first with that progress. The modules, the
retention unit and the switch table are unchanged. (R20, R131, R158, R161, R162, R163, R165, R166, R171, R191, log 36) -/
def Obligations.FetchErrorEndsTheReading : Prop :=
  ∀ (bus : Bus) (l : LaneNo) (n offset len : Nat) (q : Reader) (v : Visit) (st : LiveState) (g : Segment) (s : State), Acts s →
    (bget s.lanes.lane l).inProgress = some (.fetch n offset len q) → v.seg = n → s.live? n = some (st, g) →
    let waits : Visit := { v with judged := true, waiting := false, kept := none }
    let Fails (t : State) (finished : Bool) : Prop :=
      t.live? n = some (st, { g with mark := .suspect, fails := min (g.fails + 1) 15, pins := if finished then g.pins - 1 else g.pins }) ∧
      (s.engine = .ready →
        Submitted (EntryBody.mk0 .verifyFail (.segment n) 1 (min (g.fails + 1) 15) (offset)) t)
    ∃ t, Machine.exec (.fetchCompletion l .mediaError bus) s = .next t ∧ t.media = s.media ∧ t.ret = s.ret ∧
      t.recon = s.recon ∧ Kept s t ∧
      (q = .scrub → s.scrub.visit = some v → NoChoice s →
        (t.extent? n).map Extent.fault = some true ∧
        let counted : Scrub := { s.scrub with checked := s.scrub.checked + 1, failed := s.scrub.failed + 1 }
        (EntryFits s → Fails t true ∧ ScrubMovesOn counted 2 s t) ∧
        (¬ EntryFits s → Fails t false ∧ t.scrub = { counted with visit := some waits })) ∧
      ∀ o, q = .op o.adm → s.exec.running = some o → v.waiting = true → o.stopping = false →
        let Goes (b : OpBody) : Prop :=
          (s.exec.preempt = none → t.exec.running = some { o with body := b }) ∧
          ∀ a w, s.exec.preempt = some a → (s.exec.waiting.find? fun x => x.adm == a) = some w →
            t.exec.running = some w ∧ t.exec.suspended.head? = some { o with body := b }
        (∀ sel cursor c, o.body = .verify sel cursor c (some v) → cursor + 1 < 262144 ∨ QuietChoice o s →
          let c' : VerifyCounts := { c with checked := c.checked + 1, failed := c.failed + 1 }
          (t.extent? n).map Extent.fault = some true ∧
          ((Fails t true ∧ (cursor + 1 < 262144 → Goes (.verify sel (cursor + 1) c' none)) ∧
              (262144 ≤ cursor + 1 → t.exec.running = s.pick ∧ Answered (at_ bus s) o.slip .done (fours [c'.checked, c'.passed, c'.failed, c'.skipped]) t)) ∨
            (Fails t false ∧ Goes (.verify sel cursor c' (some waits))))) ∧
        ∀ p ex, o.body = .extract p ex → ex.visit = some v →
          (t.extent? n).map Extent.fault = some true ∧ t.live? n = some (st, { g with pins := g.pins - 1 }) ∧
          Goes (.extract p { ex with visit := none, skip := none, skipped := ex.skipped + 1 })

/-- O37. A fetch that succeeds brings its bytes to its reader, who asks for the next or goes on. For every acting engine
(powered, not RECOVERING) with a fetch in progress for the segment that its reader visits, the lane ONLINE, and the
module's bytes not having changed, FETCH_COMPLETION with success: for the scrub (the executor having nothing to
choose: an operation runs, or none is suspended or waits) and for a VERIFY that runs, is not asked to stop and has no
suspension requested, with more of the read length to ask for, the bytes that the module holds are folded into the
digest and decoded against the bound edition, the next span of at most 1,048,576 bytes is asked for, and the segment
table is unchanged. The fetch asked for joins the background queue of the segment's lane for the scrub and the
foreground queue for VERIFY and EXTRACT, last, or is at once the lane's request in progress where the lane had none,
and the lane is left with no grant that it could still make; the scrub's leaves the executor unchanged. An EXTRACT
decodes them and writes the records wanted off the desk as their blocks give them; with more to ask for it asks for
the next span; after the last it leaves the segment; after a block that breaks R159 it leaves it, counted as skipped;
and where the buffer is full it is answered PARTIAL, and where the resume point names no record of its block RANGE
(the model's choice of when, log 21), so that nothing runs where nothing else waits. Where a suspension is requested
and the preempting operation waits, that one runs, and the suspended operation keeps the bytes (R163). The modules,
the retention unit and the switch table are unchanged. (R124, R131, R157, R158, R159, R163, R165, R169, R170, R171,
R191, log 21) -/
def Obligations.FetchBringsTheReaderOn : Prop :=
  ∀ (bus : Bus) (l : LaneNo) (n offset len : Nat) (q : Reader) (v : Visit) (st : LiveState) (g : Segment) (s : State), Acts s →
    (bget s.lanes.lane l).inProgress = some (.fetch n offset len q) → v.seg = n → s.live? n = some (st, g) →
    s.isOnline (laneOf n) = true →
    let b := s.mediaRead n offset len
    let walked := feedBlocks (s.editionOf g.edition) g.edition (decide (v.length ≤ v.asked)) b v.walk
    let next : Visit := { v with waiting := true, kept := none, walk := walked.2,
                                 asked := v.asked + min 1048576 (v.length - v.asked) }
    let folded : Visit := { next with digest := foldDigest v.digest b }
    let old := bget (s.onLane l (Lane.complete true)).lanes.lane (laneOf n)
    let ask := fetchOf n v.asked v.length q
    ∃ t, Machine.exec (.fetchCompletion l (.success []) bus) s = .next t ∧ t.media = s.media ∧ t.ret = s.ret ∧
      t.recon = s.recon ∧ Kept s t ∧
      (q = .scrub → s.scrub.visit = some v → NoChoice s → v.asked < v.length →
        t.scrub = { s.scrub with visit := some folded } ∧ t.cat.table = s.cat.table ∧ t.exec = s.exec ∧
        JoinedBack ask old (laneOf n) t) ∧
      ∀ o, q = .op o.adm → s.exec.running = some o → v.waiting = true → o.stopping = false →
        (∀ a w, s.exec.preempt = some a → (s.exec.waiting.find? fun x => x.adm == a) = some w → o.body.visit = some v →
          t.exec.running = some w ∧ t.cat.table = s.cat.table ∧ t.exec.suspended =
            { o with body := o.body.setVisit (some { v with waiting := false, kept := some b }) } :: s.exec.suspended) ∧
        (∀ sel cursor c, s.exec.preempt = none → o.body = .verify sel cursor c (some v) → v.asked < v.length →
          t.exec.running = some { o with body := .verify sel cursor c (some folded) } ∧ t.cat.table = s.cat.table ∧
          JoinedFore ask old (laneOf n) t) ∧
        ∀ p ex, s.exec.preempt = none → o.body = .extract p ex → ex.visit = some v →
          let x := State.writeBlocks p ex.skip walked.1 ex.written (at_ bus s)
          (x.2.2 = none →
            (∀ a, OffDesk s a → byteAt t a = byteAt x.1 a) ∧
            (walked.2.bad = none → v.asked < v.length → t.cat.table = s.cat.table ∧ JoinedFore ask old (laneOf n) t ∧
              t.exec.running = some { o with body := .extract p { ex with written := x.2.1, visit := some next } }) ∧
            (walked.2.bad = none → v.length ≤ v.asked → t.live? n = some (st, { g with pins := g.pins - 1 }) ∧
              t.exec.running = some { o with body := .extract p { ex with written := x.2.1, visit := none, skip := none } }) ∧
            (walked.2.bad ≠ none → t.live? n = some (st, { g with pins := g.pins - 1 }) ∧
              t.exec.running = some { o with body := .extract p { ex with written := x.2.1, visit := none, skip := none, skipped := ex.skipped + 1 } })) ∧
          (x.2.2 ≠ none → s.exec.suspended = [] → s.exec.waiting = [] →
            t.exec.running = none ∧ t.live? n = some (st, { g with pins := g.pins - 1 }) ∧
            ∀ i, o.slip = some i → x.1.dropsAnswer i = false → bget t.desk.map i =
              if x.2.2 = some .badPoint then Status.range.code else Status.partialDone.code)

/-- O38. After the last fetch a scrub step or VERIFY judges DIGEST, DECODE and LINK in order, and sets the standing. For
every acting engine (powered, not RECOVERING) with the last fetch of a visit in progress, for the scrub (the executor
having nothing to choose: an operation runs, or none is suspended or waits) or for a VERIFY that runs, is not asked to
stop and has no suspension requested (at the last number where no operation chosen at its end resumes a reading or
ends at once), FETCH_COMPLETION with success, the module's bytes not having changed: the verdict is the first check
that fails. DIGEST, with cause 2 and position 0, where the digest over the read length is not the segment's; DECODE,
with cause 3, at the failing block where one breaks R159, and at an open position where the totals disagree (log 3);
LINK, with cause 4 and position 0, where part 1 has a link digest other than 0, or the part before is held, not
FILLING, and its digest is not the link digest. A failure makes the segment SUSPECT with its fail count up by 1 to at
most 15, keeps the last verified day, and submits VERIFY-FAIL on a READY engine; a pass makes it VERIFIED on the day
D, keeps the fail count and releases the pin. The checked count gains 1, and the passed count of a VERIFY, or the
failed count, with it; the visit is over unless it waits for its entry (for the scrub, exactly where the journal does
not take it at once); the scrub's cursor then moves to the next number and it is WALKING, or, past the last number,
its lap ends or waits with SCRUB-LAP (log 36); past the last number the VERIFY's slip is answered DONE with the four
counts and the next operation runs. The modules, the retention unit and the switch table are unchanged. (R157, R158,
R159, R160, R161, R162, R165, R166, log 3, log 36) -/
def Obligations.LastFetchGivesTheVerdict : Prop :=
  ∀ (bus : Bus) (l : LaneNo) (n offset len : Nat) (q : Reader) (v : Visit) (st : LiveState) (g : Segment) (s : State), Acts s →
    (bget s.lanes.lane l).inProgress = some (.fetch n offset len q) → v.seg = n → s.live? n = some (st, g) →
    v.length ≤ v.asked →
    let b := s.mediaRead n offset len
    let digest := foldDigest v.digest b
    let walk := (feedBlocks (s.editionOf g.edition) g.edition true b v.walk).2
    let totals : Prop := walk.blocks = g.blocks ∧ walk.records = g.records ∧ walk.first = g.firstSeq ∧ walk.last = g.lastSeq
    let unlinked : Prop := (g.part ≤ 1 ∧ g.link ≠ 0) ∨
      (1 < g.part ∧ ∃ m ls x, s.partOf g.key (g.part - 1) = some (m, ls, x) ∧ ls ≠ .filling ∧ g.link ≠ x.digest)
    let waits : Visit := { v with judged := true, waiting := false, kept := none, digest := digest, walk := walk }
    let Passes (t : State) : Prop :=
      t.live? n = some (st, { g with mark := .verified, verified := some s.ret.day, pins := g.pins - 1 })
    let Fails (cause position : Nat) (t : State) : Prop :=
      (∃ p, t.live? n = some (st, { g with mark := .suspect, fails := min (g.fails + 1) 15, pins := p })) ∧
      (s.engine = .ready → Submitted (EntryBody.mk0 .verifyFail (.segment n) cause (min (g.fails + 1) 15) position) t)
    let Judged (t : State) (passed : Bool) : Prop :=
      (passed = true ↔ digest = g.digest ∧ walk.bad = none ∧ totals ∧ ¬ unlinked) ∧
      (passed = true → Passes t) ∧
      (digest ≠ g.digest → Fails 2 0 t) ∧
      (digest = g.digest → ∀ i, walk.bad = some i → Fails 3 i t) ∧
      (digest = g.digest → walk.bad = none → ¬ totals → ∃ i, Fails 3 i t) ∧
      (digest = g.digest → walk.bad = none → totals → unlinked → Fails 4 0 t)
    ∃ t passed, Machine.exec (.fetchCompletion l (.success []) bus) s = .next t ∧ t.media = s.media ∧ t.ret = s.ret ∧
      t.recon = s.recon ∧ Kept s t ∧
      (q = .scrub → s.scrub.visit = some v → NoChoice s → Judged t passed ∧
        let counted : Scrub := { s.scrub with checked := s.scrub.checked + 1, failed := s.scrub.failed + (if passed then 0 else 1) }
        (passed = true → ScrubMovesOn counted 1 s t) ∧ (passed = false → EntryFits s → ScrubMovesOn counted 2 s t) ∧
        (passed = false → ¬ EntryFits s → t.scrub = { counted with visit := some waits })) ∧
      ∀ o sel cursor c, q = .op o.adm → s.exec.running = some o → o.body = .verify sel cursor c (some v) → v.waiting = true →
        o.stopping = false → s.exec.preempt = none → cursor + 1 < 262144 ∨ QuietChoice o s → Judged t passed ∧
        let c' : VerifyCounts := { c with checked := c.checked + 1, passed := c.passed + (if passed then 1 else 0),
                                          failed := c.failed + (if passed then 0 else 1) }
        ((cursor + 1 < 262144 → t.exec.running = some { o with body := .verify sel (cursor + 1) c' none }) ∧
          (262144 ≤ cursor + 1 → t.exec.running = s.pick ∧ Answered (at_ bus s) o.slip .done (fours [c'.checked, c'.passed, c'.failed, c'.skipped]) t)) ∨
          (passed = false ∧ t.exec.running = some { o with body := .verify sel cursor c' (some waits) })

/-- O39. An erase of an ERASING segment frees or retires its extent, and the free-space watch judges the free count.
For every engine whose lanes act (powered, and either not RECOVERING or with its first restoration made) with an erase
of an ERASING segment in progress, the journal's line empty and room for its entry: on success ERASE_COMPLETION adds 1
to the erase count, to at most 65,535, makes the extent FREE below 10,000 and RETIRED from there, leaves the
lane-fault flag, and every byte of the extent reads as erased; on a media error the extent is RETIRED with the
lane-fault flag set, its erase count unchanged and the modules unchanged (the last is the model's choice, log 27);
neither waits for EXTENT-RETIRED to be taken (log 42). In each case the watch's side is the one that the free count as
it now stands gives, and FREE-WATCH advances by 1 exactly where that changes the side in an enabled direction. The
retention unit, the switch table and the executor are unchanged. (R20, R34, R35, R131, R147, log 27, log 42) -/
def Obligations.EraseCompletionFreesOrRetires : Prop :=
  ∀ (l : LaneNo) (ok : Bool) (n : Nat) (e : Extent) (g : Segment) (s : State), s.laneActs = true →
    (bget s.lanes.lane l).inProgress = some (.erase n) →
    s.extent? n = some e → e.content = .live .erasing g → s.jnl.line = [] → s.jnl.buffer.length < 4096 → 0 < s.room →
    ∃ t, Machine.exec (.eraseCompletion l ok) s = .next t ∧ t.ret = s.ret ∧ t.recon = s.recon ∧ t.exec = s.exec ∧
      Watched s t ∧
      (ok = true → t.extent? n = some { content := if 10000 ≤ min (e.erases + 1) 65535 then .retired else .free,
                                        erases := min (e.erases + 1) 65535, fault := e.fault } ∧
        ∀ i, i < 67108864 → Memory.byte Config.mediaFill t.media (State.mediaAt n i) = 0xFF) ∧
      (ok = false → t.extent? n = some { content := .retired, erases := e.erases, fault := true } ∧ t.media = s.media)

/-- O40. A journal write settles its run, or leaves it unsettled to be sent again on the next lane. For every engine
whose lanes act (powered, and either not RECOVERING or with its first restoration made) with a journal write in
progress and its run outstanding: on success JOURNAL_WRITE_COMPLETION raises the settled mark by the run's length and
the module reads back the entries' bytes; on a media error the settled mark stays, and so do the modules (the model's
choice, log 27), and the unsettled entries of the buffer are sent again: a run that begins at the settled mark and
holds at least as many entries as a run then could is outstanding on the first ONLINE lane from the one after the lane
that failed, the write pointer is past that lane, and the journal write of its entries' bytes, at the settled mark's
place, stands at the lane. With no lane ONLINE no run is outstanding. The release mark is unchanged in both. (R131,
R178, R179, log 27) -/
def Obligations.JournalRunSettles : Prop :=
  ∀ (bus : Bus) (l : LaneNo) (ok : Bool) (ext pos : Nat) (bytes : List Byte) (r : Run) (s : State), s.laneActs = true →
    (bget s.lanes.lane l).inProgress = some (.journalWrite ext pos bytes) → s.jnl.out = some r →
    Memory.wf Config.mediaFill s.media = true →
    ∃ t, Machine.exec (.journalWriteCompletion l ok bus) s = .next t ∧ t.jnl.release = s.jnl.release ∧
      t.ret = s.ret ∧ t.engine = s.engine ∧
      (ok = true → t.jnl.settled = s.jnl.settled + r.count ∧ t.mediaRead ext pos bytes.length = bytes) ∧
      (ok = false → t.jnl.settled = s.jnl.settled ∧ t.media = s.media ∧
        (s.nextOnline (r.lane + 1) = none → t.jnl.out = none) ∧
        (s.jnl.buffer ≠ [] → ∀ m, s.nextOnline (r.lane + 1) = some m →
          ∃ count sent, s.runLength ≤ count ∧ t.jnl.out = some { lane := m, first := s.jnl.settled, count := count } ∧
            t.jnl.pointer = m + 1 ∧ ((s.jnl.buffer.take s.runLength).flatMap Entry.bytes) <+: sent ∧
            Request.journalWrite (laneBase m + s.jnl.settled % 8388608 / 2097152) (s.jnl.settled % 8388608 % 2097152 * 32) sent ∈
              (bget t.lanes.lane m).inProgress.toList ++ (bget t.lanes.lane m).journalQ))

/-- O41. When the journal takes a submission and forms a run with it, and when it waits. For every state outside BLANK
and FORMATTING and every single entry: where nothing waits, the buffer holds fewer than 4,096 entries and the window
has room, the entry is taken with the head as its number and D as its day, the head gains 1 and it joins the store and
the buffer; otherwise the submission joins the back of the line and neither the head nor the store changes. In BLANK
and FORMATTING it is discarded and its producer goes on. The FINDINGS counter advances by 1 exactly where a finding is
taken. Taken into an empty buffer with no journal write outstanding, it forms a run of that one entry at the settled
mark on the first ONLINE lane from the write pointer, which moves past it. That the head goes on past 2⁶⁴ − 1 is the
model's choice (log 38). (R174, R175, R176, R178, log 38) -/
def Obligations.SubmissionsWaitInLine : Prop :=
  ∀ (b : EntryBody) (who : Producer) (acts : List OnTake) (s : State),
    let sub : Submission := { entries := [b], who := who, acts := acts }
    let t := (s.submit sub).1
    let free := s.jnl.line = [] ∧ s.jnl.buffer.length < 4096 ∧ 0 < s.room
    ((s.engine = .blank ∨ s.engine = .formatting) → s.submit sub = (s, true)) ∧
    ((s.engine = .ready ∨ s.engine = .recovering) →
      (free → (s.submit sub).2 = true ∧ t.jnl.head = s.jnl.head + 1 ∧
        t.jnl.store = s.jnl.store ++ [{ seq := s.jnl.head, day := s.ret.day, second := false, body := b }] ∧
        t.jnl.buffer = s.jnl.buffer ++ [{ seq := s.jnl.head, day := s.ret.day, second := false, body := b }] ∧
        bget t.desk.counters Counter.findings.index =
          bget s.desk.counters Counter.findings.index + (if b.kind.finding then 1 else 0) ∧
        (s.jnl.buffer = [] → s.jnl.out = none → ∀ l, s.nextOnline s.jnl.pointer = some l →
          t.jnl.out = some { lane := l, first := s.jnl.settled, count := 1 } ∧ t.jnl.pointer = l + 1 ∧
          (bget t.lanes.lane l).journalQ = (bget s.lanes.lane l).journalQ ++ [.journalWrite
            (laneBase l + s.jnl.settled % 8388608 / 2097152) (s.jnl.settled % 8388608 % 2097152 * 32)
            (Entry.bytes { seq := s.jnl.head, day := s.ret.day, second := false, body := b })])) ∧
      (¬ free → (s.submit sub).2 = false ∧ t.jnl.line = s.jnl.line ++ [sub] ∧ t.jnl.head = s.jnl.head ∧
        t.jnl.store = s.jnl.store ∧ t.desk = s.desk))

/-- O42. The 32 bytes of a journal entry and the 64 bytes of a catalog summary, field by field. Every entry is 32
bytes: its sequence number (its low 64 bits, log 38), the archive day, the kind code from 1 for FILE-CLOSED to 31 for
FORMATTED in the order of R174, the byte of the finding bit, the second-of-a-pair bit and the subject kind, the
subject, and the three values, saturated at what their 4, 8 and 4 bytes hold; the first value of BALANCE-MISMATCH
alone is signed and clamped. The findings are the ten kinds that R174 marks. Every summary is 64 bytes with each field
at its offset, the state and the audit mark as their places in their lists (log 18), a slot of 255 and a serial of 0
without an edition, 0 for a sequence or a verified day that is absent, its counts saturated, and byte 23 and bytes 56
to 63 zero. (R18, R174, R200, R202, log 18, log 38) -/
def Obligations.EntryAndSummaryBytes : Prop :=
  ([EntryKind.fileClosed, .fileAborted, .balanceMismatch, .lateFile, .repeatFile, .trailingBytes, .gapOpened, .gapAbandoned,
      .lateFill, .sequenceRestart, .contextWritten, .segmentClosed, .storeFailed, .streamLimit, .segmentExpired, .extentRetired,
      .expirySummary, .holdPlaced, .holdReleased, .retentionChanged, .classmapChanged, .settingsChanged, .editionCut,
      .editionFreed, .verifyFail, .suspectResolved, .scrubLap, .laneOffline, .dayAdvanced, .restart, .formatted].map
        fun k => k.code.toNat) = (List.range 31).map (· + 1) ∧
  (∀ k : EntryKind, k.finding = true ↔ k ∈ [EntryKind.balanceMismatch, .repeatFile, .trailingBytes, .gapAbandoned,
    .sequenceRestart, .contextWritten, .storeFailed, .streamLimit, .verifyFail, .laneOffline]) ∧
  (∀ e : Entry,
    let b := e.bytes
    let subject := field b 12 4
    let kind (n : Nat) := field b 11 1 = (if e.body.kind.finding then 1 else 0) + (if e.second then 2 else 0) + 4 * n
    b.length = 32 ∧ field b 0 8 = e.seq % 2 ^ 64 ∧ field b 8 2 = e.day % 65536 ∧ field b 10 1 = e.body.kind.code.toNat ∧
    (e.body.subject = .none → kind 0 ∧ subject = 0) ∧
    (∀ k, e.body.subject = .key k → kind 1 ∧ (k.switch < 1024 → k.group < 4 → k.day < 65536 →
      subject = k.switch + 1024 * k.group + 65536 * k.day)) ∧
    (∀ n, e.body.subject = .segment n → kind 2 ∧ subject = n % 2 ^ 32) ∧
    (∀ n, e.body.subject = .switch n → kind 3 ∧ subject = n % 2 ^ 32) ∧
    (∀ id, e.body.subject = .hold id → kind 4 ∧ subject = id.toNat) ∧
    (e.body.kind ≠ .balanceMismatch → field b 16 4 = min e.body.v1.toNat 4294967295) ∧
    (e.body.kind = .balanceMismatch →
      (BitVec.ofNat 32 (field b 16 4)).toInt = max (-2147483648) (min e.body.v1 2147483647)) ∧
    field b 20 8 = min e.body.v2 18446744073709551615 ∧ field b 28 4 = min e.body.v3 4294967295) ∧
  ∀ (n : Nat) (st : LiveState) (g : Segment) (e : Extent),
    let b := summaryBytes n st g e
    b.length = 64 ∧ field b 0 4 = n % 2 ^ 32 ∧
    field b 4 1 = (match st with | .filling => 2 | .closed => 3 | .erasing => 4) ∧
    field b 5 1 = (match g.mark with | .unverified => 1 | .verified => 2 | .suspect => 3) ∧
    field b 6 1 = (if e.fault then 1 else 0) + (if g.verified.isSome then 2 else 0) ∧ field b 7 1 = g.fails % 256 ∧
    field b 8 2 = min e.erases 65535 ∧ field b 10 1 = g.pins % 256 ∧ field b 11 1 = g.key.group % 256 ∧
    field b 12 2 = g.key.switch % 65536 ∧ field b 14 2 = g.key.day % 65536 ∧ field b 16 2 = g.part % 65536 ∧
    field b 18 2 = (g.verified.getD 0) % 65536 ∧ field b 20 2 = g.expiry % 65536 ∧
    (g.edition = none → field b 22 1 = 255 ∧ field b 24 4 = 0) ∧
    (∀ r, g.edition = some r → field b 22 1 = r.slot.val ∧ field b 24 4 = r.serial.toNat) ∧ field b 23 1 = 0 ∧
    field b 28 4 = min g.records 4294967295 ∧ field b 32 4 = min g.blocks 4294967295 ∧
    field b 36 4 = min g.bytes 4294967295 ∧ field b 40 4 = ((g.firstSeq.map BitVec.toNat).getD 0) ∧
    field b 44 4 = ((g.lastSeq.map BitVec.toNat).getD 0) ∧ field b 48 4 = g.digest.toNat ∧ field b 52 4 = g.link.toNat ∧
    field b 56 8 = 0

/-- O43. A lane answers a withdrawal by where the erase stands, and HOLD withdraws the erases it covers. For every state
and segment number: where the erase stands in the background queue of its lane the answer is WITHDRAWN and removing it
leaves the lane's other requests, the request in progress and the window counters; where it is in progress and not
queued the answer is STARTED; otherwise NOT-QUEUED. For every acting engine (powered, not RECOVERING) with a HOLD slip
at the front of the quick slips whose switch is at most 1023 or which takes all switches, whose days are in order and
whose mask has one of the four groups' flags, whose identifier no hold has and with fewer than 64 holds, no desk
change waiting, and an operation running or none chosen at the sweep's end that resumes a reading or ends at once:
HOLD makes CLOSED every ERASING segment that the hold covers and whose erase its lane withdraws: that erase stands in
the lane's background queue no more and is not granted, every other request of that queue but an erase stands there
still or is in progress, and no request joins the foreground queue. It leaves every other segment as it is; the
editions, the gap table and the modules are unchanged. (R135, R149) -/
def Obligations.WithdrawalOfAnErase : Prop :=
  (∀ (n : Nat) (s : State),
    let l := bget s.lanes.lane (laneOf n)
    (.erase n ∈ l.backQ → s.withdrawal n = .withdrawn) ∧
    (.erase n ∉ l.backQ → l.inProgress = some (.erase n) → s.withdrawal n = .started) ∧
    (.erase n ∉ l.backQ → l.inProgress ≠ some (.erase n) → s.withdrawal n = .notQueued) ∧
    bget (s.removeErase n).lanes.lane (laneOf n) = { l with backQ := l.backQ.filter fun r => r != .erase n } ∧
    ∀ k, k ≠ laneOf n → bget (s.removeErase n).lanes.lane k = bget s.lanes.lane k) ∧
  ∀ (bus : Bus) (a : Admitted) (s : State), Front .hold a s → Calm s →
    let id : Word32 := (readHold a.params).1
    let cover : Selection := (readHold a.params).2
    GoodSwitch cover.all cover.switch → GoodSelection cover → (∀ h ∈ s.ret.holds, h.id ≠ id) →
    s.ret.holds.length < 64 →
    ∃ t, Machine.exec (.hold bus) s = .next t ∧ t.eds = s.eds ∧ t.recon.gaps = s.recon.gaps ∧ Kept s t ∧
      (∀ n g, s.live? n = some (.erasing, g) → cover.covers g.key = true → s.withdrawal n = .withdrawn →
        let old := bget s.lanes.lane (laneOf n)
        let now := bget t.lanes.lane (laneOf n)
        t.live? n = some (.closed, g) ∧ .erase n ∉ now.backQ ∧
        (old.inProgress ≠ some (.erase n) → now.inProgress ≠ some (.erase n)) ∧
        now.foreQ.length ≤ old.foreQ.length ∧ ∀ r ∈ old.backQ, (∀ m, r ≠ .erase m) → r ∈ now.inProgress.toList ++ now.backQ) ∧
      (∀ n g, s.live? n = some (.erasing, g) → (cover.covers g.key = false ∨ s.withdrawal n ≠ .withdrawn) →
        t.live? n = some (.erasing, g)) ∧
      ∀ n st g, s.live? n = some (st, g) → st ≠ .erasing → t.live? n = some (st, g)

/-- O44. The step code has one row for each value, and zigzag is one to one. For every integer d, the zigzag map gives
2d for d at least 0 and -2d - 1 below, its inverse gives d back, and 0, -1, 1, -2, 2 become 0 to 4. For every value
below 2³², the step code is 2, 6, 14 or 34 bits by the row that holds the value, its selector names the row, its
payload is the value least significant bit first, and reading it gives the value back with the bits that follow.
(R107) -/
def Obligations.StepCodeAndZigzag : Prop :=
  (∀ d : Int, (0 ≤ d → (zigzag d : Int) = 2 * d) ∧ (d < 0 → (zigzag d : Int) = -2 * d - 1) ∧ unzigzag (zigzag d) = d) ∧
  [0, -1, 1, -2, 2].map zigzag = [0, 1, 2, 3, 4] ∧
  ∀ (v : Nat) (rest : List Bool), v < 4294967296 →
    (v = 0 → stepBits v = bitsOf 2 0 ∧ (stepBits v).length = 2) ∧
    (1 ≤ v → v ≤ 15 → stepBits v = bitsOf 2 1 ++ bitsOf 4 v ∧ (stepBits v).length = 6) ∧
    (16 ≤ v → v ≤ 4095 → stepBits v = bitsOf 2 2 ++ bitsOf 12 v ∧ (stepBits v).length = 14) ∧
    (4096 ≤ v → stepBits v = bitsOf 2 3 ++ bitsOf 32 v ∧ (stepBits v).length = 34) ∧
    decStep (stepBits v ++ rest) = .ok v rest

/-- O45. Every block the coder writes decodes to its records. For every edition with at most 256 entries in each
table, every binding, and every run of 1 to 64 records whose fields lie within the bounds that rejection and clamping
leave: decoding the coded block, with any bytes after it, gives exactly these records and the block's length. (R106,
R107, R108, R109, R110, R111, R112, R159, R201) -/
def Obligations.CodedBlocksDecode : Prop :=
  ∀ (ed : Edition) (ref : Option EditionRef) (rs : List Rec) (tail : List Byte),
    ed.routes.length ≤ 256 → ed.sites.length ≤ 256 → ed.prefixes.length ≤ 256 → 1 ≤ rs.length → rs.length ≤ 64 →
    (∀ r ∈ rs, r.cls ≤ 7 ∧ r.cause < 256 ∧ r.start ≤ 863999 ∧ r.duration ≤ 16777215 ∧ r.route < 65536 ∧
      r.site < 4294967296 ∧ r.charge < 4294967296 ∧ r.calling.length ≤ 18 ∧ r.called.length ≤ 18 ∧
      (∀ d ∈ r.calling, d ≤ 11) ∧ ∀ d ∈ r.called, d ≤ 11) →
    decodeBlock ed ref (encodeBlock ed ref rs ++ tail) = .ok rs (encodeBlock ed ref rs).length

/-- O46. A tally counts a value, takes a free slot or replaces the least; a record makes two to four updates; halving,
and the tables a cut builds. For every type of value, value, and tally whose slots rise by number: where the value
stands in a slot, that slot's count gains 1, to at most 2³² - 1, and every other slot stays; where it is absent and
fewer than 512 slots are occupied, the lowest free slot takes it with count 1 and every other stays; where it is
absent and 512 are occupied, the lowest-numbered slot of the lowest count takes it with that count plus 1, to at most
2³² - 1, every other slot stays and 512 are occupied. The update keeps the slots rising and never leaves more than 512
occupied. A record updates the route tally with its route, the site tally with its site, and the prefix tally with the
first six digits of its calling and then of its called number, each where it has at least six. Halving halves the
count of each slot, rounded down, frees a slot whose count becomes 0 and leaves the others at their numbers. The three
tables that a cut builds are the first 256 values of the tally's occupied slots, ordered by count, highest first, and
among equal counts route and site values ascending and prefix values shorter first, then by the first digit in which
they differ. (R85, R86, R87, R90, R91) -/
def Obligations.TallyUpdate : Prop :=
  (∀ (α : Type) [DecidableEq α] (x : α) (t : Tally α), rising t = true → t.length ≤ 512 →
    let u := tallyUpdate x t
    rising u = true ∧ u.length ≤ 512 ∧
    (∀ i n, (t.find? fun p => decide (p.2.1 = x)) = some (i, (x, n)) →
      tfind i u = some (x, min (n + 1) 4294967295) ∧ ∀ j, j ≠ i → tfind j u = tfind j t) ∧
    ((∀ p ∈ t, p.2.1 ≠ x) → t.length < 512 →
      tfind (lowestFree 0 t) t = none ∧ (∀ i, i < lowestFree 0 t → tfind i t ≠ none) ∧
      tfind (lowestFree 0 t) u = some (x, 1) ∧ ∀ j, j ≠ lowestFree 0 t → tfind j u = tfind j t) ∧
    ((∀ p ∈ t, p.2.1 ≠ x) → t.length = 512 → u.length = 512 ∧
      ∃ i y n, tfind i t = some (y, n) ∧ (∀ j z m, tfind j t = some (z, m) → n < m ∨ (n = m ∧ i ≤ j)) ∧
        tfind i u = some (x, min (n + 1) 4294967295) ∧ ∀ j, j ≠ i → tfind j u = tfind j t)) ∧
  (∀ (r : Rec) (e : Editions),
    let a := if 6 ≤ r.calling.length then tallyUpdate (r.calling.take 6) e.prefixes else e.prefixes
    Editions.count r e =
      { e with routes := tallyUpdate r.route e.routes, sites := tallyUpdate r.site e.sites,
               prefixes := if 6 ≤ r.called.length then tallyUpdate (r.called.take 6) a else a }) ∧
  (∀ (α : Type) (t : Tally α), rising t = true → rising (tallyHalve t) = true ∧
    ∀ i, tfind i (tallyHalve t) = (tfind i t).bind fun p => if p.2 / 2 = 0 then none else some (p.1, p.2 / 2)) ∧
  ∀ e : Editions,
    let Table (α : Type) (before : α → α → Prop) (t : Tally α) (out : List α) : Prop :=
      ∃ l : List (α × Nat), l.Perm (t.map Prod.snd) ∧ out = (l.take 256).map Prod.fst ∧
        l.Pairwise fun p q => q.2 < p.2 ∨ (p.2 = q.2 ∧ (p.1 = q.1 ∨ before p.1 q.1))
    let digits (a b : List Nat) : Prop := a.length < b.length ∨ (a.length = b.length ∧
      ∃ k x y, a.take k = b.take k ∧ a[k]? = some x ∧ b[k]? = some y ∧ x < y)
    Table Nat (fun a b => a < b) e.routes e.cutTables.routes ∧ Table Nat (fun a b => a < b) e.sites e.cutTables.sites ∧
      Table (List Nat) digits e.prefixes e.cutTables.prefixes

/-- O47. How the executor chooses the next operation, and which newly admitted one preempts. For every state: the
choice among the suspended operations, most recently suspended first, and then the waiting ones is the first of the
lowest priority value, and none where both lists are empty. While an operation runs, where there is none to choose, or
while the engine is RECOVERING (the model's choice, log 10), the choice changes nothing; otherwise the chosen one runs
and leaves its list, and nothing else changes where it resumes no reading and has not come to its end. A long
operation handed over joins the end of the waiting list, and nothing else changes unless it is urgent, its priority
value is below that of the running operation, fewer than two are suspended, the running one is not a FORMAT and no
suspension is requested. Then it requests the suspension of the running operation, which runs on, unless it is a
VERIFY or EXTRACT without an outstanding fetch: that one is suspended at once, as the most recent, and the preempting
operation (its number being its own) runs. An end of the running operation leaves none running and no suspension
requested. (R163, R190, R191, log 10) -/
def Obligations.ChoiceAndPreemption : Prop :=
  (∀ s : State,
    let l := s.exec.suspended ++ s.exec.waiting
    (s.pick = none ↔ l = []) ∧
    ∀ o, s.pick = some o → ∃ a b, l = a ++ o :: b ∧ (∀ x ∈ a, o.prio < x.prio) ∧ ∀ x ∈ b, o.prio ≤ x.prio) ∧
  (∀ s : State, s.exec.running.isSome = true ∨ s.pick = none ∨ s.engine = .recovering → s.nextOp = s) ∧
  (∀ (o : Op) (s : State), s.engine ≠ .recovering → s.exec.running = none → s.pick = some o → o.body.visit = none →
    (∀ sel cursor c x, o.body = .verify sel cursor c x → cursor < 262144) →
    s.nextOp = { s with exec := { s.exec with running := some o,
                                              suspended := s.exec.suspended.filter fun x => x.adm != o.adm,
                                              waiting := s.exec.waiting.filter fun x => x.adm != o.adm } }) ∧
  (∀ (o : Op) (s : State),
    let asks (r : Op) : Prop := o.urgent = true ∧ o.prio < r.prio ∧ s.exec.suspended.length < 2 ∧
      (∀ p, r.body ≠ .format p) ∧ s.exec.preempt = none
    let joined : State := { s with exec := { s.exec with waiting := s.exec.waiting ++ [o] } }
    (s.exec.running = none → s.handOver o = joined) ∧
    ∀ r, s.exec.running = some r →
      (¬ asks r → s.handOver o = joined) ∧
      (asks r → (r.body.fetches = false ∨ r.fetching = true) →
        s.handOver o = { joined with exec := { joined.exec with preempt := some o.adm } }) ∧
      (asks r → r.body.fetches = true → r.fetching = false → (∀ x ∈ s.exec.waiting, x.adm ≠ o.adm) →
        s.handOver o = { s with exec := { running := some o, suspended := r :: s.exec.suspended,
                                          waiting := s.exec.waiting, preempt := none } })) ∧
  ∀ (st : Status) (vs : List Byte) (o : Op) (s : State), s.exec.running = some o →
    (s.endAnswer st vs).exec = { s.exec with running := none, preempt := none } ∧
    s.endSilent.exec = { s.exec with running := none, preempt := none }

/-- O48. The first event of an ADVANCE: the day, the late window, the gap horizon, the automatic cut. For every acting
engine (powered, not RECOVERING) whose running operation is an ADVANCE to D' not yet run: ADVANCE makes D the new day
and leaves the rest of the retention unit, submits DAY-ADVANCED with the old and the new day, closes every FILLING
segment whose record day plus the late window is below D' (CLOSED; or, without a reserve mark, its extent FREE) and
submits SEGMENT-CLOSED with cause LATE-WINDOW for each, submits GAP-ABANDONED with cause HORIZON for each range whose
opening day plus the horizon is below D' (each entry on a READY engine), leaves of the gap table the ranges within the
gap horizon and of the switch table every context, and the operation has begun its pass at segment number 0 with all
counts 0, the number of segments closed, the number of ranges abandoned and the outcome of the cut noted. With
auto-cut off the outcome is OFF and no edition counter advances. With it on EDITIONS has advanced by 1: where a slot
is FREE the outcome is MADE with the next serial, a slot is CURRENT with that serial, no references and the tables
built from the tallies, every tally is halved, and a READY engine has submitted EDITION-CUT; where none is FREE and no
segment is closed the outcome is FULL and the editions stay. The late window and the horizon are those in force at
this first run (R140; for a change made while the ADVANCE waits, log 33). That the closes and the abandonment go on
before their entries are taken is the model's choice (log 42). (R31, R33, R80, R90, R91, R92, R94, R140, R152, R195,
log 33, log 42) -/
def Obligations.AdvanceTakesTheNewDay : Prop :=
  ∀ (bus : Bus) (o : Op) (d x y : Nat) (z : CutOutcome) (p : Pass) (s : State), Fresh o s → o.body = .advance d x y z p →
    let late := s.fillings.filter fun q => decide (q.2.key.day + s.ret.lateWindow < d)
    let serial := nextSerial s.eds.serial
    ∃ t cut, Machine.exec (.advance bus) s = .next t ∧ t.ret = { s.ret with day := d } ∧
      t.recon = { s.recon with gaps := (horizonGaps d s.ret.gapHorizon s.recon.gaps).1 } ∧ Kept s t ∧
      t.exec.running = some { o with begun := true,
                                     body := .advance d late.length (s.recon.gaps.length - t.recon.gaps.length) cut Pass.start } ∧
      (∀ n g, s.live? n = some (.filling, g) → g.key.day + s.ret.lateWindow < d → g.reserve ≠ 0 →
        t.live? n = some (.closed, g)) ∧
      (rising s.cat.table = true → ∀ n g, s.live? n = some (.filling, g) → g.key.day + s.ret.lateWindow < d → g.reserve = 0 →
        (t.extent? n).map Extent.content = some .free) ∧
      (s.engine = .ready →
        Submitted (EntryBody.mk0 .dayAdvanced .none s.ret.day d 0) t ∧
        (∀ n g, s.live? n = some (.filling, g) → g.key.day + s.ret.lateWindow < d →
          Submitted (EntryBody.mk0 .segmentClosed (.segment n) CloseCause.lateWindow.code g.part (if g.reserve = 0 then 1 else 2)) t) ∧
        ∀ r ∈ s.recon.gaps, r.day + s.ret.gapHorizon < d →
          Submitted (EntryBody.mk0 .gapAbandoned (.switch r.switch) r.first.toNat r.count GapCause.horizon.code) t) ∧
      (s.ret.autoCut = false → cut = .off ∧
        bget t.desk.counters Counter.editions.index = bget s.desk.counters Counter.editions.index) ∧
      (s.ret.autoCut = true →
        bget t.desk.counters Counter.editions.index = bget s.desk.counters Counter.editions.index + 1 ∧
        (s.freeSlot.isSome = true → cut = .made serial ∧ t.eds.serial = serial ∧
          t.eds.routes = tallyHalve s.eds.routes ∧ t.eds.sites = tallyHalve s.eds.sites ∧
          t.eds.prefixes = tallyHalve s.eds.prefixes ∧
          ∃ i, bget t.eds.slots i = { state := .current, serial := serial, refs := 0, edition := s.eds.cutTables } ∧
            (late = [] → s.freeSlot = some i) ∧
            (s.engine = .ready → Submitted (EntryBody.mk0 .editionCut .none serial.toNat i.val CutSource.auto.code) t)) ∧
        (s.freeSlot = none → late = [] → cut = .full ∧ t.eds = s.eds))

/-- O49. The first runs of EXPIRE, RETAIN, VERIFY, EXTRACT, CATALOG-READ and JOURNAL-READ. For every acting engine
(powered, not RECOVERING) whose running operation has not yet run and is not asked to stop: EXPIRE begins a pass at
segment number 0 with all counts 0; a lengthening RETAIN begins its walk; VERIFY, EXTRACT without a resume point, and
CATALOG-READ begin where their parameters are in range: a switch at most 1023 or all switches; days in order; a mask
with a flag of one of the four groups; a capacity other than 0; for EXTRACT a sequence range, if any, in order; for
CATALOG-READ a start below 262,144; JOURNAL-READ begins where it has entries to write, with its end at the lower of
its capacity and the settled mark. In each of these the operation runs on, and the retention unit, the switch and gap
tables, the segment table, the editions and the modules are unchanged. EXTRACT with a resume point in a segment that
it may read, at a block that the segment has, pins that segment, counts it as read and asks for its first fetch of at
most 1,048,576 bytes, its lane being ONLINE, which joins the lane's foreground queue, last, or is at once in progress
where the lane had no request; the groups after it are left to visit, and nothing before the point is written (R170).
It so begins whatever the point's record index is: that an index beyond its block is answered RANGE when the block is
decoded is the model's choice (log 21). (R38, R124, R143, R153, R156, R157, R162, R168, R170, R180, R190, log 21) -/
def Obligations.LongOperationsBegin : Prop :=
  ∀ (bus : Bus) (o : Op) (s : State), Fresh o s → o.stopping = false →
    let Begins (c : Instr) (b : OpBody) : Prop := ∃ t, Machine.exec c s = .next t ∧
      t.exec.running = some { o with begun := true, body := b } ∧ t.exec.suspended = s.exec.suspended ∧
      t.exec.waiting = s.exec.waiting ∧ t.ret = s.ret ∧ t.recon = s.recon ∧ t.cat.table = s.cat.table ∧ t.eds = s.eds ∧
      Kept s t
    (∀ p, o.body = .expire p → Begins (.expire bus) (.expire Pass.start)) ∧
    (∀ g i n, o.body = .walk g i n → s.frontQuick .retain = none → Begins (.retain bus) o.body) ∧
    (∀ sel i n v, o.body = .verify sel i n v → GoodSwitch sel.all sel.switch → GoodSelection sel →
      Begins (.verify bus) o.body) ∧
    (∀ p st, o.body = .extract p st → p.resume = none → p.switch ≤ 1023 → GoodExtract p →
      Begins (.extract bus) (.extract p { st with groups := State.maskGroups p.mask })) ∧
    (∀ sel b cap i w, o.body = .catalogRead sel b cap i w → GoodSwitch sel.all sel.switch →
      GoodSelection sel → cap ≠ 0 → i < 262144 → Begins (.catalogRead bus) o.body) ∧
    (∀ q cap b e n, o.body = .journalRead q cap b e n → cap ≠ 0 → q ≤ s.jnl.head → s.jnl.release ≤ q → q < s.jnl.settled →
      Begins (.journalRead bus) (.journalRead q cap b (min (q + cap) s.jnl.settled) q)) ∧
    ∀ p st n blk i ls g, o.body = .extract p st → p.resume = some (n, blk, i) → p.switch ≤ 1023 → GoodExtract p →
      s.live? n = some (ls, g) → ls ≠ .erasing → g.key.switch = p.switch → g.key.day = p.day →
      maskHas p.mask g.key.group = true → blk < g.blocks → g.bytes ≠ 0 → s.isOnline (laneOf n) = true →
      ∃ t, Machine.exec (.extract bus) s = .next t ∧ t.ret = s.ret ∧ t.recon = s.recon ∧ t.eds = s.eds ∧ Kept s t ∧
        t.live? n = some (ls, { g with pins := g.pins + 1 }) ∧
        t.exec.running = some { o with begun := true, body := .extract p (resumedAt s p blk i st n g) } ∧
        JoinedFore (fetchOf n 0 g.bytes (.op o.adm)) (bget s.lanes.lane (laneOf n)) (laneOf n) t

/-- O50. The first run of a long operation refuses what its rule refuses. For every acting engine (powered, not
RECOVERING) whose running operation has not yet run, is not asked to stop, and is the only one of the executor: FORMAT
outside BLANK answers WRONG-STATE, in BLANK with parameters out of range RANGE, and with no lane ONLINE MEDIA-ERROR
(the bounds are those of FormatBegins and LongOperationsBegin); VERIFY, EXTRACT and CATALOG-READ answer BAD-SWITCH for
a switch above 1023 and then RANGE for parameters out of range; EXTRACT answers GONE for a resume point whose segment
it may not read, and RANGE for a block that the segment does not have; JOURNAL-READ answers RANGE for a capacity of 0
or a start above the head, GONE for a start below the release mark, and DONE for a start that is settled no more. Each
writes its status to the answer map, where the answer is not dropped, and nothing runs any more. The retention unit,
the switch table, the segment table, the editions and the modules are unchanged. (R38, R39, R162, R168, R170, R180) -/
def Obligations.LongOperationsAreRefused : Prop :=
  ∀ (bus : Bus) (o : Op) (s : State), Fresh o s → o.stopping = false → s.exec.suspended = [] → s.exec.waiting = [] →
    let Ends (c : Instr) (st : Status) : Prop := ∃ t, Machine.exec c s = .next t ∧ t.exec.running = none ∧ t.ret = s.ret ∧
      t.recon = s.recon ∧ t.cat.table = s.cat.table ∧ t.eds = s.eds ∧ Kept s t ∧
      ∀ i, o.slip = some i → (at_ bus s).dropsAnswer i = false → bget t.desk.map i = st.code
    (∀ p, o.body = .format p →
      (s.engine ≠ .blank → Ends (.format bus) .wrongState) ∧
      (s.engine = .blank → ¬ GoodFormat p → Ends (.format bus) .range) ∧
      (s.engine = .blank → GoodFormat p → s.onlineMask = 0 → Ends (.format bus) .mediaError)) ∧
    (∀ sel i n v, o.body = .verify sel i n v →
      (¬ GoodSwitch sel.all sel.switch → Ends (.verify bus) .badSwitch) ∧
      (GoodSwitch sel.all sel.switch → ¬ GoodSelection sel → Ends (.verify bus) .range)) ∧
    (∀ p st, o.body = .extract p st →
      (1023 < p.switch → Ends (.extract bus) .badSwitch) ∧
      (p.switch ≤ 1023 → ¬ GoodExtract p → Ends (.extract bus) .range) ∧
      ∀ n blk i, p.switch ≤ 1023 → GoodExtract p → p.resume = some (n, blk, i) →
        ((∀ ls g, s.live? n = some (ls, g) → ls = .erasing ∨ g.key.switch ≠ p.switch ∨ g.key.day ≠ p.day ∨
            maskHas p.mask g.key.group = false) → Ends (.extract bus) .gone) ∧
        ∀ ls g, s.live? n = some (ls, g) → ls ≠ .erasing → g.key.switch = p.switch → g.key.day = p.day →
          maskHas p.mask g.key.group = true → g.blocks ≤ blk → Ends (.extract bus) .range) ∧
    (∀ sel b cap i w, o.body = .catalogRead sel b cap i w →
      (¬ GoodSwitch sel.all sel.switch → Ends (.catalogRead bus) .badSwitch) ∧
      (GoodSwitch sel.all sel.switch → (¬ GoodSelection sel ∨ cap = 0 ∨ 262144 ≤ i) →
        Ends (.catalogRead bus) .range)) ∧
    ∀ q cap b e n, o.body = .journalRead q cap b e n →
      (cap = 0 ∨ s.jnl.head < q → Ends (.journalRead bus) .range) ∧
      (cap ≠ 0 → q ≤ s.jnl.head → q < s.jnl.release → Ends (.journalRead bus) .gone) ∧
      (cap ≠ 0 → q ≤ s.jnl.head → s.jnl.release ≤ q → s.jnl.settled ≤ q → Ends (.journalRead bus) .done)

/-- O51. The expiry pass judges the segment at its cursor by four cases in order, and ends past the last number. For
every acting engine (powered, not RECOVERING) with a pass that runs and does not wait for its entry, and at the last
number where no operation chosen at its end resumes a reading or ends at once: EXPIRY_PASS_STEP moves the cursor on by
1, over numbers outside the usable set too (the model's choice, log 16). A record that is not CLOSED, or is CLOSED and
not due, is counted nowhere; a CLOSED and due segment is, with journal room, counted held where a hold covers it; else
deferred where it is pinned, its lane is OFFLINE or stores are in flight; else blocked where it is SUSPECT, each
leaving the segment table as it is; else it becomes ERASING with its other fields as they were, is counted as an erase
issued, and its erase has joined the background queue of its lane, where the lane may at once have granted it. Below
the reserve of 65,536 a CLOSED and due segment is not judged, whichever case it would fall under (log 23's reading of
R177), and the pass waits at its cursor; while it waits below the reserve no step judges or passes over anything,
whatever the record has become (that it goes on by its next step is log 43's). Past the last number a READY engine has
submitted the EXPIRY-SUMMARY pair, with D, the erases issued and the held count, and with the deferred and blocked
counts and the source; where the journal takes it the slip is answered DONE, an ADVANCE with its new day, closed and
abandoned counts, outcome and serial of its cut and the four counts (a serial of 0 without a cut is log 39's), an
EXPIRE with D and the four counts, and the next operation runs; where it does not, the operation waits at its end with
the entry. The retention unit, the switch table and the modules are unchanged. (R124, R126, R138, R145, R146, R152,
R153, R177, log 16, log 23, log 39, log 43) -/
def Obligations.ExpiryPassJudges : Prop :=
  ∀ (bus : Bus) (o : Op) (p : Pass) (s : State), Stepping o s → o.body.pass = some p → s.waits (.op o.adm) = false →
    let next : Pass := { p with cursor := p.cursor + 1, awaitsRoom := false }
    let taken := s.engine ≠ .ready ∨ EntriesFit 2 s
    let source := match o.body with
      | .advance .. => 1
      | _ => 2
    let Moves (q : Pass) (t : State) : Prop :=
      (q.cursor < 262144 → t.exec.running = some { o with body := o.body.setPass q }) ∧
      (262144 ≤ q.cursor →
        (s.engine = .ready → Submitted (EntryBody.mk0 .expirySummary .none s.ret.day q.issued q.held) t ∧
          Submitted (EntryBody.mk0 .expirySummary .none q.deferred q.blocked source) t) ∧
        (taken → t.exec.running = s.pick ∧
          (∀ d c g x y, o.body = .advance d c g x y →
            let cut := match x with
              | .made n => [1, n.toNat]
              | .full => [2, 0]
              | .off => [3, 0]
            Answered (at_ bus s) o.slip .done (fours ([d, c, g] ++ cut ++ [q.issued, q.held, q.deferred, q.blocked])) t) ∧
          (∀ y, o.body = .expire y →
            Answered (at_ bus s) o.slip .done (fours [s.ret.day, q.issued, q.held, q.deferred, q.blocked]) t)) ∧
        (¬ taken → t.exec.running = some { o with ended := true, body := o.body.setPass q } ∧ t.waits (.op o.adm) = true))
    ∃ t, Machine.exec (.expiryPassStep bus) s = .next t ∧ t.ret = s.ret ∧ t.recon = s.recon ∧ t.eds = s.eds ∧ Kept s t ∧
      (p.awaitsRoom = true → s.room < 65536 → t.exec = s.exec ∧ t.cat.table = s.cat.table) ∧
      (p.awaitsRoom = false ∨ 65536 ≤ s.room → p.cursor + 1 < 262144 ∨ QuietChoice o s →
        ((∀ g, s.live? p.cursor = some (.closed, g) → s.ret.day < g.expiry) → Moves next t ∧ t.cat.table = s.cat.table) ∧
        ∀ g, s.live? p.cursor = some (.closed, g) → g.expiry ≤ s.ret.day →
          (s.room < 65536 → t.exec.running = some { o with body := o.body.setPass { p with awaitsRoom := true } } ∧ t.cat.table = s.cat.table) ∧
          (65536 ≤ s.room →
            let covered := s.ret.holds.any fun h => h.cover.covers g.key
            let busy := decide (0 < g.pins) || !s.isOnline (laneOf p.cursor) || decide (0 < g.inFlight)
            (covered = true → Moves { next with held := p.held + 1 } t ∧ t.cat.table = s.cat.table) ∧
            (covered = false → busy = true → Moves { next with deferred := p.deferred + 1 } t ∧ t.cat.table = s.cat.table) ∧
            (covered = false → busy = false → g.mark = .suspect →
              Moves { next with blocked := p.blocked + 1 } t ∧ t.cat.table = s.cat.table) ∧
            (covered = false → busy = false → g.mark ≠ .suspect →
              Moves { next with issued := p.issued + 1 } t ∧ t.live? p.cursor = some (.erasing, g) ∧
              Request.erase p.cursor ∈ (bget t.lanes.lane (laneOf p.cursor)).inProgress.toList ++
                (bget t.lanes.lane (laneOf p.cursor)).backQ)))

/-- O52. The retention walk raises the expiry day of a segment of its group, and ends past the last number. For every
acting engine (powered, not RECOVERING) with a walk that runs, and at the last number where no operation chosen at its
end resumes a reading or ends at once: RETENTION_WALK_STEP moves the cursor on by 1, over numbers outside the usable
set too (the model's choice, log 16); a segment of the group whose expiry day lies below the record day plus the
walk's count, at most 65,535, takes that day, keeps its other fields and is counted; any other record and the count
stay. Past the last number the group's walk-pending mark is cleared (before its entry is taken, log 23) and nothing
else of the retention unit changes, and a READY engine has submitted RETENTION-CHANGED with the group, the old and the
new count; where the journal takes it the slip is answered DONE with the number of segments raised and the next
operation runs; where it does not, the walk waits at its end with the entry. Before it the retention unit is
unchanged. The switch table, the editions and the modules are unchanged. (R143, R144, log 16, log 23) -/
def Obligations.RetentionWalkRaises : Prop :=
  ∀ (bus : Bus) (o : Op) (grp : GroupNo) (cursor raised : Nat) (s : State), Stepping o s → o.body = .walk grp cursor raised →
    let taken := s.engine ≠ .ready ∨ EntriesFit 1 s
    let Moves (r : Nat) (t : State) : Prop :=
      (cursor + 1 < 262144 → t.exec.running = some { o with body := .walk grp (cursor + 1) r }) ∧
      (262144 ≤ cursor + 1 →
        (∀ old new, (bget s.ret.groups grp).walk = some (old, new) → s.engine = .ready →
          Submitted (EntryBody.mk0 .retentionChanged .none grp.val old new) t) ∧
        (taken → t.exec.running = s.pick ∧ Answered (at_ bus s) o.slip .done (fours [r]) t) ∧
        (¬ taken → t.exec.running = some { o with ended := true, body := .walk grp (cursor + 1) r } ∧ t.waits (.op o.adm) = true))
    ∃ t, Machine.exec (.retentionWalkStep bus) s = .next t ∧ t.recon = s.recon ∧ t.eds = s.eds ∧ Kept s t ∧
      (cursor + 1 < 262144 → t.ret = s.ret) ∧
      (262144 ≤ cursor + 1 → t.ret = { s.ret with groups := bmod s.ret.groups grp fun x => { x with walk := none } }) ∧
      (cursor + 1 < 262144 ∨ QuietChoice o s →
        (∀ st g, s.live? cursor = some (st, g) → g.key.group = grp.val →
          g.expiry < min (g.key.day + s.walkCount grp) 65535 →
          t.live? cursor = some (st, { g with expiry := min (g.key.day + s.walkCount grp) 65535 }) ∧ Moves (raised + 1) t) ∧
        ((∀ st g, s.live? cursor = some (st, g) → g.key.group = grp.val →
            min (g.key.day + s.walkCount grp) 65535 ≤ g.expiry) →
          t.cat.table = s.cat.table ∧ Moves raised t)) ∧
      ∀ old new, (bget s.ret.groups grp).walk = some (old, new) → s.walkCount grp = new

/-- O53. The verify cursor passes over, skips, judges or pins the segment it reaches, and ends past the last number. For
every acting engine (powered, not RECOVERING) with a VERIFY that runs and visits no segment, and at the last number
where no operation chosen at its end resumes a reading or ends at once: VERIFY_CURSOR_STEP passes over a record that
is no segment, is ERASING or does not match the selection, counting nothing, and over numbers outside the usable set
too (the model's choice, log 16); it counts as skipped a match that is not CLOSED or has stores in flight; it pins a
checkable match that has bytes and whose lane is ONLINE and asks for its first fetch of at most 1,048,576 bytes, the
cursor staying; the fetch joins the foreground queue of the lane, last, or is at once in progress where the lane had
no request. A checkable match that has bytes and whose lane is OFFLINE has its lane-fault flag set and fails at once
with cause 1 and position 0; one of no bytes is judged at once: it passes where its digest, its counts and sequences
are those of no block and its link holds, and else fails with the cause of the first failed check (the position of
disagreeing totals is open, log 3). A pass makes it VERIFIED on the day D; a failure makes it SUSPECT with its fail
count up by 1 to at most 15, and a READY engine has submitted VERIFY-FAIL: where the journal takes it the pin is gone
and the cursor has moved on, and where not the visit waits with its pin. Past the last number the slip is answered
DONE with the four counts and the next operation runs. The retention unit, the switch table, the editions and the
modules are unchanged. (R124, R134, R156, R157, R158, R159, R160, R161, R162, logs 3 and 16) -/
def Obligations.VerifyCursorJudges : Prop :=
  ∀ (bus : Bus) (o : Op) (sel : Selection) (cursor : Nat) (n : VerifyCounts) (s : State), Stepping o s →
    o.body = .verify sel cursor n none →
    let Moves (c : VerifyCounts) (t : State) : Prop :=
      (cursor + 1 < 262144 → t.exec.running = some { o with body := .verify sel (cursor + 1) c none }) ∧
      (262144 ≤ cursor + 1 → t.exec.running = s.pick ∧
        Answered (at_ bus s) o.slip .done (fours [c.checked, c.passed, c.failed, c.skipped]) t)
    let unlinked (g : Segment) : Prop := (g.part ≤ 1 ∧ g.link ≠ 0) ∨
      (1 < g.part ∧ ∃ m ls x, s.partOf g.key (g.part - 1) = some (m, ls, x) ∧ ls ≠ .filling ∧ g.link ≠ x.digest)
    let empty (g : Segment) : Prop := g.blocks = 0 ∧ g.records = 0 ∧ g.firstSeq = none ∧ g.lastSeq = none
    let Fails (g : Segment) (cause position : Nat) (t : State) : Prop :=
      let failed : Segment := { g with mark := .suspect, fails := min (g.fails + 1) 15 }
      let c : VerifyCounts := { n with checked := n.checked + 1, failed := n.failed + 1 }
      (s.engine = .ready → Submitted (EntryBody.mk0 .verifyFail (.segment cursor) cause (min (g.fails + 1) 15) position) t) ∧
      (s.engine ≠ .ready ∨ EntriesFit 1 s → t.live? cursor = some (.closed, failed) ∧ Moves c t) ∧
      (¬ (s.engine ≠ .ready ∨ EntriesFit 1 s) → t.live? cursor = some (.closed, { failed with pins := g.pins + 1 }) ∧
        t.exec.running = some { o with body := .verify sel cursor c (some { (State.newVisit cursor g) with judged := true }) })
    ∃ t, Machine.exec (.verifyCursorStep bus) s = .next t ∧ t.ret = s.ret ∧ t.recon = s.recon ∧ t.eds = s.eds ∧ Kept s t ∧
      (cursor + 1 < 262144 ∨ QuietChoice o s →
        (∀ q ∈ s.exec.suspended, q.adm ≠ o.adm) →
        ((∀ st g, s.live? cursor = some (st, g) → st = .erasing ∨ sel.covers g.key = false) →
          Moves n t ∧ t.cat.table = s.cat.table) ∧
        ∀ st g, s.live? cursor = some (st, g) → st ≠ .erasing → sel.covers g.key = true →
          (st ≠ .closed ∨ g.inFlight ≠ 0 → t.cat.table = s.cat.table ∧ Moves { n with skipped := n.skipped + 1 } t) ∧
          (st = .closed → g.inFlight = 0 → s.isOnline (laneOf cursor) = true → g.bytes ≠ 0 →
            t.live? cursor = some (.closed, { g with pins := g.pins + 1 }) ∧
            t.exec.running = some { o with body := .verify sel cursor n (some { (State.newVisit cursor g) with asked := min 1048576 g.bytes, waiting := true }) } ∧
            JoinedFore (fetchOf cursor 0 g.bytes (.op o.adm)) (bget s.lanes.lane (laneOf cursor)) (laneOf cursor) t) ∧
          (st = .closed → g.inFlight = 0 → s.isOnline (laneOf cursor) = false → g.bytes ≠ 0 →
            (t.extent? cursor).map Extent.fault = some true ∧ Fails g 1 0 t) ∧
          (st = .closed → g.inFlight = 0 → g.bytes = 0 →
            (g.digest ≠ 0 → Fails g 2 0 t) ∧
            (g.digest = 0 → ¬ empty g → ∃ i, Fails g 3 i t) ∧
            (g.digest = 0 → empty g → unlinked g → Fails g 4 0 t) ∧
            (g.digest = 0 → empty g → ¬ unlinked g →
              t.live? cursor = some (.closed, { g with mark := .verified, verified := some s.ret.day }) ∧
              Moves { n with checked := n.checked + 1, passed := n.passed + 1 } t)))

/-- O54. EXTRACT goes to the next part, reads it or counts it, or ends with its answer. For every key under way and groups
left: the next part is the key's next one up to its highest, and past that part 1 of the first group left whose key
has a directory entry, none where no group has. For every acting engine (powered, not RECOVERING) with an EXTRACT that
runs and visits no segment: where a part is left, EXTRACT_PART_STEP goes past it; a part that is ERASING or held by no
segment is counted as missing; a FILLING part without a block is passed; a CLOSED part, or a FILLING one with a block,
is counted as read: with bytes, its lane ONLINE, it is pinned and its first fetch asked for, which joins the
foreground queue of the lane, last, or is at once in progress where the lane had no request; with its lane OFFLINE its
lane-fault flag is set, it is counted as skipped and no pin stays; without bytes no pin stays. Where no part is left,
and no operation chosen at its end resumes a reading or ends at once, the slip is answered with the four counts:
MEDIA-ERROR where a segment was skipped and fewer records than the capacity are written, DONE otherwise, and the next
operation runs; that the three fields of a resume point hold 0 is the model's choice (log 39). The retention unit, the
switch table, the editions and the modules are unchanged. (R124, R134, R156, R157, R168, R169, R171, log 39) -/
def Obligations.ExtractGoesToTheNextPart : Prop :=
  (∀ (p : ExtractParams) (groups : List Nat) (s : State),
    let entry (g : Nat) := s.dirEntry { switch := p.switch, day := p.day, group := g }
    let first (r : Option (Nat × Nat × Nat × List Nat)) : Prop :=
      ((∀ g ∈ groups, entry g = none) → r = none) ∧
      ∀ a g b d, groups = a ++ g :: b → (∀ x ∈ a, entry x = none) → entry g = some d → r = some (g, 1, d.highest, b)
    first (s.nextPart p none groups) ∧
    ∀ g part top, (part ≤ top → s.nextPart p (some (g, part, top)) groups = some (g, part, top, groups)) ∧
      (top < part → first (s.nextPart p (some (g, part, top)) groups))) ∧
  ∀ (bus : Bus) (o : Op) (p : ExtractParams) (st : ExtractState) (s : State), Stepping o s → o.body = .extract p st →
    st.visit = none →
    ∃ t, Machine.exec (.extractPartStep bus) s = .next t ∧ t.ret = s.ret ∧ t.recon = s.recon ∧ t.eds = s.eds ∧ Kept s t ∧
      (s.nextPart p st.key st.groups = none → QuietChoice o s → t.exec.running = s.pick ∧ t.cat.table = s.cat.table ∧
        Answered (at_ bus s) o.slip (if 0 < st.skipped ∧ st.written < p.capacity then .mediaError else .done)
          (fours [st.written, st.read, st.skipped, st.missing, 0, 0, 0]) t) ∧
      ∀ g part top gs, s.nextPart p st.key st.groups = some (g, part, top, gs) →
        let st' : ExtractState := { st with groups := gs, key := some (g, part + 1, top) }
        let at' := s.partOf { switch := p.switch, day := p.day, group := g } part
        (at' = none ∨ (∃ n x, at' = some (n, .erasing, x)) → t.cat.table = s.cat.table ∧
          t.exec.running = some { o with body := .extract p { st' with missing := st.missing + 1 } }) ∧
        (∀ n x, at' = some (n, .filling, x) → x.blocks = 0 → t.cat.table = s.cat.table ∧
          t.exec.running = some { o with body := .extract p st' }) ∧
        ∀ n ls x, at' = some (n, ls, x) → ls ≠ .erasing → (ls = .filling → x.blocks ≠ 0) →
          (x.bytes ≠ 0 → s.isOnline (laneOf n) = true → t.live? n = some (ls, { x with pins := x.pins + 1 }) ∧
            JoinedFore (fetchOf n 0 x.bytes (.op o.adm)) (bget s.lanes.lane (laneOf n)) (laneOf n) t ∧
            t.exec.running = some { o with body := .extract p { st' with read := st.read + 1, visit := some { (State.newVisit n x) with asked := min 1048576 x.bytes, waiting := true } } }) ∧
          ((∀ q ∈ s.exec.suspended, q.adm ≠ o.adm) →
            (x.bytes ≠ 0 → s.isOnline (laneOf n) = false → t.live? n = some (ls, x) ∧
              (t.extent? n).map Extent.fault = some true ∧
              t.exec.running = some { o with body := .extract p { st' with read := st.read + 1, skip := none, skipped := st.skipped + 1 } }) ∧
            (x.bytes = 0 → t.live? n = some (ls, x) ∧
              t.exec.running = some { o with body := .extract p { st' with read := st.read + 1, skip := none } }))

/-- O55. A catalog walk writes a summary and a journal read an entry, and each ends with its answer. For every acting
engine (powered, not RECOVERING) whose running CATALOG-READ or JOURNAL-READ steps, no operation chosen at its end
resuming a reading or ending at once where it ends. CATALOG_READ_STEP writes the 64-byte summary of a segment that
matches at the next place of a buffer that lies off the desk and has room, and goes on with one more written; passes
over any other record, and over numbers outside the usable set too (the model's choice, log 16); and at a match with
the buffer full answers PARTIAL with the number written and that segment's number. Past the last number it answers
DONE with the number written (that its resume segment is 0 is the model's choice, log 39). JOURNAL_READ_STEP of an
entry that is released answers GONE with the number written and the release mark (zeros in the other three fields are
log 39's); an entry that the store holds it writes, 32 bytes, at the next place off the desk and goes on; at its end
it answers DONE with the number written, the next sequence, the head, the settled and the release mark. At an answer
the next operation runs. The segment table, the journal's release and settled marks, the retention unit, the switch
table and the modules are unchanged. (R37, R38, R180, R202, log 16, log 39) -/
def Obligations.ReadsWriteTheirEntries : Prop :=
  ∀ (bus : Bus) (o : Op) (s : State), Stepping o s → Memory.wf Config.hostFill s.mem = true →
    let Ends (st : Status) (vs : List Byte) (t : State) : Prop :=
      QuietChoice o s → t.exec.running = s.pick ∧ t.cat.table = s.cat.table ∧ Answered (at_ bus s) o.slip st vs t
    (∀ sel b cap i w, o.body = .catalogRead sel b cap i w →
      let matched := ∃ st g, s.live? i = some (st, g) ∧ sel.covers g.key = true
      let GoesOn (w' : Nat) (t : State) : Prop :=
        (i + 1 < 262144 → t.exec.running = some { o with body := .catalogRead sel b cap (i + 1) w' } ∧ t.cat.table = s.cat.table) ∧
        (262144 ≤ i + 1 → Ends .done (fours [w', 0]) t)
      ∃ t, Machine.exec (.catalogReadStep bus) s = .next t ∧ t.ret = s.ret ∧ t.jnl.release = s.jnl.release ∧
        t.jnl.settled = s.jnl.settled ∧ t.recon = s.recon ∧ Kept s t ∧
        (¬ matched → GoesOn w t) ∧ (matched → cap ≤ w → Ends .partialDone (fours [w, i]) t) ∧
        (w < cap → b + 64 * w + 64 ≤ 2 ^ 64 → (∀ j, j < 64 → OffDesk s (b + 64 * w + j)) →
          ∀ e st g, s.extent? i = some e → e.content = .live st g → sel.covers g.key = true →
            GoesOn (w + 1) t ∧
            (i + 1 < 262144 ∨ QuietChoice o s → t.hostBytes (b + 64 * w) 64 = summaryBytes i st g e))) ∧
    (∀ q cap b stop n, o.body = .journalRead q cap b stop n →
      ∃ t, Machine.exec (.journalReadStep bus) s = .next t ∧ t.jnl.release = s.jnl.release ∧
        t.jnl.settled = s.jnl.settled ∧ t.ret = s.ret ∧ t.recon = s.recon ∧ Kept s t ∧
        (n < s.jnl.release → Ends .gone (unsignedField 4 (n - q) ++ leBytes 8 s.jnl.release) t) ∧
        ∀ e, s.jnl.release ≤ n → s.jnl.store[n - s.jnl.release]? = some e → b + 32 * (n - q) + 32 ≤ 2 ^ 64 →
          (∀ j, j < 32 → OffDesk s (b + 32 * (n - q) + j)) →
          (n + 1 < stop ∨ QuietChoice o s → t.hostBytes (b + 32 * (n - q)) 32 = e.bytes) ∧
          (n + 1 < stop → t.exec.running = some { o with body := .journalRead q cap b stop (n + 1) } ∧
            t.cat.table = s.cat.table) ∧
          (stop ≤ n + 1 → Ends .done (unsignedField 4 (n + 1 - q) ++ leBytes 8 (n + 1) ++ leBytes 8 s.jnl.head
            ++ leBytes 8 s.jnl.settled ++ leBytes 8 s.jnl.release) t))

/-- O56. RETAIN (shortening), CLASSMAP, HOLD, RELEASE and SETTINGS set the retention unit, journal it and answer. For
every acting engine (powered, not RECOVERING) with the slip at the front of the sweep's quick slips: a shortening sets
its group's days alone, journals RETENTION-CHANGED with the group, the old and the new count, and is answered DONE
with the old count. CLASSMAP is refused RANGE for a group above 3, then BUSY while a channel is open; otherwise it
sets the eight groups, journals CLASSMAP-CHANGED with the old and the new map, eight groups of 2 bits with class 0
lowest, and is answered DONE. HOLD is refused BAD-SWITCH for a switch above 1023, RANGE for a wrong range or mask,
DUPLICATE-HOLD for an active id and HOLD-LIST-FULL at 64 holds, in this order; otherwise it adds a hold with the
placed day D at the end of the list, journals HOLD-PLACED with the id, the number of covered ERASING segments whose
erase is withdrawn, the number of the others, and D, and is answered DONE with the two numbers (the segment table
listing its records in rising order). RELEASE is answered NOT-FOUND where no hold has the id, and otherwise removes
it, journals HOLD-RELEASED with the id, the placed day and D, and is answered DONE. SETTINGS sets the late window
within 1 to 31, the gap horizon within 1 to 366 and auto-cut, journals SETTINGS-CHANGED with the three, and is
answered DONE with them. A refusal changes nothing of the unit. The journal entry (of a READY engine) and the answer
hold where no desk change waits for the sweep and no operation that is chosen at its end resumes a reading or ends at
once. Every other field of the retention unit, the editions and the modules are unchanged. (R135, R139, R140, R142,
R149, R150, R193, R202) -/
def Obligations.RetentionSlipsSetTheRetentionUnit : Prop :=
  ∀ (bus : Bus) (a : Admitted) (s : State),
    let p := a.params
    let Sets (c : Instr) (r : Retention) (st : Status) (vs : List Byte) (bs : List EntryBody) : Prop :=
      ∃ t, Machine.exec c s = .next t ∧ t.ret = r ∧ t.eds = s.eds ∧ Kept s t ∧
        (Calm s → Answered (at_ bus s) (some a.slip) st vs t ∧ (s.engine = .ready → ∀ b ∈ bs, Submitted b t))
    let id : Word32 := (readHold p).1
    let cover : Selection := (readHold p).2
    let code (v : Vector GroupNo 8) : Nat := (bget v 0).val + 4 * (bget v 1).val + 16 * (bget v 2).val + 64 * (bget v 3).val +
      256 * (bget v 4).val + 1024 * (bget v 5).val + 4096 * (bget v 6).val + 16384 * (bget v 7).val
    (Front .retain a s → ∀ g : GroupNo, field p 0 1 = g.val →
      let old := (bget s.ret.groups g).days
      let new := field p 2 2
      Sets (.retain bus) { s.ret with groups := bmod s.ret.groups g fun x => { x with days := new } } .done (fours [old])
        [EntryBody.mk0 .retentionChanged .none g.val old new]) ∧
    (Front .classmap a s → 8 ≤ p.length →
      ((∃ c : Fin 8, 3 < (p.getD c.val 0).toNat) → Sets (.classmap bus) s.ret .range [] []) ∧
      ((∀ c : Fin 8, (p.getD c.val 0).toNat ≤ 3) →
        (s.anyOpen = true → Sets (.classmap bus) s.ret .busy [] []) ∧
        (s.anyOpen = false → Sets (.classmap bus) { s.ret with classMap := readClassMap p } .done []
            [EntryBody.mk0 .classmapChanged .none (code s.ret.classMap) (code (readClassMap p)) 0] ∧
          ∀ c : Fin 8, (bget (readClassMap p) c).val = (p.getD c.val 0).toNat))) ∧
    (Front .hold a s →
      let badCover := cover.all = false ∧ 1023 < cover.switch
      let badRange := cover.last < cover.first ∨ ∀ g, g < 4 → maskHas cover.mask g = false
      (badCover → Sets (.hold bus) s.ret .badSwitch [] []) ∧
      (¬ badCover → badRange → Sets (.hold bus) s.ret .range [] []) ∧
      (¬ badCover → ¬ badRange → (∃ h ∈ s.ret.holds, h.id = id) → Sets (.hold bus) s.ret .duplicateHold [] []) ∧
      (¬ badCover → ¬ badRange → (∀ h ∈ s.ret.holds, h.id ≠ id) →
        (64 ≤ s.ret.holds.length → Sets (.hold bus) s.ret .holdListFull [] []) ∧
        (s.ret.holds.length < 64 →
          let erasing := s.cat.table.filter fun x => match s.live? x.1 with
            | some (.erasing, g) => cover.covers g.key
            | _ => false
          let withdrawn := erasing.filter fun x => decide (s.withdrawal x.1 = .withdrawn)
          ∃ w n, (rising s.cat.table = true → w = withdrawn.length ∧ w + n = erasing.length) ∧
            Sets (.hold bus) { s.ret with holds := s.ret.holds ++ [{ id := id, cover := cover, placed := s.ret.day }] } .done
              (fours [w, n]) [EntryBody.mk0 .holdPlaced (.hold id) w n s.ret.day]))) ∧
    (Front .release a s →
      let gone : Word32 := BitVec.ofNat 32 (field p 0 4)
      ((∀ h ∈ s.ret.holds, h.id ≠ gone) → Sets (.release bus) s.ret .notFound [] []) ∧
      ∀ before h after, s.ret.holds = before ++ h :: after → h.id = gone → (∀ x ∈ before, x.id ≠ gone) →
        Sets (.release bus) { s.ret with holds := before ++ after.filter fun x => x.id != gone } .done []
          [EntryBody.mk0 .holdReleased (.hold gone) h.placed s.ret.day 0]) ∧
    (Front .settings a s →
      let late := max 1 (min 31 (field p 0 1))
      let gap := max 1 (min 366 (field p 2 2))
      let cut := flagSet (p.getD 1 0)
      let flag := if cut then 1 else 0
      Sets (.settings bus) { s.ret with lateWindow := late, gapHorizon := gap, autoCut := cut } .done (fours [late, flag, gap])
        [EntryBody.mk0 .settingsChanged .none late gap flag])

/-- O57. CUT and EDITION-LOAD install an edition in the lowest FREE slot, journal it and answer, or are refused. For
every acting engine (powered, not RECOVERING) with the slip at the front of the quick slips: with a FREE slot, CUT
makes the lowest one CURRENT with the next serial, a reference count of 0 and the tables built from the tallies,
halves every tally, and makes the slot that was CURRENT RETAINED where a segment is bound to it and FREE otherwise;
EDITION-LOAD with readable tables of at most 256 entries that break no rule does the same with its own tables and
leaves the tallies. Each is answered DONE with the slot, the serial and the three table lengths, journals EDITION-CUT
with the serial, the slot and the source, and EDITION-FREED where the old CURRENT becomes FREE, and EDITIONS has
advanced by 1. Without a FREE slot the editions are unchanged, EDITIONS has advanced by 1, and the answer is
EDITION-STORE-FULL with the CURRENT slot and serial, or 0 and 0. A load is refused RANGE for a table above 256
entries; then BAD-TABLE with the table, the index and READ at the first entry that cannot be read; then BAD-TABLE at
the first entry that breaks a rule: a repeated route or site, a prefix of a wrong length, with a digit above 11, or
repeated; a refused load changes neither the editions nor EDITIONS. That the index counts from 0 and the tables are
read in order is the model's choice (log 41), as is what is read of a prefix entry (log 34). The answer, the entry (of
a READY engine) and the counter hold where no desk change waits for the sweep and no operation that is chosen at its
end resumes a reading or ends at once. The retention unit and the modules are unchanged. (R89, R90, R91, R92, R93,
R95, R96, R193, R195, log 34, log 41) -/
def Obligations.CutAndLoadInstallAnEdition : Prop :=
  ∀ (bus : Bus) (a : Admitted) (s : State),
    let p := a.params
    let u := at_ bus s
    let routes := readValues 2 (field p 8 2) (u.hostBytes (field p 0 8) (2 * field p 8 2))
    let sites := readValues 4 (field p 24 2) (u.hostBytes (field p 16 8) (4 * field p 24 2))
    let prefixes := readPrefixes (field p 40 2) (u.hostBytes (field p 32 8) (8 * field p 40 2))
    let short := field p 8 2 ≤ 256 ∧ field p 24 2 ≤ 256 ∧ field p 40 2 ≤ 256
    let good := short ∧ u.failedTable p = none ∧ badEntry routes sites prefixes = none
    let serial := nextSerial s.eds.serial
    let editions (t : State) := bget t.desk.counters Counter.editions.index
    let Installed (ed : Edition) (source : Nat) (i : SlotNo) (t : State) : Prop :=
      bget t.eds.slots i = { state := .current, serial := serial, refs := 0, edition := ed } ∧
      t.eds.serial = serial ∧
      (∀ c, s.currentSlot = some c → bget t.eds.slots c =
        if 1 ≤ (bget s.eds.slots c).refs then { (bget s.eds.slots c) with state := .retained } else EditionSlot.freeSlot) ∧
      (Calm s → editions t = editions s + 1 ∧
        Answered u (some a.slip) .done
          (fours [i.val, serial.toNat, ed.routes.length, ed.sites.length, ed.prefixes.length]) t ∧
        (s.engine = .ready → Submitted (EntryBody.mk0 .editionCut .none serial.toNat i.val source) t ∧
          ∀ c, s.currentSlot = some c → (bget s.eds.slots c).refs = 0 →
            Submitted (EntryBody.mk0 .editionFreed .none (bget s.eds.slots c).serial.toNat c.val 0) t))
    let Full (t : State) : Prop := t.eds = s.eds ∧ (Calm s → editions t = editions s + 1 ∧
      (s.currentSlot = none → Answered u (some a.slip) .editionStoreFull (fours [0, 0]) t) ∧
      ∀ c, s.currentSlot = some c →
        Answered u (some a.slip) .editionStoreFull (fours [c.val, (bget s.eds.slots c).serial.toNat]) t)
    (Front .cut a s → ∃ t, Machine.exec (.cut bus) s = .next t ∧ t.ret = s.ret ∧ Kept s t ∧
      (s.freeSlot = none → Full t) ∧
      ∀ i, s.freeSlot = some i → Installed s.eds.cutTables 1 i t ∧ t.eds.routes = tallyHalve s.eds.routes ∧
        t.eds.sites = tallyHalve s.eds.sites ∧ t.eds.prefixes = tallyHalve s.eds.prefixes) ∧
    (Front .editionLoad a s → ∃ t, Machine.exec (.editionLoad bus) s = .next t ∧ t.ret = s.ret ∧ Kept s t ∧
      (∀ i, s.freeSlot = some i → good →
        Installed { routes := routes, sites := sites, prefixes := prefixes.map fun x => x.2.take x.1 } 3 i t ∧
        t.eds.routes = s.eds.routes ∧ t.eds.sites = s.eds.sites ∧ t.eds.prefixes = s.eds.prefixes) ∧
      (s.freeSlot = none → good → Full t) ∧
      (¬ good → t.eds = s.eds ∧ (Calm s → editions t = editions s ∧
        (¬ short → Answered u (some a.slip) .range [] t) ∧
        (short → ∀ b i, u.failedTable p = some (b, i) → Answered u (some a.slip) .badTable (fours [b, i, 1]) t) ∧
        (short → u.failedTable p = none → ∀ b i why, badEntry routes sites prefixes = some (b, i, why) →
          Answered u (some a.slip) .badTable (fours [b, i, why.code]) t)))) ∧
    (let route (j : Nat) := u.readFails (field p 0 8 + 2 * j) 2 = true
     let site (j : Nat) := u.readFails (field p 16 8 + 4 * j) 4 = true
     let pre (j : Nat) := let at' := field p 32 8 + 8 * j
      let len := min (byteAt u at').toNat 8
      u.readFails at' 1 = true ∨ (0 < len ∧ u.readFails (at' + 1) ((len + 1) / 2) = true)
     let none' (f : Nat → Prop) (n : Nat) := ∀ j, j < n → ¬ f j
     let first (f : Nat → Prop) (n i : Nat) := i < n ∧ f i ∧ ∀ j, j < i → ¬ f j
     let r := none' route (field p 8 2)
     let q := none' site (field p 24 2)
     (u.failedTable p = none ↔ r ∧ q ∧ none' pre (field p 40 2)) ∧
     ∀ i, (u.failedTable p = some (1, i) ↔ first route (field p 8 2) i) ∧
       (u.failedTable p = some (2, i) ↔ r ∧ first site (field p 24 2) i) ∧
       (u.failedTable p = some (3, i) ↔ r ∧ q ∧ first pre (field p 40 2) i)) ∧
    ∀ (rs ss : List Nat) (ps : List (Nat × List Nat)),
      let value (x : Nat × List Nat) := x.2.take x.1
      let fine (x : Nat × List Nat) := 3 ≤ x.1 ∧ x.1 ≤ 8 ∧ ∀ d ∈ value x, d ≤ 11
      (badEntry rs ss ps = none ↔ rs.Nodup ∧ ss.Nodup ∧ (∀ x ∈ ps, fine x) ∧ (ps.map value).Nodup) ∧
      (∀ l x m, rs = l ++ x :: m → l.Nodup → x ∈ l → badEntry rs ss ps = some (1, l.length, .duplicate)) ∧
      (∀ l x m, rs.Nodup → ss = l ++ x :: m → l.Nodup → x ∈ l → badEntry rs ss ps = some (2, l.length, .duplicate)) ∧
      ∀ l x m, rs.Nodup → ss.Nodup → ps = l ++ x :: m → (∀ y ∈ l, fine y) → (l.map value).Nodup →
        (x.1 < 3 ∨ 8 < x.1 → badEntry rs ss ps = some (3, l.length, .length)) ∧
        (3 ≤ x.1 → x.1 ≤ 8 → (∃ d ∈ value x, 11 < d) → badEntry rs ss ps = some (3, l.length, .digit)) ∧
        (fine x → value x ∈ l.map value → badEntry rs ss ps = some (3, l.length, .duplicate))

/-- O58. CONTEXT-READ answers a context and CONTEXT-WRITE sets it. For every acting engine (powered, not RECOVERING) with
the slip at the front of the quick slips, alone or with others behind it, no desk change waiting, and an operation
running or none chosen at the sweep's end that resumes a reading or ends at once, the desk in the address space:
CONTEXT-READ changes neither table; a switch above 1023 is answered BAD-SWITCH, any other DONE with the state, the
present flags, the expected number, the highest record day, the range count, the oldest range and the two counts.
CONTEXT-WRITE changes nothing for a switch above 1023, a FEEDING switch, an action other than SET and UNSEEN, or a
SET, without an abandonment, to a number e of a range of the switch (e less its first number, modulo 2³², below its
count); otherwise SET makes the number expected and an UNSEEN switch IDLE, UNSEEN empties the state, the expected
number and the file register, and an abandonment removes the switch's ranges alone. Its answer is BAD-SWITCH for a
switch above 1023, then STREAM-BUSY for a FEEDING one, then RANGE for the rest of the refusals, and otherwise DONE
with the number of ranges removed, a READY engine having submitted CONTEXT-WRITTEN with the switch, the action, the
new number (0 for UNSEEN) and that number of ranges. The slip leaves the front of the quick slips, and with the last
one the sweep is over. The retention unit, the editions and the modules are unchanged. The codes of SET and UNSEEN and
of the switch states are their places in their lists (R200), and that any other action is refused RANGE is the model's
reading (log 18). That an absent expected number or highest day is written 0 (log 39), and that the totals are written
saturated past 2⁶⁴ − 1 (log 38), are the model's choices. (R82, R83, R186, R190, R193, R200, log 18, log 38, log 39) -/
def Obligations.ContextSlipsReadAndWrite : Prop :=
  ∀ (bus : Bus) (a : Admitted) (rest : List Admitted) (w : Sweep) (s : State), Acts s → s.desk.sweep = some w →
    w.quick = a :: rest → Calm s → DeskFits s → s.desk.place ≠ 0 →
    Memory.wf Config.hostFill s.mem = true → canonical SwitchCtx.unseen s.recon.switches = true →
    let p := a.params
    let sw := field p 0 2
    let x := s.switchCtx sw
    let rs := s.rangesOf sw
    let Over (t : State) : Prop := if rest = [] then t.desk.sweep = none else t.desk.sweep = some { w with quick := rest }
    (a.kind = .contextRead → ∃ t, Machine.exec (.contextRead bus) s = .next t ∧ Over t ∧ t.recon = s.recon ∧ t.ret = s.ret ∧
      t.eds = s.eds ∧ Kept s t ∧
      (1023 < sw → Answered (at_ bus s) (some a.slip) .badSwitch [] t) ∧
      (sw ≤ 1023 → Answered (at_ bus s) (some a.slip) .done
          (leBytes 1 x.state.code
            ++ leBytes 1 ((if x.expected.isSome then 1 else 0) + (if x.highDay.isSome then 2 else 0))
            ++ leBytes 4 ((x.expected.map BitVec.toNat).getD 0) ++ leBytes 2 (x.highDay.getD 0)
            ++ unsignedField 4 rs.length ++ leBytes 4 ((rs.head?.map fun r => r.first.toNat).getD 0)
            ++ leBytes 4 ((rs.head?.map Range.count).getD 0) ++ unsignedField 8 x.accepted
            ++ unsignedField 8 x.duplicates) t)) ∧
    (a.kind = .contextWrite →
      let act := field p 2 1
      let abandon := flagSet (p.getD 3 0)
      let e : SeqNo := BitVec.ofNat 32 (field p 4 4)
      let refused := 1023 < sw ∨ x.state = .feeding ∨ (act ≠ 1 ∧ act ≠ 2) ∨
        (act = 1 ∧ abandon = false ∧ ∃ r ∈ rs, (e - r.first).toNat < r.count)
      ∃ t, Machine.exec (.contextWrite bus) s = .next t ∧ Over t ∧ t.ret = s.ret ∧ t.eds = s.eds ∧ Kept s t ∧
        (refused → t.recon = s.recon) ∧
        (1023 < sw → Answered (at_ bus s) (some a.slip) .badSwitch [] t) ∧
        (sw ≤ 1023 → x.state = .feeding → Answered (at_ bus s) (some a.slip) .streamBusy [] t) ∧
        (sw ≤ 1023 → x.state ≠ .feeding → refused → Answered (at_ bus s) (some a.slip) .range [] t) ∧
        (¬ refused → t.recon.gaps = (if abandon then s.recon.gaps.filter fun r => r.switch != sw else s.recon.gaps) ∧
          (∀ k, k ≠ sw → t.switchCtx k = s.switchCtx k) ∧
          (act = 1 → t.switchCtx sw = { x with expected := some e, state := if x.state = .unseen then .idle else x.state }) ∧
          (act = 2 → t.switchCtx sw = { x with state := .unseen, expected := none, register := none }) ∧
          let removed := if abandon then rs.length else 0
          Answered (at_ bus s) (some a.slip) .done (fours [removed]) t ∧
          (s.engine = .ready → Submitted (EntryBody.mk0 .contextWritten (.switch sw) act (if act = 1 then e.toNat else 0) removed) t)))

/-- O59. CLOSE closes what it selects, RESOLVE clears SUSPECT, JOURNAL-RELEASE raises the release mark; entries and
answers. For every acting engine (powered, not RECOVERING) with the slip at the front of the quick slips, for CLOSE
and RESOLVE no desk change waiting, an operation running or none chosen at the sweep's end that resumes a reading or
ends at once, and the segment table listing its records in rising order: CLOSE of a switch above 1023 is answered
BAD-SWITCH; of a switch up to 1023, or of all, it makes CLOSED, with its fields kept, every FILLING segment of the
record day and switch that has been given a store, and makes FREE the extent of one that has not, journals
SEGMENT-CLOSED with cause SLIP, the part and the outcome for each, and is answered DONE with the number closed and the
number freed; every segment it does not select keeps its state and fields. RESOLVE makes a SUSPECT segment UNVERIFIED
with its other fields kept, journals SUSPECT-RESOLVED with the part and the fail count, and is answered DONE with the
fail count; for any other number it leaves the segment table as it is and is answered NOT-FOUND. JOURNAL-RELEASE: the
release mark becomes the lower of the parameter and the head where that is above it, and stays otherwise; the settled
mark, the retention unit, the registers and the modules are unchanged; where no entry waits in the journal's line, no
desk change waits and no operation chosen at the sweep's end resumes a reading or ends at once, it is answered DONE
with the release mark as it then stands, and where the room is then 65,536 or more, and not below it, the waits for
room of the scrub, of a running pass and of the suspended operations are over (log 43). Releasing never lowers the
room, and at the head it makes it whole. The entries are those of a READY engine. The retention unit and the modules
are unchanged. (R31, R32, R167, R176, R177, R181, R193, log 43) -/
def Obligations.CloseResolveAndJournalRelease : Prop :=
  (∀ (bus : Bus) (a : Admitted) (s : State), Calm s → rising s.cat.table = true →
    let p := a.params
    let all := flagSet (p.getD 2 0)
    let selects (g : Segment) : Bool := g.key.day == field p 4 2 && (all || g.key.switch == field p 0 2)
    let chosen := s.cat.table.filter fun x => match s.live? x.1 with
      | some (.filling, g) => selects g
      | _ => false
    let unused := chosen.filter fun x => match s.live? x.1 with
      | some (_, g) => g.reserve == 0
      | none => false
    let n := field p 0 4
    (Front .close a s → ∃ t, Machine.exec (.close bus) s = .next t ∧ t.ret = s.ret ∧ t.recon.gaps = s.recon.gaps ∧ Kept s t ∧
      (¬ GoodSwitch all (field p 0 2) → t.cat.table = s.cat.table ∧ Answered (at_ bus s) (some a.slip) .badSwitch [] t) ∧
      (GoodSwitch all (field p 0 2) →
        Answered (at_ bus s) (some a.slip) .done (fours [chosen.length - unused.length, unused.length]) t ∧
        (∀ i g, s.live? i = some (.filling, g) → selects g = true → s.engine = .ready →
          Submitted (EntryBody.mk0 .segmentClosed (.segment i) 2 g.part (if g.reserve = 0 then 1 else 2)) t) ∧
        (∀ i g, s.live? i = some (.filling, g) → selects g = true → g.reserve ≠ 0 → t.live? i = some (.closed, g)) ∧
        (∀ i g, s.live? i = some (.filling, g) → selects g = true → g.reserve = 0 →
          (t.extent? i).map Extent.content = some .free) ∧
        (∀ i st g, s.live? i = some (st, g) → st ≠ .filling ∨ selects g = false → t.live? i = some (st, g)))) ∧
    (Front .resolve a s → ∃ t, Machine.exec (.resolve bus) s = .next t ∧ t.ret = s.ret ∧ t.eds = s.eds ∧ Kept s t ∧
      (∀ st g, s.live? n = some (st, g) → g.mark = .suspect → t.live? n = some (st, { g with mark := .unverified }) ∧
        Answered (at_ bus s) (some a.slip) .done (fours [g.fails]) t ∧
        (s.engine = .ready → Submitted (EntryBody.mk0 .suspectResolved (.segment n) g.part g.fails 0) t)) ∧
      ((∀ st g, s.live? n = some (st, g) → g.mark ≠ .suspect) → t.cat.table = s.cat.table ∧
        Answered (at_ bus s) (some a.slip) .notFound [] t))) ∧
  (∀ (bus : Bus) (a : Admitted) (s : State), Front .journalRelease a s →
    let release := max s.jnl.release (min (field a.params 0 8) s.jnl.head)
    ∃ t, Machine.exec (.journalRelease bus) s = .next t ∧ t.jnl.release = release ∧ t.jnl.settled = s.jnl.settled ∧
      t.ret = s.ret ∧ Kept s t ∧
      (Calm s → s.jnl.line = [] → Answered (at_ bus s) (some a.slip) .done (leBytes 8 release) t ∧
        let back := 65536 ≤ (s.releaseTo (field a.params 0 8)).room
        let goOn (q : Op) : Op := match q.body.pass with
          | some p => { q with body := q.body.setPass { p with awaitsRoom := false } }
          | none => q
        t.scrub = (if back then { s.scrub with awaitsRoom := false } else s.scrub) ∧
        ∀ o, s.exec.running = some o → o.body.pass.isSome = true → t.exec.running = some (if back then goOn o else o) ∧
          t.exec.suspended = if back then s.exec.suspended.map goOn else s.exec.suspended)) ∧
  ∀ (q : Nat) (s : State), s.room ≤ (s.releaseTo q).room ∧ (s.jnl.head ≤ q → (s.releaseTo q).room = 1048576)

/-- O60. The scrub passes over a segment that is not due, steps on one that is, and ends its lap past the last number. For
every powered state with the scrub active (the engine READY and scrub enable set), WALKING and waiting for no entry:
where the record at the cursor is due for scrub (CLOSED, with no store in flight, its lane ONLINE, and UNVERIFIED, or
VERIFIED on a day that lies the scrub period or more before D), has bytes and the journal room is at or above 65,536,
SCRUB_STEP pins the segment, the scrub is STEPPING, and its first fetch of at most 1,048,576 bytes is asked for, which
joins the background queue of the lane, last, or is at once in progress where the lane had no request; one of no bytes
is judged at once, VERIFIED on D where its digest, its counts and sequences are those of no block and its link holds,
and else SUSPECT with its fail count up by 1 to at most 15, the checked count and then the failed count gaining 1, and
the cursor moving on where no entry waits; below that room the scrub waits at its cursor, and while it waits below it
no step judges or passes over anything, whatever the record has become (that it goes on by its next step is log 43's).
Where the record is not due, no segment changes; before the last number the cursor moves on; at the last number
SCRUB-LAP with the lap's counts and start day is submitted, and where the journal takes it at once the cursor is 0,
the scrub RESTING and SCRUB-LAPS has advanced by 1; where it does not, the scrub waits WALKING as it was and
SCRUB-LAPS stays (the model's choice, log 36). Where the scrub is not walking or not active nothing of it changes. The
retention unit, the switch table, the editions, the executor, whatever it runs or holds, and the modules are
unchanged. (R124, R156, R157, R158, R161, R164, R165, R166, R174, R175, R177, logs 36 and 43) -/
def Obligations.ScrubJudgesItsCursor : Prop :=
  ∀ s : State, s.powered = true →
    let active := s.engine = .ready ∧ s.scrub.enable = true
    let due (st : LiveState) (g : Segment) : Prop := st = .closed ∧ g.inFlight = 0 ∧
      s.isOnline (laneOf s.scrub.cursor) = true ∧
      (g.mark = .unverified ∨ (g.mark = .verified ∧ (g.verified.getD 0) + s.scrub.period ≤ s.ret.day))
    ∃ t, Machine.exec .scrubStep s = .next t ∧ t.ret = s.ret ∧ t.recon = s.recon ∧ t.eds = s.eds ∧ t.exec = s.exec ∧ Kept s t ∧
      (¬ active ∨ s.scrub.state ≠ .walking → t.scrub = s.scrub ∧ t.cat.table = s.cat.table) ∧
      (s.scrub.awaitsRoom = true → s.room < 65536 → t.scrub = s.scrub ∧ t.cat.table = s.cat.table) ∧
      (active → s.scrub.state = .walking → s.waits .scrub = false → s.scrub.awaitsRoom = false ∨ 65536 ≤ s.room →
        ((∀ st g, s.live? s.scrub.cursor = some (st, g) → ¬ due st g) →
          t.cat.table = s.cat.table ∧
          (s.scrub.cursor + 1 < 262144 → t.scrub = { s.scrub with cursor := s.scrub.cursor + 1, awaitsRoom := false }) ∧
          (262144 ≤ s.scrub.cursor + 1 →
            Submitted (EntryBody.mk0 .scrubLap .none s.scrub.checked s.scrub.failed (s.scrub.startDay.getD 0)) t ∧
            (EntryFits s → t.scrub = { s.scrub with cursor := 0, state := .resting, awaitsRoom := false } ∧
              bget t.desk.counters Counter.scrubLaps.index = bget s.desk.counters Counter.scrubLaps.index + 1) ∧
            (¬ EntryFits s → t.scrub = { s.scrub with awaitsRoom := false } ∧ t.waits .scrub = true ∧
              bget t.desk.counters Counter.scrubLaps.index = bget s.desk.counters Counter.scrubLaps.index))) ∧
        ∀ st g, s.live? s.scrub.cursor = some (st, g) → due st g →
          (s.room < 65536 → t.scrub = { s.scrub with awaitsRoom := true } ∧ t.cat.table = s.cat.table) ∧
          (65536 ≤ s.room → g.bytes ≠ 0 →
            t.live? s.scrub.cursor = some (st, { g with pins := g.pins + 1 }) ∧
            t.scrub = { s.scrub with state := .stepping, awaitsRoom := false, visit := some { (State.newVisit s.scrub.cursor g) with asked := min 1048576 g.bytes, waiting := true } } ∧
            JoinedBack (fetchOf s.scrub.cursor 0 g.bytes .scrub) (bget s.lanes.lane (laneOf s.scrub.cursor)) (laneOf s.scrub.cursor) t) ∧
          (65536 ≤ s.room → g.bytes = 0 →
            let linked : Prop := (g.part ≤ 1 → g.link = 0) ∧ (1 < g.part → ∀ m ls x,
              s.partOf g.key (g.part - 1) = some (m, ls, x) → ls ≠ .filling → g.link = x.digest)
            let sound : Prop := g.digest = 0 ∧ g.blocks = 0 ∧ g.records = 0 ∧ g.firstSeq = none ∧ g.lastSeq = none ∧ linked
            let counted : Scrub := { s.scrub with awaitsRoom := false, checked := s.scrub.checked + 1 }
            t.scrub.checked = s.scrub.checked + 1 ∧
            (sound → ScrubMovesOn counted 1 s t ∧
              t.live? s.scrub.cursor = some (st, { g with mark := .verified, verified := some s.ret.day })) ∧
            (¬ sound → t.scrub.failed = s.scrub.failed + 1 ∧
              (EntryFits s → ScrubMovesOn { counted with failed := s.scrub.failed + 1 } 2 s t) ∧
              ∃ n, t.live? s.scrub.cursor = some (st, { g with mark := .suspect, fails := min (g.fails + 1) 15, pins := n }))))
end

