-- ==== Sys2Proof/Laws/State.lean ====
section
/-! SUPPORT. One lemma for each field and each update of State, true by rfl, so that no later proof unfolds a record update. -/

namespace Sys2Proof.Machine

namespace State

variable (s : State)

@[simp] theorem onDesk_pending (g : Desk → Desk) : (s.onDesk g).pending = s.pending := rfl
@[simp] theorem onDesk_powered (g : Desk → Desk) : (s.onDesk g).powered = s.powered := rfl
@[simp] theorem onDesk_stamp (g : Desk → Desk) : (s.onDesk g).stamp = s.stamp := rfl
@[simp] theorem onDesk_engine (g : Desk → Desk) : (s.onDesk g).engine = s.engine := rfl
@[simp] theorem onDesk_recovery (g : Desk → Desk) : (s.onDesk g).recovery = s.recovery := rfl
@[simp] theorem onDesk_desk (g : Desk → Desk) : (s.onDesk g).desk = g s.desk := rfl
@[simp] theorem onDesk_exec (g : Desk → Desk) : (s.onDesk g).exec = s.exec := rfl
@[simp] theorem onDesk_feed (g : Desk → Desk) : (s.onDesk g).feed = s.feed := rfl
@[simp] theorem onDesk_pool (g : Desk → Desk) : (s.onDesk g).pool = s.pool := rfl
@[simp] theorem onDesk_recon (g : Desk → Desk) : (s.onDesk g).recon = s.recon := rfl
@[simp] theorem onDesk_eds (g : Desk → Desk) : (s.onDesk g).eds = s.eds := rfl
@[simp] theorem onDesk_coder (g : Desk → Desk) : (s.onDesk g).coder = s.coder := rfl
@[simp] theorem onDesk_cat (g : Desk → Desk) : (s.onDesk g).cat = s.cat := rfl
@[simp] theorem onDesk_lanes (g : Desk → Desk) : (s.onDesk g).lanes = s.lanes := rfl
@[simp] theorem onDesk_ret (g : Desk → Desk) : (s.onDesk g).ret = s.ret := rfl
@[simp] theorem onDesk_scrub (g : Desk → Desk) : (s.onDesk g).scrub = s.scrub := rfl
@[simp] theorem onDesk_jnl (g : Desk → Desk) : (s.onDesk g).jnl = s.jnl := rfl
@[simp] theorem onDesk_mem (g : Desk → Desk) : (s.onDesk g).mem = s.mem := rfl
@[simp] theorem onDesk_fails (g : Desk → Desk) : (s.onDesk g).fails = s.fails := rfl
@[simp] theorem onDesk_media (g : Desk → Desk) : (s.onDesk g).media = s.media := rfl
@[simp] theorem onDesk_fresh (g : Desk → Desk) : (s.onDesk g).fresh = s.fresh := rfl

@[simp] theorem onExec_pending (g : Exec → Exec) : (s.onExec g).pending = s.pending := rfl
@[simp] theorem onExec_powered (g : Exec → Exec) : (s.onExec g).powered = s.powered := rfl
@[simp] theorem onExec_stamp (g : Exec → Exec) : (s.onExec g).stamp = s.stamp := rfl
@[simp] theorem onExec_engine (g : Exec → Exec) : (s.onExec g).engine = s.engine := rfl
@[simp] theorem onExec_recovery (g : Exec → Exec) : (s.onExec g).recovery = s.recovery := rfl
@[simp] theorem onExec_desk (g : Exec → Exec) : (s.onExec g).desk = s.desk := rfl
@[simp] theorem onExec_exec (g : Exec → Exec) : (s.onExec g).exec = g s.exec := rfl
@[simp] theorem onExec_feed (g : Exec → Exec) : (s.onExec g).feed = s.feed := rfl
@[simp] theorem onExec_pool (g : Exec → Exec) : (s.onExec g).pool = s.pool := rfl
@[simp] theorem onExec_recon (g : Exec → Exec) : (s.onExec g).recon = s.recon := rfl
@[simp] theorem onExec_eds (g : Exec → Exec) : (s.onExec g).eds = s.eds := rfl
@[simp] theorem onExec_coder (g : Exec → Exec) : (s.onExec g).coder = s.coder := rfl
@[simp] theorem onExec_cat (g : Exec → Exec) : (s.onExec g).cat = s.cat := rfl
@[simp] theorem onExec_lanes (g : Exec → Exec) : (s.onExec g).lanes = s.lanes := rfl
@[simp] theorem onExec_ret (g : Exec → Exec) : (s.onExec g).ret = s.ret := rfl
@[simp] theorem onExec_scrub (g : Exec → Exec) : (s.onExec g).scrub = s.scrub := rfl
@[simp] theorem onExec_jnl (g : Exec → Exec) : (s.onExec g).jnl = s.jnl := rfl
@[simp] theorem onExec_mem (g : Exec → Exec) : (s.onExec g).mem = s.mem := rfl
@[simp] theorem onExec_fails (g : Exec → Exec) : (s.onExec g).fails = s.fails := rfl
@[simp] theorem onExec_media (g : Exec → Exec) : (s.onExec g).media = s.media := rfl
@[simp] theorem onExec_fresh (g : Exec → Exec) : (s.onExec g).fresh = s.fresh := rfl

@[simp] theorem onFeed_pending (g : Feed → Feed) : (s.onFeed g).pending = s.pending := rfl
@[simp] theorem onFeed_powered (g : Feed → Feed) : (s.onFeed g).powered = s.powered := rfl
@[simp] theorem onFeed_stamp (g : Feed → Feed) : (s.onFeed g).stamp = s.stamp := rfl
@[simp] theorem onFeed_engine (g : Feed → Feed) : (s.onFeed g).engine = s.engine := rfl
@[simp] theorem onFeed_recovery (g : Feed → Feed) : (s.onFeed g).recovery = s.recovery := rfl
@[simp] theorem onFeed_desk (g : Feed → Feed) : (s.onFeed g).desk = s.desk := rfl
@[simp] theorem onFeed_exec (g : Feed → Feed) : (s.onFeed g).exec = s.exec := rfl
@[simp] theorem onFeed_feed (g : Feed → Feed) : (s.onFeed g).feed = g s.feed := rfl
@[simp] theorem onFeed_pool (g : Feed → Feed) : (s.onFeed g).pool = s.pool := rfl
@[simp] theorem onFeed_recon (g : Feed → Feed) : (s.onFeed g).recon = s.recon := rfl
@[simp] theorem onFeed_eds (g : Feed → Feed) : (s.onFeed g).eds = s.eds := rfl
@[simp] theorem onFeed_coder (g : Feed → Feed) : (s.onFeed g).coder = s.coder := rfl
@[simp] theorem onFeed_cat (g : Feed → Feed) : (s.onFeed g).cat = s.cat := rfl
@[simp] theorem onFeed_lanes (g : Feed → Feed) : (s.onFeed g).lanes = s.lanes := rfl
@[simp] theorem onFeed_ret (g : Feed → Feed) : (s.onFeed g).ret = s.ret := rfl
@[simp] theorem onFeed_scrub (g : Feed → Feed) : (s.onFeed g).scrub = s.scrub := rfl
@[simp] theorem onFeed_jnl (g : Feed → Feed) : (s.onFeed g).jnl = s.jnl := rfl
@[simp] theorem onFeed_mem (g : Feed → Feed) : (s.onFeed g).mem = s.mem := rfl
@[simp] theorem onFeed_fails (g : Feed → Feed) : (s.onFeed g).fails = s.fails := rfl
@[simp] theorem onFeed_media (g : Feed → Feed) : (s.onFeed g).media = s.media := rfl
@[simp] theorem onFeed_fresh (g : Feed → Feed) : (s.onFeed g).fresh = s.fresh := rfl

@[simp] theorem onPool_pending (g : Pool → Pool) : (s.onPool g).pending = s.pending := rfl
@[simp] theorem onPool_powered (g : Pool → Pool) : (s.onPool g).powered = s.powered := rfl
@[simp] theorem onPool_stamp (g : Pool → Pool) : (s.onPool g).stamp = s.stamp := rfl
@[simp] theorem onPool_engine (g : Pool → Pool) : (s.onPool g).engine = s.engine := rfl
@[simp] theorem onPool_recovery (g : Pool → Pool) : (s.onPool g).recovery = s.recovery := rfl
@[simp] theorem onPool_desk (g : Pool → Pool) : (s.onPool g).desk = s.desk := rfl
@[simp] theorem onPool_exec (g : Pool → Pool) : (s.onPool g).exec = s.exec := rfl
@[simp] theorem onPool_feed (g : Pool → Pool) : (s.onPool g).feed = s.feed := rfl
@[simp] theorem onPool_pool (g : Pool → Pool) : (s.onPool g).pool = g s.pool := rfl
@[simp] theorem onPool_recon (g : Pool → Pool) : (s.onPool g).recon = s.recon := rfl
@[simp] theorem onPool_eds (g : Pool → Pool) : (s.onPool g).eds = s.eds := rfl
@[simp] theorem onPool_coder (g : Pool → Pool) : (s.onPool g).coder = s.coder := rfl
@[simp] theorem onPool_cat (g : Pool → Pool) : (s.onPool g).cat = s.cat := rfl
@[simp] theorem onPool_lanes (g : Pool → Pool) : (s.onPool g).lanes = s.lanes := rfl
@[simp] theorem onPool_ret (g : Pool → Pool) : (s.onPool g).ret = s.ret := rfl
@[simp] theorem onPool_scrub (g : Pool → Pool) : (s.onPool g).scrub = s.scrub := rfl
@[simp] theorem onPool_jnl (g : Pool → Pool) : (s.onPool g).jnl = s.jnl := rfl
@[simp] theorem onPool_mem (g : Pool → Pool) : (s.onPool g).mem = s.mem := rfl
@[simp] theorem onPool_fails (g : Pool → Pool) : (s.onPool g).fails = s.fails := rfl
@[simp] theorem onPool_media (g : Pool → Pool) : (s.onPool g).media = s.media := rfl
@[simp] theorem onPool_fresh (g : Pool → Pool) : (s.onPool g).fresh = s.fresh := rfl

@[simp] theorem onRecon_pending (g : Recon → Recon) : (s.onRecon g).pending = s.pending := rfl
@[simp] theorem onRecon_powered (g : Recon → Recon) : (s.onRecon g).powered = s.powered := rfl
@[simp] theorem onRecon_stamp (g : Recon → Recon) : (s.onRecon g).stamp = s.stamp := rfl
@[simp] theorem onRecon_engine (g : Recon → Recon) : (s.onRecon g).engine = s.engine := rfl
@[simp] theorem onRecon_recovery (g : Recon → Recon) : (s.onRecon g).recovery = s.recovery := rfl
@[simp] theorem onRecon_desk (g : Recon → Recon) : (s.onRecon g).desk = s.desk := rfl
@[simp] theorem onRecon_exec (g : Recon → Recon) : (s.onRecon g).exec = s.exec := rfl
@[simp] theorem onRecon_feed (g : Recon → Recon) : (s.onRecon g).feed = s.feed := rfl
@[simp] theorem onRecon_pool (g : Recon → Recon) : (s.onRecon g).pool = s.pool := rfl
@[simp] theorem onRecon_recon (g : Recon → Recon) : (s.onRecon g).recon = g s.recon := rfl
@[simp] theorem onRecon_eds (g : Recon → Recon) : (s.onRecon g).eds = s.eds := rfl
@[simp] theorem onRecon_coder (g : Recon → Recon) : (s.onRecon g).coder = s.coder := rfl
@[simp] theorem onRecon_cat (g : Recon → Recon) : (s.onRecon g).cat = s.cat := rfl
@[simp] theorem onRecon_lanes (g : Recon → Recon) : (s.onRecon g).lanes = s.lanes := rfl
@[simp] theorem onRecon_ret (g : Recon → Recon) : (s.onRecon g).ret = s.ret := rfl
@[simp] theorem onRecon_scrub (g : Recon → Recon) : (s.onRecon g).scrub = s.scrub := rfl
@[simp] theorem onRecon_jnl (g : Recon → Recon) : (s.onRecon g).jnl = s.jnl := rfl
@[simp] theorem onRecon_mem (g : Recon → Recon) : (s.onRecon g).mem = s.mem := rfl
@[simp] theorem onRecon_fails (g : Recon → Recon) : (s.onRecon g).fails = s.fails := rfl
@[simp] theorem onRecon_media (g : Recon → Recon) : (s.onRecon g).media = s.media := rfl
@[simp] theorem onRecon_fresh (g : Recon → Recon) : (s.onRecon g).fresh = s.fresh := rfl

@[simp] theorem onEds_pending (g : Editions → Editions) : (s.onEds g).pending = s.pending := rfl
@[simp] theorem onEds_powered (g : Editions → Editions) : (s.onEds g).powered = s.powered := rfl
@[simp] theorem onEds_stamp (g : Editions → Editions) : (s.onEds g).stamp = s.stamp := rfl
@[simp] theorem onEds_engine (g : Editions → Editions) : (s.onEds g).engine = s.engine := rfl
@[simp] theorem onEds_recovery (g : Editions → Editions) : (s.onEds g).recovery = s.recovery := rfl
@[simp] theorem onEds_desk (g : Editions → Editions) : (s.onEds g).desk = s.desk := rfl
@[simp] theorem onEds_exec (g : Editions → Editions) : (s.onEds g).exec = s.exec := rfl
@[simp] theorem onEds_feed (g : Editions → Editions) : (s.onEds g).feed = s.feed := rfl
@[simp] theorem onEds_pool (g : Editions → Editions) : (s.onEds g).pool = s.pool := rfl
@[simp] theorem onEds_recon (g : Editions → Editions) : (s.onEds g).recon = s.recon := rfl
@[simp] theorem onEds_eds (g : Editions → Editions) : (s.onEds g).eds = g s.eds := rfl
@[simp] theorem onEds_coder (g : Editions → Editions) : (s.onEds g).coder = s.coder := rfl
@[simp] theorem onEds_cat (g : Editions → Editions) : (s.onEds g).cat = s.cat := rfl
@[simp] theorem onEds_lanes (g : Editions → Editions) : (s.onEds g).lanes = s.lanes := rfl
@[simp] theorem onEds_ret (g : Editions → Editions) : (s.onEds g).ret = s.ret := rfl
@[simp] theorem onEds_scrub (g : Editions → Editions) : (s.onEds g).scrub = s.scrub := rfl
@[simp] theorem onEds_jnl (g : Editions → Editions) : (s.onEds g).jnl = s.jnl := rfl
@[simp] theorem onEds_mem (g : Editions → Editions) : (s.onEds g).mem = s.mem := rfl
@[simp] theorem onEds_fails (g : Editions → Editions) : (s.onEds g).fails = s.fails := rfl
@[simp] theorem onEds_media (g : Editions → Editions) : (s.onEds g).media = s.media := rfl
@[simp] theorem onEds_fresh (g : Editions → Editions) : (s.onEds g).fresh = s.fresh := rfl

@[simp] theorem onCoder_pending (g : Coder → Coder) : (s.onCoder g).pending = s.pending := rfl
@[simp] theorem onCoder_powered (g : Coder → Coder) : (s.onCoder g).powered = s.powered := rfl
@[simp] theorem onCoder_stamp (g : Coder → Coder) : (s.onCoder g).stamp = s.stamp := rfl
@[simp] theorem onCoder_engine (g : Coder → Coder) : (s.onCoder g).engine = s.engine := rfl
@[simp] theorem onCoder_recovery (g : Coder → Coder) : (s.onCoder g).recovery = s.recovery := rfl
@[simp] theorem onCoder_desk (g : Coder → Coder) : (s.onCoder g).desk = s.desk := rfl
@[simp] theorem onCoder_exec (g : Coder → Coder) : (s.onCoder g).exec = s.exec := rfl
@[simp] theorem onCoder_feed (g : Coder → Coder) : (s.onCoder g).feed = s.feed := rfl
@[simp] theorem onCoder_pool (g : Coder → Coder) : (s.onCoder g).pool = s.pool := rfl
@[simp] theorem onCoder_recon (g : Coder → Coder) : (s.onCoder g).recon = s.recon := rfl
@[simp] theorem onCoder_eds (g : Coder → Coder) : (s.onCoder g).eds = s.eds := rfl
@[simp] theorem onCoder_coder (g : Coder → Coder) : (s.onCoder g).coder = g s.coder := rfl
@[simp] theorem onCoder_cat (g : Coder → Coder) : (s.onCoder g).cat = s.cat := rfl
@[simp] theorem onCoder_lanes (g : Coder → Coder) : (s.onCoder g).lanes = s.lanes := rfl
@[simp] theorem onCoder_ret (g : Coder → Coder) : (s.onCoder g).ret = s.ret := rfl
@[simp] theorem onCoder_scrub (g : Coder → Coder) : (s.onCoder g).scrub = s.scrub := rfl
@[simp] theorem onCoder_jnl (g : Coder → Coder) : (s.onCoder g).jnl = s.jnl := rfl
@[simp] theorem onCoder_mem (g : Coder → Coder) : (s.onCoder g).mem = s.mem := rfl
@[simp] theorem onCoder_fails (g : Coder → Coder) : (s.onCoder g).fails = s.fails := rfl
@[simp] theorem onCoder_media (g : Coder → Coder) : (s.onCoder g).media = s.media := rfl
@[simp] theorem onCoder_fresh (g : Coder → Coder) : (s.onCoder g).fresh = s.fresh := rfl

@[simp] theorem onCat_pending (g : Catalog → Catalog) : (s.onCat g).pending = s.pending := rfl
@[simp] theorem onCat_powered (g : Catalog → Catalog) : (s.onCat g).powered = s.powered := rfl
@[simp] theorem onCat_stamp (g : Catalog → Catalog) : (s.onCat g).stamp = s.stamp := rfl
@[simp] theorem onCat_engine (g : Catalog → Catalog) : (s.onCat g).engine = s.engine := rfl
@[simp] theorem onCat_recovery (g : Catalog → Catalog) : (s.onCat g).recovery = s.recovery := rfl
@[simp] theorem onCat_desk (g : Catalog → Catalog) : (s.onCat g).desk = s.desk := rfl
@[simp] theorem onCat_exec (g : Catalog → Catalog) : (s.onCat g).exec = s.exec := rfl
@[simp] theorem onCat_feed (g : Catalog → Catalog) : (s.onCat g).feed = s.feed := rfl
@[simp] theorem onCat_pool (g : Catalog → Catalog) : (s.onCat g).pool = s.pool := rfl
@[simp] theorem onCat_recon (g : Catalog → Catalog) : (s.onCat g).recon = s.recon := rfl
@[simp] theorem onCat_eds (g : Catalog → Catalog) : (s.onCat g).eds = s.eds := rfl
@[simp] theorem onCat_coder (g : Catalog → Catalog) : (s.onCat g).coder = s.coder := rfl
@[simp] theorem onCat_cat (g : Catalog → Catalog) : (s.onCat g).cat = g s.cat := rfl
@[simp] theorem onCat_lanes (g : Catalog → Catalog) : (s.onCat g).lanes = s.lanes := rfl
@[simp] theorem onCat_ret (g : Catalog → Catalog) : (s.onCat g).ret = s.ret := rfl
@[simp] theorem onCat_scrub (g : Catalog → Catalog) : (s.onCat g).scrub = s.scrub := rfl
@[simp] theorem onCat_jnl (g : Catalog → Catalog) : (s.onCat g).jnl = s.jnl := rfl
@[simp] theorem onCat_mem (g : Catalog → Catalog) : (s.onCat g).mem = s.mem := rfl
@[simp] theorem onCat_fails (g : Catalog → Catalog) : (s.onCat g).fails = s.fails := rfl
@[simp] theorem onCat_media (g : Catalog → Catalog) : (s.onCat g).media = s.media := rfl
@[simp] theorem onCat_fresh (g : Catalog → Catalog) : (s.onCat g).fresh = s.fresh := rfl

@[simp] theorem onLanes_pending (g : Lanes → Lanes) : (s.onLanes g).pending = s.pending := rfl
@[simp] theorem onLanes_powered (g : Lanes → Lanes) : (s.onLanes g).powered = s.powered := rfl
@[simp] theorem onLanes_stamp (g : Lanes → Lanes) : (s.onLanes g).stamp = s.stamp := rfl
@[simp] theorem onLanes_engine (g : Lanes → Lanes) : (s.onLanes g).engine = s.engine := rfl
@[simp] theorem onLanes_recovery (g : Lanes → Lanes) : (s.onLanes g).recovery = s.recovery := rfl
@[simp] theorem onLanes_desk (g : Lanes → Lanes) : (s.onLanes g).desk = s.desk := rfl
@[simp] theorem onLanes_exec (g : Lanes → Lanes) : (s.onLanes g).exec = s.exec := rfl
@[simp] theorem onLanes_feed (g : Lanes → Lanes) : (s.onLanes g).feed = s.feed := rfl
@[simp] theorem onLanes_pool (g : Lanes → Lanes) : (s.onLanes g).pool = s.pool := rfl
@[simp] theorem onLanes_recon (g : Lanes → Lanes) : (s.onLanes g).recon = s.recon := rfl
@[simp] theorem onLanes_eds (g : Lanes → Lanes) : (s.onLanes g).eds = s.eds := rfl
@[simp] theorem onLanes_coder (g : Lanes → Lanes) : (s.onLanes g).coder = s.coder := rfl
@[simp] theorem onLanes_cat (g : Lanes → Lanes) : (s.onLanes g).cat = s.cat := rfl
@[simp] theorem onLanes_lanes (g : Lanes → Lanes) : (s.onLanes g).lanes = g s.lanes := rfl
@[simp] theorem onLanes_ret (g : Lanes → Lanes) : (s.onLanes g).ret = s.ret := rfl
@[simp] theorem onLanes_scrub (g : Lanes → Lanes) : (s.onLanes g).scrub = s.scrub := rfl
@[simp] theorem onLanes_jnl (g : Lanes → Lanes) : (s.onLanes g).jnl = s.jnl := rfl
@[simp] theorem onLanes_mem (g : Lanes → Lanes) : (s.onLanes g).mem = s.mem := rfl
@[simp] theorem onLanes_fails (g : Lanes → Lanes) : (s.onLanes g).fails = s.fails := rfl
@[simp] theorem onLanes_media (g : Lanes → Lanes) : (s.onLanes g).media = s.media := rfl
@[simp] theorem onLanes_fresh (g : Lanes → Lanes) : (s.onLanes g).fresh = s.fresh := rfl

@[simp] theorem onRet_pending (g : Retention → Retention) : (s.onRet g).pending = s.pending := rfl
@[simp] theorem onRet_powered (g : Retention → Retention) : (s.onRet g).powered = s.powered := rfl
@[simp] theorem onRet_stamp (g : Retention → Retention) : (s.onRet g).stamp = s.stamp := rfl
@[simp] theorem onRet_engine (g : Retention → Retention) : (s.onRet g).engine = s.engine := rfl
@[simp] theorem onRet_recovery (g : Retention → Retention) : (s.onRet g).recovery = s.recovery := rfl
@[simp] theorem onRet_desk (g : Retention → Retention) : (s.onRet g).desk = s.desk := rfl
@[simp] theorem onRet_exec (g : Retention → Retention) : (s.onRet g).exec = s.exec := rfl
@[simp] theorem onRet_feed (g : Retention → Retention) : (s.onRet g).feed = s.feed := rfl
@[simp] theorem onRet_pool (g : Retention → Retention) : (s.onRet g).pool = s.pool := rfl
@[simp] theorem onRet_recon (g : Retention → Retention) : (s.onRet g).recon = s.recon := rfl
@[simp] theorem onRet_eds (g : Retention → Retention) : (s.onRet g).eds = s.eds := rfl
@[simp] theorem onRet_coder (g : Retention → Retention) : (s.onRet g).coder = s.coder := rfl
@[simp] theorem onRet_cat (g : Retention → Retention) : (s.onRet g).cat = s.cat := rfl
@[simp] theorem onRet_lanes (g : Retention → Retention) : (s.onRet g).lanes = s.lanes := rfl
@[simp] theorem onRet_ret (g : Retention → Retention) : (s.onRet g).ret = g s.ret := rfl
@[simp] theorem onRet_scrub (g : Retention → Retention) : (s.onRet g).scrub = s.scrub := rfl
@[simp] theorem onRet_jnl (g : Retention → Retention) : (s.onRet g).jnl = s.jnl := rfl
@[simp] theorem onRet_mem (g : Retention → Retention) : (s.onRet g).mem = s.mem := rfl
@[simp] theorem onRet_fails (g : Retention → Retention) : (s.onRet g).fails = s.fails := rfl
@[simp] theorem onRet_media (g : Retention → Retention) : (s.onRet g).media = s.media := rfl
@[simp] theorem onRet_fresh (g : Retention → Retention) : (s.onRet g).fresh = s.fresh := rfl

@[simp] theorem onScrub_pending (g : Scrub → Scrub) : (s.onScrub g).pending = s.pending := rfl
@[simp] theorem onScrub_powered (g : Scrub → Scrub) : (s.onScrub g).powered = s.powered := rfl
@[simp] theorem onScrub_stamp (g : Scrub → Scrub) : (s.onScrub g).stamp = s.stamp := rfl
@[simp] theorem onScrub_engine (g : Scrub → Scrub) : (s.onScrub g).engine = s.engine := rfl
@[simp] theorem onScrub_recovery (g : Scrub → Scrub) : (s.onScrub g).recovery = s.recovery := rfl
@[simp] theorem onScrub_desk (g : Scrub → Scrub) : (s.onScrub g).desk = s.desk := rfl
@[simp] theorem onScrub_exec (g : Scrub → Scrub) : (s.onScrub g).exec = s.exec := rfl
@[simp] theorem onScrub_feed (g : Scrub → Scrub) : (s.onScrub g).feed = s.feed := rfl
@[simp] theorem onScrub_pool (g : Scrub → Scrub) : (s.onScrub g).pool = s.pool := rfl
@[simp] theorem onScrub_recon (g : Scrub → Scrub) : (s.onScrub g).recon = s.recon := rfl
@[simp] theorem onScrub_eds (g : Scrub → Scrub) : (s.onScrub g).eds = s.eds := rfl
@[simp] theorem onScrub_coder (g : Scrub → Scrub) : (s.onScrub g).coder = s.coder := rfl
@[simp] theorem onScrub_cat (g : Scrub → Scrub) : (s.onScrub g).cat = s.cat := rfl
@[simp] theorem onScrub_lanes (g : Scrub → Scrub) : (s.onScrub g).lanes = s.lanes := rfl
@[simp] theorem onScrub_ret (g : Scrub → Scrub) : (s.onScrub g).ret = s.ret := rfl
@[simp] theorem onScrub_scrub (g : Scrub → Scrub) : (s.onScrub g).scrub = g s.scrub := rfl
@[simp] theorem onScrub_jnl (g : Scrub → Scrub) : (s.onScrub g).jnl = s.jnl := rfl
@[simp] theorem onScrub_mem (g : Scrub → Scrub) : (s.onScrub g).mem = s.mem := rfl
@[simp] theorem onScrub_fails (g : Scrub → Scrub) : (s.onScrub g).fails = s.fails := rfl
@[simp] theorem onScrub_media (g : Scrub → Scrub) : (s.onScrub g).media = s.media := rfl
@[simp] theorem onScrub_fresh (g : Scrub → Scrub) : (s.onScrub g).fresh = s.fresh := rfl

@[simp] theorem onJnl_pending (g : Journal → Journal) : (s.onJnl g).pending = s.pending := rfl
@[simp] theorem onJnl_powered (g : Journal → Journal) : (s.onJnl g).powered = s.powered := rfl
@[simp] theorem onJnl_stamp (g : Journal → Journal) : (s.onJnl g).stamp = s.stamp := rfl
@[simp] theorem onJnl_engine (g : Journal → Journal) : (s.onJnl g).engine = s.engine := rfl
@[simp] theorem onJnl_recovery (g : Journal → Journal) : (s.onJnl g).recovery = s.recovery := rfl
@[simp] theorem onJnl_desk (g : Journal → Journal) : (s.onJnl g).desk = s.desk := rfl
@[simp] theorem onJnl_exec (g : Journal → Journal) : (s.onJnl g).exec = s.exec := rfl
@[simp] theorem onJnl_feed (g : Journal → Journal) : (s.onJnl g).feed = s.feed := rfl
@[simp] theorem onJnl_pool (g : Journal → Journal) : (s.onJnl g).pool = s.pool := rfl
@[simp] theorem onJnl_recon (g : Journal → Journal) : (s.onJnl g).recon = s.recon := rfl
@[simp] theorem onJnl_eds (g : Journal → Journal) : (s.onJnl g).eds = s.eds := rfl
@[simp] theorem onJnl_coder (g : Journal → Journal) : (s.onJnl g).coder = s.coder := rfl
@[simp] theorem onJnl_cat (g : Journal → Journal) : (s.onJnl g).cat = s.cat := rfl
@[simp] theorem onJnl_lanes (g : Journal → Journal) : (s.onJnl g).lanes = s.lanes := rfl
@[simp] theorem onJnl_ret (g : Journal → Journal) : (s.onJnl g).ret = s.ret := rfl
@[simp] theorem onJnl_scrub (g : Journal → Journal) : (s.onJnl g).scrub = s.scrub := rfl
@[simp] theorem onJnl_jnl (g : Journal → Journal) : (s.onJnl g).jnl = g s.jnl := rfl
@[simp] theorem onJnl_mem (g : Journal → Journal) : (s.onJnl g).mem = s.mem := rfl
@[simp] theorem onJnl_fails (g : Journal → Journal) : (s.onJnl g).fails = s.fails := rfl
@[simp] theorem onJnl_media (g : Journal → Journal) : (s.onJnl g).media = s.media := rfl
@[simp] theorem onJnl_fresh (g : Journal → Journal) : (s.onJnl g).fresh = s.fresh := rfl

@[simp] theorem onMem_pending (g : Memory → Memory) : (s.onMem g).pending = s.pending := rfl
@[simp] theorem onMem_powered (g : Memory → Memory) : (s.onMem g).powered = s.powered := rfl
@[simp] theorem onMem_stamp (g : Memory → Memory) : (s.onMem g).stamp = s.stamp := rfl
@[simp] theorem onMem_engine (g : Memory → Memory) : (s.onMem g).engine = s.engine := rfl
@[simp] theorem onMem_recovery (g : Memory → Memory) : (s.onMem g).recovery = s.recovery := rfl
@[simp] theorem onMem_desk (g : Memory → Memory) : (s.onMem g).desk = s.desk := rfl
@[simp] theorem onMem_exec (g : Memory → Memory) : (s.onMem g).exec = s.exec := rfl
@[simp] theorem onMem_feed (g : Memory → Memory) : (s.onMem g).feed = s.feed := rfl
@[simp] theorem onMem_pool (g : Memory → Memory) : (s.onMem g).pool = s.pool := rfl
@[simp] theorem onMem_recon (g : Memory → Memory) : (s.onMem g).recon = s.recon := rfl
@[simp] theorem onMem_eds (g : Memory → Memory) : (s.onMem g).eds = s.eds := rfl
@[simp] theorem onMem_coder (g : Memory → Memory) : (s.onMem g).coder = s.coder := rfl
@[simp] theorem onMem_cat (g : Memory → Memory) : (s.onMem g).cat = s.cat := rfl
@[simp] theorem onMem_lanes (g : Memory → Memory) : (s.onMem g).lanes = s.lanes := rfl
@[simp] theorem onMem_ret (g : Memory → Memory) : (s.onMem g).ret = s.ret := rfl
@[simp] theorem onMem_scrub (g : Memory → Memory) : (s.onMem g).scrub = s.scrub := rfl
@[simp] theorem onMem_jnl (g : Memory → Memory) : (s.onMem g).jnl = s.jnl := rfl
@[simp] theorem onMem_mem (g : Memory → Memory) : (s.onMem g).mem = g s.mem := rfl
@[simp] theorem onMem_fails (g : Memory → Memory) : (s.onMem g).fails = s.fails := rfl
@[simp] theorem onMem_media (g : Memory → Memory) : (s.onMem g).media = s.media := rfl
@[simp] theorem onMem_fresh (g : Memory → Memory) : (s.onMem g).fresh = s.fresh := rfl

@[simp] theorem onMedia_pending (g : Memory → Memory) : (s.onMedia g).pending = s.pending := rfl
@[simp] theorem onMedia_powered (g : Memory → Memory) : (s.onMedia g).powered = s.powered := rfl
@[simp] theorem onMedia_stamp (g : Memory → Memory) : (s.onMedia g).stamp = s.stamp := rfl
@[simp] theorem onMedia_engine (g : Memory → Memory) : (s.onMedia g).engine = s.engine := rfl
@[simp] theorem onMedia_recovery (g : Memory → Memory) : (s.onMedia g).recovery = s.recovery := rfl
@[simp] theorem onMedia_desk (g : Memory → Memory) : (s.onMedia g).desk = s.desk := rfl
@[simp] theorem onMedia_exec (g : Memory → Memory) : (s.onMedia g).exec = s.exec := rfl
@[simp] theorem onMedia_feed (g : Memory → Memory) : (s.onMedia g).feed = s.feed := rfl
@[simp] theorem onMedia_pool (g : Memory → Memory) : (s.onMedia g).pool = s.pool := rfl
@[simp] theorem onMedia_recon (g : Memory → Memory) : (s.onMedia g).recon = s.recon := rfl
@[simp] theorem onMedia_eds (g : Memory → Memory) : (s.onMedia g).eds = s.eds := rfl
@[simp] theorem onMedia_coder (g : Memory → Memory) : (s.onMedia g).coder = s.coder := rfl
@[simp] theorem onMedia_cat (g : Memory → Memory) : (s.onMedia g).cat = s.cat := rfl
@[simp] theorem onMedia_lanes (g : Memory → Memory) : (s.onMedia g).lanes = s.lanes := rfl
@[simp] theorem onMedia_ret (g : Memory → Memory) : (s.onMedia g).ret = s.ret := rfl
@[simp] theorem onMedia_scrub (g : Memory → Memory) : (s.onMedia g).scrub = s.scrub := rfl
@[simp] theorem onMedia_jnl (g : Memory → Memory) : (s.onMedia g).jnl = s.jnl := rfl
@[simp] theorem onMedia_mem (g : Memory → Memory) : (s.onMedia g).mem = s.mem := rfl
@[simp] theorem onMedia_fails (g : Memory → Memory) : (s.onMedia g).fails = s.fails := rfl
@[simp] theorem onMedia_media (g : Memory → Memory) : (s.onMedia g).media = g s.media := rfl
@[simp] theorem onMedia_fresh (g : Memory → Memory) : (s.onMedia g).fresh = s.fresh := rfl

@[simp] theorem hostWrite_pending (a : Nat) (bs : List Byte) : (s.hostWrite a bs).pending = s.pending := by
  unfold hostWrite; split <;> rfl
@[simp] theorem hostWrite_powered (a : Nat) (bs : List Byte) : (s.hostWrite a bs).powered = s.powered := by
  unfold hostWrite; split <;> rfl
@[simp] theorem hostWrite_stamp (a : Nat) (bs : List Byte) : (s.hostWrite a bs).stamp = s.stamp := by
  unfold hostWrite; split <;> rfl
@[simp] theorem hostWrite_engine (a : Nat) (bs : List Byte) : (s.hostWrite a bs).engine = s.engine := by
  unfold hostWrite; split <;> rfl
@[simp] theorem hostWrite_recovery (a : Nat) (bs : List Byte) : (s.hostWrite a bs).recovery = s.recovery := by
  unfold hostWrite; split <;> rfl
@[simp] theorem hostWrite_desk (a : Nat) (bs : List Byte) : (s.hostWrite a bs).desk = s.desk := by
  unfold hostWrite; split <;> rfl
@[simp] theorem hostWrite_exec (a : Nat) (bs : List Byte) : (s.hostWrite a bs).exec = s.exec := by
  unfold hostWrite; split <;> rfl
@[simp] theorem hostWrite_feed (a : Nat) (bs : List Byte) : (s.hostWrite a bs).feed = s.feed := by
  unfold hostWrite; split <;> rfl
@[simp] theorem hostWrite_pool (a : Nat) (bs : List Byte) : (s.hostWrite a bs).pool = s.pool := by
  unfold hostWrite; split <;> rfl
@[simp] theorem hostWrite_recon (a : Nat) (bs : List Byte) : (s.hostWrite a bs).recon = s.recon := by
  unfold hostWrite; split <;> rfl
@[simp] theorem hostWrite_eds (a : Nat) (bs : List Byte) : (s.hostWrite a bs).eds = s.eds := by
  unfold hostWrite; split <;> rfl
@[simp] theorem hostWrite_coder (a : Nat) (bs : List Byte) : (s.hostWrite a bs).coder = s.coder := by
  unfold hostWrite; split <;> rfl
@[simp] theorem hostWrite_cat (a : Nat) (bs : List Byte) : (s.hostWrite a bs).cat = s.cat := by
  unfold hostWrite; split <;> rfl
@[simp] theorem hostWrite_lanes (a : Nat) (bs : List Byte) : (s.hostWrite a bs).lanes = s.lanes := by
  unfold hostWrite; split <;> rfl
@[simp] theorem hostWrite_ret (a : Nat) (bs : List Byte) : (s.hostWrite a bs).ret = s.ret := by
  unfold hostWrite; split <;> rfl
@[simp] theorem hostWrite_scrub (a : Nat) (bs : List Byte) : (s.hostWrite a bs).scrub = s.scrub := by
  unfold hostWrite; split <;> rfl
@[simp] theorem hostWrite_jnl (a : Nat) (bs : List Byte) : (s.hostWrite a bs).jnl = s.jnl := by
  unfold hostWrite; split <;> rfl
@[simp] theorem hostWrite_fails (a : Nat) (bs : List Byte) : (s.hostWrite a bs).fails = s.fails := by
  unfold hostWrite; split <;> rfl
@[simp] theorem hostWrite_media (a : Nat) (bs : List Byte) : (s.hostWrite a bs).media = s.media := by
  unfold hostWrite; split <;> rfl
@[simp] theorem hostWrite_fresh (a : Nat) (bs : List Byte) : (s.hostWrite a bs).fresh = s.fresh := by
  unfold hostWrite; split <;> rfl

@[simp] theorem onBus_pending (b : Bus) : (s.onBus b).pending = s.pending := rfl
@[simp] theorem onBus_powered (b : Bus) : (s.onBus b).powered = s.powered := rfl
@[simp] theorem onBus_stamp (b : Bus) : (s.onBus b).stamp = s.stamp := rfl
@[simp] theorem onBus_engine (b : Bus) : (s.onBus b).engine = s.engine := rfl
@[simp] theorem onBus_recovery (b : Bus) : (s.onBus b).recovery = s.recovery := rfl
@[simp] theorem onBus_desk (b : Bus) : (s.onBus b).desk = s.desk := rfl
@[simp] theorem onBus_exec (b : Bus) : (s.onBus b).exec = s.exec := rfl
@[simp] theorem onBus_feed (b : Bus) : (s.onBus b).feed = s.feed := rfl
@[simp] theorem onBus_pool (b : Bus) : (s.onBus b).pool = s.pool := rfl
@[simp] theorem onBus_recon (b : Bus) : (s.onBus b).recon = s.recon := rfl
@[simp] theorem onBus_eds (b : Bus) : (s.onBus b).eds = s.eds := rfl
@[simp] theorem onBus_coder (b : Bus) : (s.onBus b).coder = s.coder := rfl
@[simp] theorem onBus_cat (b : Bus) : (s.onBus b).cat = s.cat := rfl
@[simp] theorem onBus_lanes (b : Bus) : (s.onBus b).lanes = s.lanes := rfl
@[simp] theorem onBus_ret (b : Bus) : (s.onBus b).ret = s.ret := rfl
@[simp] theorem onBus_scrub (b : Bus) : (s.onBus b).scrub = s.scrub := rfl
@[simp] theorem onBus_jnl (b : Bus) : (s.onBus b).jnl = s.jnl := rfl
@[simp] theorem onBus_media (b : Bus) : (s.onBus b).media = s.media := rfl
@[simp] theorem onBus_fails (b : Bus) : (s.onBus b).fails = b.fails := rfl
@[simp] theorem onBus_fresh (b : Bus) : (s.onBus b).fresh = s.fresh + 1 := rfl

/-- A register write or a microsecond acts on a powered engine. -/
theorem attended_on (f : State → State) (h : s.powered = true) : s.attended f = f s := by simp [attended, h]
/-- A command of a powered engine that is not RECOVERING acts. -/
theorem commanded_on (f : State → State) (h : s.powered = true) (e : s.engine ≠ .recovering) : s.commanded f = f s := by
  simp [commanded, h, e]
/-- A command of an unpowered engine changes nothing. -/
theorem commanded_off (f : State → State) (h : s.powered = false) : s.commanded f = s := by simp [commanded, h]
/-- With what the bus brings, a command of a powered engine that is not RECOVERING acts. -/
theorem commandedOn_on (b : Bus) (f : State → State) (h : s.powered = true) (e : s.engine ≠ .recovering) :
    s.commandedOn b f = f (s.onBus b) := by simp [commandedOn, commanded, h, e]
/-- With what the bus brings, a command of an unpowered engine changes no more than host memory. -/
theorem commandedOn_off (b : Bus) (f : State → State) (h : s.powered = false) : s.commandedOn b f = s.onBus b := by
  simp [commandedOn, commanded, h]

end State

/-! ## Banks -/

@[simp] theorem bget_bset_self {α : Type} {n : Nat} (v : Vector α n) (i : Fin n) (x : α) : bget (bset v i x) i = x := by
  simp [bget, bset]

theorem bget_bset_ne {α : Type} {n : Nat} (v : Vector α n) (i j : Fin n) (x : α) (h : i ≠ j) :
    bget (bset v i x) j = bget v j := by
  have : i.val ≠ j.val := fun e => h (Fin.ext e)
  simp [bget, bset, this]

@[simp] theorem bget_bmod_self {α : Type} {n : Nat} (v : Vector α n) (i : Fin n) (f : α → α) :
    bget (bmod v i f) i = f (bget v i) := by simp [bmod]

theorem bget_bmod_ne {α : Type} {n : Nat} (v : Vector α n) (i j : Fin n) (f : α → α) (h : i ≠ j) :
    bget (bmod v i f) j = bget v j := by simp [bmod, bget_bset_ne v i j _ h]

theorem mem_indices {n : Nat} (i : Fin n) : i ∈ indices n := by
  simp only [indices, List.mem_map]
  exact ⟨⟨i.val, List.mem_range.mpr i.isLt⟩, List.mem_attach _ _, rfl⟩

end Sys2Proof.Machine
end

