-- ==== Sys2Proof/Laws/Memory.lean ====
section
/-! SUPPORT. Tables and memories: a read after a write, a write leaves every other place alone, and every operation keeps the
canonical form. -/

namespace Sys2Proof.Machine

section tables
variable {α : Type}

/-! ## What a table holds -/

@[simp] theorem tfind_tput_self (k : Nat) (v : α) (t : List (Nat × α)) : tfind k (tput k v t) = some v := by
  induction t with
  | nil => simp [tput, tfind]
  | cons p t ih =>
    obtain ⟨a, w⟩ := p
    unfold tput
    split
    · simp [tfind]
    · split
      · simp [tfind]
      · rename_i h1 h2
        simp [tfind, Ne.symm h2, ih]

theorem tfind_tput_ne {k j : Nat} (h : j ≠ k) (v : α) (t : List (Nat × α)) : tfind j (tput k v t) = tfind j t := by
  induction t with
  | nil => simp [tput, tfind, Ne.symm h]
  | cons p t ih =>
    obtain ⟨a, w⟩ := p
    unfold tput
    split
    · simp [tfind, Ne.symm h]
    · split
      · rename_i h1 h2
        subst h2
        simp [tfind, Ne.symm h]
      · simp only [tfind, ih]

theorem tfind_tdrop_ne {k j : Nat} (h : j ≠ k) (t : List (Nat × α)) : tfind j (tdrop k t) = tfind j t := by
  induction t with
  | nil => rfl
  | cons p t ih =>
    obtain ⟨a, w⟩ := p
    unfold tdrop
    split
    · rename_i e
      simp [tfind, e, Ne.symm h]
    · simp only [tfind, ih]

/-! ## Rising keys -/

/-- Every key of a table lies above a bound, and keys rise from it. -/
def risesFrom (b : Nat) : List (Nat × α) → Prop
  | [] => True
  | (a, _) :: t => b ≤ a ∧ risesFrom (a + 1) t

theorem risesFrom.mono {b c : Nat} {t : List (Nat × α)} (h : risesFrom b t) (hc : c ≤ b) : risesFrom c t := by
  cases t with
  | nil => trivial
  | cons p t => exact ⟨Nat.le_trans hc h.1, h.2⟩

theorem rising_iff (t : List (Nat × α)) : rising t = true ↔ risesFrom 0 t := by
  have key : ∀ (t : List (Nat × α)) (a : Nat) (w : α), rising ((a, w) :: t) = true ↔ risesFrom (a + 1) t := by
    intro t
    induction t with
    | nil => intro a w; simp [rising, risesFrom]
    | cons p t ih =>
      intro a w
      obtain ⟨b, x⟩ := p
      simp only [rising, Bool.and_eq_true, decide_eq_true_eq, risesFrom, ih b x]
      exact Iff.rfl
  cases t with
  | nil => simp [rising, risesFrom]
  | cons p t =>
    obtain ⟨a, w⟩ := p
    simp [key t a w, risesFrom]

theorem risesFrom_tput {b k : Nat} (v : α) {t : List (Nat × α)} (hk : b ≤ k) (h : risesFrom b t) :
    risesFrom b (tput k v t) := by
  induction t generalizing b with
  | nil => exact ⟨hk, trivial⟩
  | cons p t ih =>
    obtain ⟨a, w⟩ := p
    unfold tput
    split
    · rename_i h1
      exact ⟨hk, h1, h.2⟩
    · split
      · rename_i h1 h2
        subst h2
        exact ⟨hk, h.2⟩
      · rename_i h1 h2
        exact ⟨h.1, ih (by omega) h.2⟩

theorem risesFrom_tdrop {b k : Nat} {t : List (Nat × α)} (h : risesFrom b t) : risesFrom b (tdrop k t) := by
  induction t generalizing b with
  | nil => trivial
  | cons p t ih =>
    obtain ⟨a, w⟩ := p
    unfold tdrop
    split
    · exact h.2.mono (by have := h.1; omega)
    · exact ⟨h.1, ih h.2⟩

theorem risesFrom_filter {b : Nat} (q : Nat × α → Bool) {t : List (Nat × α)} (h : risesFrom b t) :
    risesFrom b (t.filter q) := by
  induction t generalizing b with
  | nil => trivial
  | cons p t ih =>
    obtain ⟨a, w⟩ := p
    rw [List.filter_cons]
    split
    · exact ⟨h.1, ih h.2⟩
    · exact (ih h.2).mono (by have := h.1; omega)

theorem mem_tput {k : Nat} {v : α} {t : List (Nat × α)} {p : Nat × α} (h : p ∈ tput k v t) : p = (k, v) ∨ p ∈ t := by
  induction t with
  | nil => simpa [tput] using h
  | cons q t ih =>
    obtain ⟨a, w⟩ := q
    unfold tput at h
    split at h
    · simpa using h
    · split at h
      · rcases List.mem_cons.mp h with h | h
        · exact .inl h
        · exact .inr (List.mem_cons_of_mem _ h)
      · rcases List.mem_cons.mp h with h | h
        · exact .inr (by simp [h])
        · rcases ih h with h | h
          · exact .inl h
          · exact .inr (List.mem_cons_of_mem _ h)

theorem mem_tdrop {k : Nat} {t : List (Nat × α)} {p : Nat × α} (h : p ∈ tdrop k t) : p ∈ t := by
  induction t with
  | nil => exact h
  | cons q t ih =>
    obtain ⟨a, w⟩ := q
    unfold tdrop at h
    split at h
    · exact List.mem_cons_of_mem _ h
    · rcases List.mem_cons.mp h with h | h
      · simp [h]
      · exact List.mem_cons_of_mem _ (ih h)

theorem tfind_above {b k : Nat} {t : List (Nat × α)} (h : risesFrom b t) (hk : k < b) : tfind k t = none := by
  induction t generalizing b with
  | nil => rfl
  | cons p t ih =>
    obtain ⟨a, w⟩ := p
    have := h.1
    have e : a ≠ k := by omega
    simp [tfind, e, ih h.2 (by omega)]

theorem tfind_tdrop_self {b k : Nat} {t : List (Nat × α)} (h : risesFrom b t) : tfind k (tdrop k t) = none := by
  induction t generalizing b with
  | nil => rfl
  | cons p t ih =>
    obtain ⟨a, w⟩ := p
    unfold tdrop
    split
    · rename_i e
      exact tfind_above h.2 (by omega)
    · rename_i e
      simp [tfind, e, ih h.2]

/-! ## Tables with a default -/

variable [DecidableEq α]

theorem canonical_iff (d : α) (t : List (Nat × α)) :
    canonical d t = true ↔ risesFrom 0 t ∧ ∀ p ∈ t, p.2 ≠ d := by
  simp [canonical, rising_iff]

/-- A read after a write gives the value written. -/
theorem dfind_dput_self (d : α) (k : Nat) (v : α) {t : List (Nat × α)} (h : canonical d t = true) :
    dfind d k (dput d k v t) = v := by
  unfold dfind dput
  split
  · rename_i e
    rw [tfind_tdrop_self ((canonical_iff d t).mp h).1, e]
    rfl
  · simp

/-- A write leaves every other key alone. -/
theorem dfind_dput_ne (d : α) {k j : Nat} (h : j ≠ k) (v : α) (t : List (Nat × α)) :
    dfind d j (dput d k v t) = dfind d j t := by
  unfold dfind dput
  split
  · rw [tfind_tdrop_ne h]
  · rw [tfind_tput_ne h]

/-- A write keeps the canonical form. -/
theorem canonical_dput (d : α) (k : Nat) (v : α) {t : List (Nat × α)} (h : canonical d t = true) :
    canonical d (dput d k v t) = true := by
  rw [canonical_iff] at h ⊢
  unfold dput
  split
  · exact ⟨risesFrom_tdrop h.1, fun p hp => h.2 p (mem_tdrop hp)⟩
  · rename_i e
    refine ⟨risesFrom_tput v (Nat.zero_le _) h.1, fun p hp => ?_⟩
    rcases mem_tput hp with rfl | hp
    · exact e
    · exact h.2 p hp

theorem canonical_filter (d : α) (q : Nat × α → Bool) {t : List (Nat × α)} (h : canonical d t = true) :
    canonical d (t.filter q) = true := by
  rw [canonical_iff] at h ⊢
  exact ⟨risesFrom_filter q h.1, fun p hp => h.2 p (List.mem_filter.mp hp).1⟩

end tables

/-! ## Memories -/

theorem wf_write {fill : Byte} {m : Memory} (a : Nat) (b : Byte) (h : Memory.wf fill m = true) :
    Memory.wf fill (Memory.write fill m a b) = true := canonical_dput fill a b h

theorem wf_writeAll {fill : Byte} {m : Memory} (a : Nat) (bs : List Byte) (h : Memory.wf fill m = true) :
    Memory.wf fill (Memory.writeAll fill m a bs) = true := by
  induction bs generalizing m a with
  | nil => exact h
  | cons b bs ih => exact ih (a + 1) (wf_write a b h)

theorem wf_writeCells {fill : Byte} {m : Memory} (cs : List (Nat × Byte)) (h : Memory.wf fill m = true) :
    Memory.wf fill (Memory.writeCells fill m cs) = true := by
  induction cs generalizing m with
  | nil => exact h
  | cons c cs ih => exact ih (wf_write c.1 c.2 h)

theorem wf_clear {fill : Byte} {m : Memory} (a n : Nat) (h : Memory.wf fill m = true) :
    Memory.wf fill (Memory.clear m a n) = true := canonical_filter fill _ h

theorem byte_write_self {fill : Byte} {m : Memory} (a : Nat) (b : Byte) (h : Memory.wf fill m = true) :
    Memory.byte fill (Memory.write fill m a b) a = b := dfind_dput_self fill a b h

theorem byte_write_ne {fill : Byte} {m : Memory} {a c : Nat} (b : Byte) (h : c ≠ a) :
    Memory.byte fill (Memory.write fill m a b) c = Memory.byte fill m c := dfind_dput_ne fill h b m

/-- A write of a span leaves every byte outside the span alone. -/
theorem byte_writeAll_outside {fill : Byte} (a c : Nat) (bs : List Byte) (m : Memory) (h : c < a ∨ a + bs.length ≤ c) :
    Memory.byte fill (Memory.writeAll fill m a bs) c = Memory.byte fill m c := by
  induction bs generalizing m a with
  | nil => rfl
  | cons b bs ih =>
    simp only [List.length_cons] at h
    rw [Memory.writeAll, ih (a + 1) _ (by omega), byte_write_ne b (by omega)]

/-- A read of a span just written gives the bytes written. -/
theorem bytes_writeAll {fill : Byte} (a : Nat) (bs : List Byte) {m : Memory} (h : Memory.wf fill m = true) :
    Memory.bytes fill (Memory.writeAll fill m a bs) a bs.length = bs := by
  induction bs generalizing m a with
  | nil => rfl
  | cons b bs ih =>
    rw [Memory.writeAll, List.length_cons, Memory.bytes, ih (a + 1) (wf_write a b h),
      byte_writeAll_outside (a + 1) a bs _ (by omega), byte_write_self a b h]

namespace State

/-- A write of the engine keeps host memory's form. -/
theorem wf_hostWrite {s : State} (a : Nat) (bs : List Byte) (h : Memory.wf Config.hostFill s.mem = true) :
    Memory.wf Config.hostFill (s.hostWrite a bs).mem = true := by
  unfold hostWrite
  split
  · exact wf_writeAll a bs h
  · exact h

/-- A write of the engine leaves every byte outside its span alone. -/
theorem byte_hostWrite_outside (s : State) (a c : Nat) (bs : List Byte) (h : c < a ∨ a + bs.length ≤ c) :
    Memory.byte Config.hostFill (s.hostWrite a bs).mem c = Memory.byte Config.hostFill s.mem c := by
  unfold hostWrite
  split
  · exact byte_writeAll_outside a c bs s.mem h
  · rfl

/-- What the bus brings keeps host memory's form. -/
theorem wf_onBus {s : State} (b : Bus) (h : Memory.wf Config.hostFill s.mem = true) :
    Memory.wf Config.hostFill (s.onBus b).mem = true := wf_writeCells _ h

end State

end Sys2Proof.Machine
end

