-- ==== Sys2Proof/Laws/Effects.lean ====
section
/-! SUPPORT. The parts of State that an operation can touch, and the relations between states that respect a list of parts. -/

namespace Sys2Proof.Machine

/-- The parts an operation can touch: the desk unit's notice fields, its other fields, its place; host memory in the desk and in
an answer's buffer; the other blocks, and apart from the rest of its block each of: the segment table, a lane's
ONLINE state, the hold list, the release and settled marks; a change of many blocks at once (FORMAT, a start-up);
the modules' bytes; the registers; what the bus brings; power. The staging pool changes only so that it stays legal. -/
inductive Part where
  | notes | book | place | desk | buf | exec | feed | pool | recon | eds | coder | cat | dir | lanes | online | ret | holds | scrub
  | jnl | marks | format | media | regs | bus | power
deriving DecidableEq, Repr

/-- A desk with the notice fields of another. -/
def Desk.withNotes (d e : Desk) : Desk :=
  { d with counters := e.counters, gateOpen := e.gateOpen, kept := e.kept, messages := e.messages }

/-- A relation holds across every primitive update of a part. -/
def Respects (R : State → State → Prop) : Part → Prop
  | .notes => ∀ (s : State) f, (∀ d : Desk, f d = d.withNotes (f d)) → R s (s.onDesk f)
  | .book => ∀ (s : State) f, (∀ d : Desk, (f d).base = d.base ∧ (f d).period = d.period ∧ (f d).place = d.place ∧
      (f d).counters = d.counters ∧ (f d).messages = d.messages) → R s (s.onDesk f)
  | .place => ∀ (s : State) f, (∀ d : Desk, (f d).base = d.base ∧ (f d).period = d.period ∧
      (f d).counters = d.counters) → R s (s.onDesk f)
  | .desk => ∀ (s : State) a bs, s.desk.place ≤ a → a + bs.length ≤ s.desk.place + 8320 → R s (s.hostWrite a bs)
  | .buf => ∀ (s : State) a bs, R s (s.hostWrite a bs)
  | .exec => ∀ (s : State) f, R s (s.onExec f)
  | .feed => ∀ (s : State) f, R s (s.onFeed f)
  | .pool => ∀ (s : State) f, (s.pool.legal = true → (f s.pool).legal = true) → R s (s.onPool f)
  | .recon => ∀ (s : State) f, R s (s.onRecon f)
  | .eds => ∀ (s : State) f, R s (s.onEds f)
  | .coder => ∀ (s : State) f, R s (s.onCoder f)
  | .cat => ∀ (s : State) f, (∀ c : Catalog, (f c).usable = c.usable) → R s (s.onCat f)
  | .dir => ∀ (s : State) f, (∀ c : Catalog, (f c).usable = c.usable ∧ (f c).table = c.table) → R s (s.onCat f)
  | .lanes => ∀ (s : State) f, (∀ (a : Lanes) l, (bget (f a).lane l).online = (bget a.lane l).online) → R s (s.onLanes f)
  | .online => ∀ (s : State) f, R s (s.onLanes f)
  | .ret => ∀ (s : State) f, (∀ r : Retention, (f r).holds = r.holds) → R s (s.onRet f)
  | .holds => ∀ (s : State) f, R s (s.onRet f)
  | .scrub => ∀ (s : State) f, R s (s.onScrub f)
  | .jnl => ∀ (s : State) f, (∀ j : Journal, (f j).release = j.release ∧ (f j).settled = j.settled) → R s (s.onJnl f)
  | .marks => ∀ (s : State) f, R s (s.onJnl f)
  | .format => ∀ (s t : State), t.pending = s.pending → t.powered = s.powered → t.desk.base = s.desk.base →
      t.desk.period = s.desk.period → t.desk.place = s.desk.place → t.media = s.media → t.mem = s.mem →
      (s.pool.legal = true → t.pool.legal = true) → R s t
  | .media => ∀ (s : State) f, (∀ m, Memory.wf Config.mediaFill m = true → Memory.wf Config.mediaFill (f m) = true) →
      R s (s.onMedia f)
  | .regs => ∀ (s : State) f, R s (s.onDesk f)
  | .bus => ∀ (s : State) b, R s (s.onBus b)
  | .power => ∀ (s : State) b, R s { s with powered := b }

/-- A relation that chains and that respects a list of parts. -/
structure Obeys (R : State → State → Prop) (ps : List Part) : Prop where
  trans : ∀ {a b c}, R a b → R b c → R a c
  ok : ∀ p ∈ ps, Respects R p

theorem Obeys.mono {R : State → State → Prop} {ps qs : List Part} (o : Obeys R ps)
    (h : (qs.all fun p => ps.contains p) = true) : Obeys R qs :=
  ⟨o.trans, fun p hp => o.ok p (by
    have := List.all_eq_true.mp h p hp
    simpa using this)⟩

@[simp] theorem leBytes_length (n v : Nat) : (leBytes n v).length = n := by
  induction n generalizing v with
  | zero => rfl
  | succ n ih => simp [leBytes, ih]

@[simp] theorem unsignedField_length (n v : Nat) : (unsignedField n v).length = n := by simp [unsignedField]

theorem answerBytes_length (st : Status) (vs : List Byte) : (answerBytes st vs).length = 40 := by
  simp [answerBytes]

namespace State

variable {R : State → State → Prop} {s0 s : State}

theorem desk_notes_does (o : Obeys R [.notes]) (f : Desk → Desk)
    (hf : ∀ d : Desk, f d = d.withNotes (f d)) (h : R s0 s) : R s0 (s.onDesk f) := o.trans h (o.ok .notes (by simp) s f hf)

theorem desk_book_does (o : Obeys R [.book]) (f : Desk → Desk)
    (hf : ∀ d : Desk, (f d).base = d.base ∧ (f d).period = d.period ∧ (f d).place = d.place ∧
      (f d).counters = d.counters ∧ (f d).messages = d.messages) (h : R s0 s) : R s0 (s.onDesk f) :=
  o.trans h (o.ok .book (by simp) s f hf)

theorem desk_place_does (o : Obeys R [.place]) (f : Desk → Desk)
    (hf : ∀ d : Desk, (f d).base = d.base ∧ (f d).period = d.period ∧ (f d).counters = d.counters) (h : R s0 s) :
    R s0 (s.onDesk f) := o.trans h (o.ok .place (by simp) s f hf)

theorem write_desk_does (o : Obeys R [.desk]) (a : Nat) (bs : List Byte) (h1 : s.desk.place ≤ a)
    (h2 : a + bs.length ≤ s.desk.place + 8320) (h : R s0 s) : R s0 (s.hostWrite a bs) :=
  o.trans h (o.ok .desk (by simp) s a bs h1 h2)

theorem write_buf_does (o : Obeys R [.buf]) (a : Nat) (bs : List Byte) (h : R s0 s) : R s0 (s.hostWrite a bs) :=
  o.trans h (o.ok .buf (by simp) s a bs)

theorem onExec_does (o : Obeys R [.exec]) (f : Exec → Exec) (h : R s0 s) : R s0 (s.onExec f) :=
  o.trans h (o.ok .exec (by simp) s f)
theorem onFeed_does (o : Obeys R [.feed]) (f : Feed → Feed) (h : R s0 s) : R s0 (s.onFeed f) :=
  o.trans h (o.ok .feed (by simp) s f)
theorem onPool_does (o : Obeys R [.pool]) (f : Pool → Pool) (hf : s.pool.legal = true → (f s.pool).legal = true) (h : R s0 s) :
    R s0 (s.onPool f) := o.trans h (o.ok .pool (by simp) s f hf)
theorem onRecon_does (o : Obeys R [.recon]) (f : Recon → Recon) (h : R s0 s) : R s0 (s.onRecon f) :=
  o.trans h (o.ok .recon (by simp) s f)
theorem onEds_does (o : Obeys R [.eds]) (f : Editions → Editions) (h : R s0 s) : R s0 (s.onEds f) :=
  o.trans h (o.ok .eds (by simp) s f)
theorem onCoder_does (o : Obeys R [.coder]) (f : Coder → Coder) (h : R s0 s) : R s0 (s.onCoder f) :=
  o.trans h (o.ok .coder (by simp) s f)
theorem onCat_does (o : Obeys R [.cat]) (f : Catalog → Catalog) (hf : ∀ c : Catalog, (f c).usable = c.usable)
    (h : R s0 s) : R s0 (s.onCat f) := o.trans h (o.ok .cat (by simp) s f hf)
theorem dir_does (o : Obeys R [.dir]) (f : Catalog → Catalog)
    (hf : ∀ c : Catalog, (f c).usable = c.usable ∧ (f c).table = c.table) (h : R s0 s) : R s0 (s.onCat f) :=
  o.trans h (o.ok .dir (by simp) s f hf)
theorem onLanes_does (o : Obeys R [.lanes]) (f : Lanes → Lanes)
    (hf : ∀ (a : Lanes) l, (bget (f a).lane l).online = (bget a.lane l).online) (h : R s0 s) : R s0 (s.onLanes f) :=
  o.trans h (o.ok .lanes (by simp) s f hf)
theorem onRet_does (o : Obeys R [.ret]) (f : Retention → Retention) (hf : ∀ r : Retention, (f r).holds = r.holds)
    (h : R s0 s) : R s0 (s.onRet f) := o.trans h (o.ok .ret (by simp) s f hf)
theorem holds_does (o : Obeys R [.holds]) (f : Retention → Retention) (h : R s0 s) : R s0 (s.onRet f) :=
  o.trans h (o.ok .holds (by simp) s f)
theorem onScrub_does (o : Obeys R [.scrub]) (f : Scrub → Scrub) (h : R s0 s) : R s0 (s.onScrub f) :=
  o.trans h (o.ok .scrub (by simp) s f)
theorem onJnl_does (o : Obeys R [.jnl]) (f : Journal → Journal)
    (hf : ∀ j : Journal, (f j).release = j.release ∧ (f j).settled = j.settled) (h : R s0 s) : R s0 (s.onJnl f) :=
  o.trans h (o.ok .jnl (by simp) s f hf)
theorem marks_does (o : Obeys R [.marks]) (f : Journal → Journal) (h : R s0 s) : R s0 (s.onJnl f) :=
  o.trans h (o.ok .marks (by simp) s f)
theorem onLane_does (o : Obeys R [.lanes]) (l : LaneNo) (f : Lane → Lane) (hf : ∀ a : Lane, (f a).online = a.online)
    (h : R s0 s) : R s0 (s.onLane l f) :=
  onLanes_does o _ (fun a i => by
    by_cases e : l = i
    · subst e; simp [hf]
    · simp [bget_bmod_ne _ _ _ _ e]) h
theorem online_does (o : Obeys R [.online]) (l : LaneNo) (f : Lane → Lane) (h : R s0 s) : R s0 (s.onLane l f) :=
  o.trans h (o.ok .online (by simp) s _)
theorem onChan_does (o : Obeys R [.feed]) (c : ChanNo) (f : Channel → Channel) (h : R s0 s) : R s0 (s.onChan c f) :=
  onFeed_does o _ h
theorem setBinding_does (o : Obeys R [.feed]) (c : ChanNo) (b : Option Binding) (h : R s0 s) :
    R s0 (s.setBinding c b) := onFeed_does o _ h
theorem onSlot_does (o : Obeys R [.eds]) (i : SlotNo) (f : EditionSlot → EditionSlot) (h : R s0 s) :
    R s0 (s.onSlot i f) := onEds_does o _ h

theorem media_does (o : Obeys R [.media]) (f : Memory → Memory)
    (hf : ∀ m, Memory.wf Config.mediaFill m = true → Memory.wf Config.mediaFill (f m) = true) (h : R s0 s) :
    R s0 (s.onMedia f) := o.trans h (o.ok .media (by simp) s f hf)
theorem regs_does (o : Obeys R [.regs]) (f : Desk → Desk) (h : R s0 s) : R s0 (s.onDesk f) :=
  o.trans h (o.ok .regs (by simp) s f)
theorem onBus_does (o : Obeys R [.bus]) (b : Bus) (h : R s0 s) : R s0 (s.onBus b) := o.trans h (o.ok .bus (by simp) s b)
theorem power_does (o : Obeys R [.power]) (b : Bool) (h : R s0 s) : R s0 { s with powered := b } :=
  o.trans h (o.ok .power (by simp) s b)

theorem engine_does (o : Obeys R [.format]) (e : EngineState) (h : R s0 s) : R s0 { s with engine := e } :=
  o.trans h (o.ok .format (by simp) s _ rfl rfl rfl rfl rfl rfl rfl id)
theorem recovering_does (o : Obeys R [.format]) (e : EngineState) (r : Recovery) (h : R s0 s) :
    R s0 { s with engine := e, recovery := r } := o.trans h (o.ok .format (by simp) s _ rfl rfl rfl rfl rfl rfl rfl id)
theorem lanes_set_does (o : Obeys R [.format]) (v : Lanes) (h : R s0 s) : R s0 { s with lanes := v } :=
  o.trans h (o.ok .format (by simp) s _ rfl rfl rfl rfl rfl rfl rfl id)

/-- Across a register write or a microsecond: what it does to a powered engine keeps the relation. -/
theorem attended_does (f : State → State) (hf : R s0 s → R s0 (f s)) (h : R s0 s) : R s0 (s.attended f) := by
  unfold attended
  split
  · exact hf h
  · exact h

/-- Across a command: what it does to an engine that acts keeps the relation. -/
theorem commanded_does (f : State → State) (hf : R s0 s → R s0 (f s)) (h : R s0 s) : R s0 (s.commanded f) := by
  unfold commanded
  split
  · exact hf h
  · exact h

/-- Across a lane's command: what it does to an engine whose lanes act keeps the relation. -/
theorem laneEvent_does (f : State → State) (hf : R s0 s → R s0 (f s)) (h : R s0 s) : R s0 (s.laneEvent f) := by
  unfold laneEvent
  split
  · exact hf h
  · exact h

/-- Across a fold: every turn keeps the relation to the first state. -/
theorem foldl_does {α : Type} (f : State → α → State) (hf : ∀ t a, R s0 t → R s0 (f t a)) (l : List α) (h : R s0 s) :
    R s0 (l.foldl f s) := by
  induction l generalizing s with
  | nil => exact h
  | cons a l ih => exact ih (hf s a h)

end State

end Sys2Proof.Machine
end

