-- ==== Sys2Proof/Laws/Does.lean ====
section
/-! SUPPORT. What each operation can do, said once: for every operation that changes the state, the list of the parts it can
touch. Any relation between states that respects those parts holds across the operation (`Obeys`), so the frame of an operation
for a field is one citation. -/

set_option linter.unusedTactic false
set_option linter.unreachableTactic false

namespace Sys2Proof.Machine

/-- No grant, completion or end of a window changes whether a lane is ONLINE. -/
theorem grant_online (share : Nat) (l : Lane) : (Lane.grant share l).online = l.online := by
  unfold Lane.grant Lane.windowGrant Lane.latch Lane.grantBack Lane.grantFore
  repeat' split
  all_goals rfl

theorem complete_online (ok : Bool) (l : Lane) : (Lane.complete ok l).online = l.online := by
  unfold Lane.complete
  split <;> rfl

theorem endWindow_online (l : Lane) : (Lane.endWindow l).online = l.online := by
  unfold Lane.endWindow
  split <;> rfl

namespace State

variable {R : State → State → Prop} {s0 : State}

theorem sendMessage_does (oR : Obeys R [.notes]) {s : State} (hR : R s0 s) :
    R s0 (State.sendMessage s) := by
  unfold State.sendMessage
  try dsimp only
  repeat' first
    | assumption
    | exact oR.mono rfl
    | with_reducible apply desk_notes_does
    | exact fun _ => rfl
    | exact fun _ => ⟨rfl, rfl⟩
    | exact fun _ => rfl
    | exact fun _ _ => rfl
    | intro _
    | split

theorem writeCounter_does (oR : Obeys R [.desk]) (c : Counter) {s : State} (hR : R s0 s) :
    R s0 (State.writeCounter c s) := by
  unfold State.writeCounter
  try dsimp only
  repeat' first
    | assumption
    | exact oR.mono rfl
    | with_reducible apply write_desk_does
    | fail
    | exact fun _ => ⟨rfl, rfl⟩
    | exact fun _ => rfl
    | exact fun _ _ => rfl
    | intro _
    | split
  all_goals simp [State.counterAt]
  all_goals omega

theorem notice_does (oR : Obeys R [.notes, .desk]) (c : Counter) {s : State} (hR : R s0 s) :
    R s0 (State.notice c s) := by
  unfold State.notice
  try dsimp only
  repeat' first
    | assumption
    | exact oR.mono rfl
    | with_reducible apply sendMessage_does
    | with_reducible apply writeCounter_does
    | with_reducible apply desk_notes_does
    | exact fun _ => rfl
    | exact fun _ => ⟨rfl, rfl⟩
    | exact fun _ => rfl
    | exact fun _ _ => rfl
    | intro _
    | split

theorem openGate_does (oR : Obeys R [.notes]) {s : State} (hR : R s0 s) :
    R s0 (State.openGate s) := by
  unfold State.openGate
  try dsimp only
  repeat' first
    | assumption
    | exact oR.mono rfl
    | with_reducible apply sendMessage_does
    | with_reducible apply desk_notes_does
    | exact fun _ => rfl
    | exact fun _ => ⟨rfl, rfl⟩
    | exact fun _ => rfl
    | exact fun _ _ => rfl
    | intro _
    | split

theorem judgeWatch_does (oR : Obeys R [.notes, .desk, .dir]) {s : State} (hR : R s0 s) :
    R s0 (State.judgeWatch s) := by
  unfold State.judgeWatch
  try dsimp only
  repeat' first
    | assumption
    | exact oR.mono rfl
    | with_reducible apply notice_does
    | with_reducible apply dir_does
    | fail
    | exact fun _ => ⟨rfl, rfl⟩
    | exact fun _ => rfl
    | exact fun _ _ => rfl
    | intro _
    | split

theorem setSide_does (oR : Obeys R [.dir]) {s : State} (hR : R s0 s) :
    R s0 (State.setSide s) := by
  unfold State.setSide
  try dsimp only
  repeat' first
    | assumption
    | exact oR.mono rfl
    | with_reducible apply dir_does
    | fail
    | exact fun _ => ⟨rfl, rfl⟩
    | exact fun _ => rfl
    | exact fun _ _ => rfl
    | intro _
    | split

theorem takeWatch_does (oR : Obeys R [.dir]) (level : Nat) (edge : Byte) {s : State} (hR : R s0 s) :
    R s0 (State.takeWatch level edge s) := by
  unfold State.takeWatch
  try dsimp only
  repeat' first
    | assumption
    | exact oR.mono rfl
    | with_reducible apply setSide_does
    | with_reducible apply dir_does
    | fail
    | exact fun _ => ⟨rfl, rfl⟩
    | exact fun _ => rfl
    | exact fun _ _ => rfl
    | intro _
    | split

theorem setMark_does (oR : Obeys R [.desk]) (i : SlipNo) (m : Byte) {s : State} (hR : R s0 s) :
    R s0 (State.setMark i m s) := by
  unfold State.setMark
  try dsimp only
  repeat' first
    | assumption
    | exact oR.mono rfl
    | with_reducible apply write_desk_does
    | fail
    | exact fun _ => ⟨rfl, rfl⟩
    | exact fun _ => rfl
    | exact fun _ _ => rfl
    | intro _
    | split
  all_goals simp [State.slipAt]
  all_goals omega

theorem setMap_does (oR : Obeys R [.book, .desk]) (i : SlipNo) (b : Byte) {s : State} (hR : R s0 s) :
    R s0 (State.setMap i b s) := by
  unfold State.setMap
  try dsimp only
  repeat' first
    | assumption
    | exact oR.mono rfl
    | with_reducible apply desk_book_does
    | with_reducible apply write_desk_does
    | (intro d; exact ⟨rfl, rfl, rfl, rfl, rfl⟩)
    | exact fun _ => ⟨rfl, rfl⟩
    | exact fun _ => rfl
    | exact fun _ _ => rfl
    | intro _
    | split
  all_goals simp [State.mapAt]
  all_goals omega

theorem setHeld_does (oR : Obeys R [.book]) (i : SlipNo) (h : Holding) {s : State} (hR : R s0 s) :
    R s0 (State.setHeld i h s) := by
  unfold State.setHeld
  try dsimp only
  repeat' first
    | assumption
    | exact oR.mono rfl
    | with_reducible apply desk_book_does
    | (intro d; exact ⟨rfl, rfl, rfl, rfl, rfl⟩)
    | exact fun _ => ⟨rfl, rfl⟩
    | exact fun _ => rfl
    | exact fun _ _ => rfl
    | intro _
    | split

theorem releaseSlip_does (oR : Obeys R [.book]) (i : SlipNo) {s : State} (hR : R s0 s) :
    R s0 (State.releaseSlip i s) := by
  unfold State.releaseSlip
  try dsimp only
  repeat' first
    | assumption
    | exact oR.mono rfl
    | with_reducible apply setHeld_does
    | fail
    | exact fun _ => ⟨rfl, rfl⟩
    | exact fun _ => rfl
    | exact fun _ _ => rfl
    | intro _
    | split

theorem writeAnswer_does (oR : Obeys R [.notes, .book, .desk]) (i : SlipNo) (st : Status) (values : List Byte) {s : State} (hR : R s0 s) :
    R s0 (State.writeAnswer i st values s) := by
  unfold State.writeAnswer
  try dsimp only
  repeat' first
    | assumption
    | exact oR.mono rfl
    | with_reducible apply notice_does
    | with_reducible apply setMark_does
    | with_reducible apply setMap_does
    | with_reducible apply releaseSlip_does
    | with_reducible apply write_desk_does
    | fail
    | exact fun _ => ⟨rfl, rfl⟩
    | exact fun _ => rfl
    | exact fun _ _ => rfl
    | intro _
    | split
  all_goals simp [State.answerAt, State.slipAt, answerBytes_length]
  all_goals omega

theorem answer_does (oR : Obeys R [.notes, .book, .desk]) (slip : Option SlipNo) (st : Status) (values : List Byte) {s : State} (hR : R s0 s) :
    R s0 (State.answer slip st values s) := by
  unfold State.answer
  try dsimp only
  repeat' first
    | assumption
    | exact oR.mono rfl
    | with_reducible apply releaseSlip_does
    | with_reducible apply writeAnswer_does
    | fail
    | exact fun _ => ⟨rfl, rfl⟩
    | exact fun _ => rfl
    | exact fun _ _ => rfl
    | intro _
    | split

theorem noAnswer_does (oR : Obeys R [.book]) (slip : Option SlipNo) {s : State} (hR : R s0 s) :
    R s0 (State.noAnswer slip s) := by
  unfold State.noAnswer
  try dsimp only
  repeat' first
    | assumption
    | exact oR.mono rfl
    | with_reducible apply releaseSlip_does
    | fail
    | exact fun _ => ⟨rfl, rfl⟩
    | exact fun _ => rfl
    | exact fun _ _ => rfl
    | intro _
    | split

theorem takeEntry_does (oR : Obeys R [.notes, .desk, .jnl]) (second : Bool) (b : EntryBody) {s : State} (hR : R s0 s) :
    R s0 (State.takeEntry second b s) := by
  unfold State.takeEntry
  try dsimp only
  repeat' first
    | assumption
    | exact oR.mono rfl
    | with_reducible apply notice_does
    | with_reducible apply onJnl_does
    | fail
    | exact fun _ => ⟨rfl, rfl⟩
    | exact fun _ => rfl
    | exact fun _ _ => rfl
    | intro _
    | split

theorem takeEntries_does (oR : Obeys R [.notes, .desk, .jnl]) (es : List EntryBody) : ∀ (b : Bool) {s : State}, R s0 s →
    R s0 (State.takeEntries b es s) := by
  induction es with
  | nil => exact fun _ _ h => h
  | cons e es ih => exact fun b s h => ih true (takeEntry_does oR b e h)

theorem formRun_does (oR : Obeys R [.lanes, .jnl]) {s : State} (hR : R s0 s) :
    R s0 (State.formRun s) := by
  unfold State.formRun
  try dsimp only
  repeat' first
    | assumption
    | exact oR.mono rfl
    | with_reducible apply onJnl_does
    | with_reducible apply onLane_does
    | fail
    | exact fun _ => ⟨rfl, rfl⟩
    | exact fun _ => rfl
    | exact fun _ _ => rfl
    | intro _
    | split

theorem takeSubmission_does (oR : Obeys R [.notes, .desk, .lanes, .jnl]) (entries : List EntryBody) {s : State} (hR : R s0 s) :
    R s0 (State.takeSubmission entries s) := by
  unfold State.takeSubmission
  try dsimp only
  repeat' first
    | assumption
    | exact oR.mono rfl
    | with_reducible apply takeEntries_does
    | with_reducible apply formRun_does
    | fail
    | exact fun _ => ⟨rfl, rfl⟩
    | exact fun _ => rfl
    | exact fun _ _ => rfl
    | intro _
    | split

theorem submit_does (oR : Obeys R [.notes, .desk, .lanes, .jnl]) (sub : Submission) {s : State} (hR : R s0 s) :
    R s0 (State.submit sub s).1 := by
  unfold State.submit
  try dsimp only
  repeat' first
    | assumption
    | exact oR.mono rfl
    | with_reducible apply takeSubmission_does
    | with_reducible apply onJnl_does
    | fail
    | exact fun _ => ⟨rfl, rfl⟩
    | exact fun _ => rfl
    | exact fun _ _ => rfl
    | intro _
    | split

theorem post_does (oR : Obeys R [.notes, .desk, .lanes, .jnl]) (who : Producer) (entries : List EntryBody) {s : State} (hR : R s0 s) :
    R s0 (State.post who entries s) := by
  unfold State.post
  try dsimp only
  repeat' first
    | assumption
    | exact oR.mono rfl
    | with_reducible apply submit_does
    | fail
    | exact fun _ => ⟨rfl, rfl⟩
    | exact fun _ => rfl
    | exact fun _ _ => rfl
    | intro _
    | split

theorem log_does (oR : Obeys R [.notes, .desk, .lanes, .jnl]) (k : EntryKind) (sub : Subject) (v1 : Int) (v2 v3 : Nat) {s : State} (hR : R s0 s) :
    R s0 (State.log k sub v1 v2 v3 s) := by
  unfold State.log
  try dsimp only
  repeat' first
    | assumption
    | exact oR.mono rfl
    | with_reducible apply post_does
    | fail
    | exact fun _ => ⟨rfl, rfl⟩
    | exact fun _ => rfl
    | exact fun _ _ => rfl
    | intro _
    | split

theorem submitAll_does (oR : Obeys R [.notes, .desk, .lanes, .jnl]) (who : Producer) (acts : List OnTake) (es : List EntryBody) :
    ∀ {s : State}, R s0 s → R s0 (State.submitAll who acts es s).1 := by
  induction es with
  | nil => exact fun h => h
  | cons e es ih =>
    intro s h
    cases es with
    | nil => exact submit_does (oR.mono rfl) _ h
    | cons e' es => exact ih (post_does (oR.mono rfl) who [e] h)

theorem settleRun_does (oR : Obeys R [.marks]) {s : State} (hR : R s0 s) :
    R s0 (State.settleRun s) := by
  unfold State.settleRun
  try dsimp only
  repeat' first
    | assumption
    | exact oR.mono rfl
    | with_reducible apply marks_does
    | fail
    | exact fun _ => ⟨rfl, rfl⟩
    | exact fun _ => rfl
    | exact fun _ _ => rfl
    | intro _
    | split

theorem failRun_does (oR : Obeys R [.jnl]) {s : State} (hR : R s0 s) :
    R s0 (State.failRun s) := by
  unfold State.failRun
  try dsimp only
  repeat' first
    | assumption
    | exact oR.mono rfl
    | with_reducible apply onJnl_does
    | fail
    | exact fun _ => ⟨rfl, rfl⟩
    | exact fun _ => rfl
    | exact fun _ _ => rfl
    | intro _
    | split

theorem releaseTo_does (oR : Obeys R [.marks]) (q : Nat) {s : State} (hR : R s0 s) :
    R s0 (State.releaseTo q s) := by
  unfold State.releaseTo
  try dsimp only
  repeat' first
    | assumption
    | exact oR.mono rfl
    | with_reducible apply marks_does
    | fail
    | exact fun _ => ⟨rfl, rfl⟩
    | exact fun _ => rfl
    | exact fun _ _ => rfl
    | intro _
    | split

theorem dropEdition_does (oR : Obeys R [.notes, .desk, .eds, .lanes, .jnl]) (i : SlotNo) {s : State} (hR : R s0 s) :
    R s0 (State.dropEdition i s) := by
  unfold State.dropEdition
  try dsimp only
  repeat' first
    | assumption
    | exact oR.mono rfl
    | with_reducible apply log_does
    | with_reducible apply onSlot_does
    | fail
    | exact fun _ => ⟨rfl, rfl⟩
    | exact fun _ => rfl
    | exact fun _ _ => rfl
    | intro _
    | split

theorem retireCurrent_does (oR : Obeys R [.notes, .desk, .eds, .lanes, .jnl]) (i : SlotNo) {s : State} (hR : R s0 s) :
    R s0 (State.retireCurrent i s) := by
  unfold State.retireCurrent
  try dsimp only
  repeat' first
    | assumption
    | exact oR.mono rfl
    | with_reducible apply dropEdition_does
    | with_reducible apply onSlot_does
    | fail
    | exact fun _ => ⟨rfl, rfl⟩
    | exact fun _ => rfl
    | exact fun _ _ => rfl
    | intro _
    | split

theorem install_does (oR : Obeys R [.notes, .desk, .eds, .lanes, .jnl]) (ed : Edition) (src : CutSource) {s : State} (hR : R s0 s) :
    R s0 (State.install ed src s).1 := by
  unfold State.install
  try dsimp only
  repeat' first
    | assumption
    | exact oR.mono rfl
    | with_reducible apply notice_does
    | with_reducible apply log_does
    | with_reducible apply retireCurrent_does
    | with_reducible apply onEds_does
    | with_reducible apply onSlot_does
    | fail
    | exact fun _ => ⟨rfl, rfl⟩
    | exact fun _ => rfl
    | exact fun _ _ => rfl
    | intro _
    | split

theorem cut_does (oR : Obeys R [.notes, .desk, .eds, .lanes, .jnl]) (src : CutSource) {s : State} (hR : R s0 s) :
    R s0 (State.cut src s).1 := by
  unfold State.cut
  try dsimp only
  repeat' first
    | assumption
    | exact oR.mono rfl
    | with_reducible apply install_does
    | fail
    | exact fun _ => ⟨rfl, rfl⟩
    | exact fun _ => rfl
    | exact fun _ _ => rfl
    | intro _
    | split

theorem bindEdition_does (oR : Obeys R [.eds]) (ref : Option EditionRef) {s : State} (hR : R s0 s) :
    R s0 (State.bindEdition ref s) := by
  unfold State.bindEdition
  try dsimp only
  repeat' first
    | assumption
    | exact oR.mono rfl
    | with_reducible apply onSlot_does
    | fail
    | exact fun _ => ⟨rfl, rfl⟩
    | exact fun _ => rfl
    | exact fun _ _ => rfl
    | intro _
    | split

theorem unbindEdition_does (oR : Obeys R [.notes, .desk, .eds, .lanes, .jnl]) (ref : Option EditionRef) {s : State} (hR : R s0 s) :
    R s0 (State.unbindEdition ref s) := by
  unfold State.unbindEdition
  try dsimp only
  repeat' first
    | assumption
    | exact oR.mono rfl
    | with_reducible apply dropEdition_does
    | with_reducible apply onSlot_does
    | fail
    | exact fun _ => ⟨rfl, rfl⟩
    | exact fun _ => rfl
    | exact fun _ _ => rfl
    | intro _
    | split

theorem setExtent_does (oR : Obeys R [.cat]) (n : Nat) (e : Extent) {s : State} (hR : R s0 s) :
    R s0 (State.setExtent n e s) := by
  unfold State.setExtent
  try dsimp only
  repeat' first
    | assumption
    | exact oR.mono rfl
    | with_reducible apply onCat_does
    | fail
    | exact fun _ => ⟨rfl, rfl⟩
    | exact fun _ => rfl
    | exact fun _ _ => rfl
    | intro _
    | split

theorem onExtent_does (oR : Obeys R [.cat]) (n : Nat) (f : Extent → Extent) {s : State} (hR : R s0 s) :
    R s0 (State.onExtent n f s) := by
  unfold State.onExtent
  try dsimp only
  repeat' first
    | assumption
    | exact oR.mono rfl
    | with_reducible apply setExtent_does
    | fail
    | exact fun _ => ⟨rfl, rfl⟩
    | exact fun _ => rfl
    | exact fun _ _ => rfl
    | intro _
    | split

theorem setContent_does (oR : Obeys R [.cat]) (n : Nat) (c : Content) {s : State} (hR : R s0 s) :
    R s0 (State.setContent n c s) := by
  unfold State.setContent
  try dsimp only
  repeat' first
    | assumption
    | exact oR.mono rfl
    | with_reducible apply onExtent_does
    | fail
    | exact fun _ => ⟨rfl, rfl⟩
    | exact fun _ => rfl
    | exact fun _ _ => rfl
    | intro _
    | split

theorem onSegment_does (oR : Obeys R [.cat]) (n : Nat) (f : Segment → Segment) {s : State} (hR : R s0 s) :
    R s0 (State.onSegment n f s) := by
  unfold State.onSegment
  try dsimp only
  repeat' first
    | assumption
    | exact oR.mono rfl
    | with_reducible apply setContent_does
    | fail
    | exact fun _ => ⟨rfl, rfl⟩
    | exact fun _ => rfl
    | exact fun _ _ => rfl
    | intro _
    | split

theorem markFault_does (oR : Obeys R [.cat]) (n : Nat) {s : State} (hR : R s0 s) :
    R s0 (State.markFault n s) := by
  unfold State.markFault
  try dsimp only
  repeat' first
    | assumption
    | exact oR.mono rfl
    | with_reducible apply onExtent_does
    | fail
    | exact fun _ => ⟨rfl, rfl⟩
    | exact fun _ => rfl
    | exact fun _ _ => rfl
    | intro _
    | split

theorem setDir_does (oR : Obeys R [.dir]) (k : StreamKey) (d : DirEntry) {s : State} (hR : R s0 s) :
    R s0 (State.setDir k d s) := by
  unfold State.setDir
  try dsimp only
  repeat' first
    | assumption
    | exact oR.mono rfl
    | with_reducible apply dir_does
    | fail
    | exact fun _ => ⟨rfl, rfl⟩
    | exact fun _ => rfl
    | exact fun _ _ => rfl
    | intro _
    | split

theorem onDir_does (oR : Obeys R [.dir]) (k : StreamKey) (f : DirEntry → DirEntry) {s : State} (hR : R s0 s) :
    R s0 (State.onDir k f s) := by
  unfold State.onDir
  try dsimp only
  repeat' first
    | assumption
    | exact oR.mono rfl
    | with_reducible apply setDir_does
    | fail
    | exact fun _ => ⟨rfl, rfl⟩
    | exact fun _ => rfl
    | exact fun _ _ => rfl
    | intro _
    | split

theorem dropFromDir_does (oR : Obeys R [.dir]) (k : StreamKey) {s : State} (hR : R s0 s) :
    R s0 (State.dropFromDir k s) := by
  unfold State.dropFromDir
  try dsimp only
  repeat' first
    | assumption
    | exact oR.mono rfl
    | with_reducible apply setDir_does
    | with_reducible apply dir_does
    | fail
    | exact fun _ => ⟨rfl, rfl⟩
    | exact fun _ => rfl
    | exact fun _ _ => rfl
    | intro _
    | split

theorem closeSegment_does (oR : Obeys R [.notes, .desk, .eds, .cat, .dir, .lanes, .jnl]) (cause : CloseCause) (n : Nat) {s : State} (hR : R s0 s) :
    R s0 (State.closeSegment cause n s) := by
  unfold State.closeSegment
  try dsimp only
  repeat' first
    | assumption
    | exact oR.mono rfl
    | with_reducible apply judgeWatch_does
    | with_reducible apply log_does
    | with_reducible apply unbindEdition_does
    | with_reducible apply setContent_does
    | with_reducible apply onDir_does
    | with_reducible apply dropFromDir_does
    | fail
    | exact fun _ => ⟨rfl, rfl⟩
    | exact fun _ => rfl
    | exact fun _ _ => rfl
    | intro _
    | split

theorem closeAll_does (oR : Obeys R [.notes, .desk, .eds, .cat, .dir, .lanes, .jnl]) (cause : CloseCause) (ns : List Nat) : ∀ {s : State}, R s0 s →
    R s0 (State.closeAll cause ns s) := by
  induction ns with
  | nil => exact fun h => h
  | cons n ns ih => exact fun h => ih (closeSegment_does oR cause n h)

theorem openLimit_does (oR : Obeys R [.notes, .desk, .eds, .cat, .dir, .lanes, .jnl]) {s : State} (hR : R s0 s) :
    R s0 (State.openLimit s) := by
  unfold State.openLimit
  try dsimp only
  repeat' first
    | assumption
    | exact oR.mono rfl
    | with_reducible apply closeSegment_does
    | fail
    | exact fun _ => ⟨rfl, rfl⟩
    | exact fun _ => rfl
    | exact fun _ _ => rfl
    | intro _
    | split

theorem openAt_does (oR : Obeys R [.notes, .desk, .eds, .cat, .dir]) (n : Nat) (k : StreamKey) {s : State} (hR : R s0 s) :
    R s0 (State.openAt n k s) := by
  unfold State.openAt
  try dsimp only
  repeat' first
    | assumption
    | exact oR.mono rfl
    | with_reducible apply judgeWatch_does
    | with_reducible apply bindEdition_does
    | with_reducible apply setContent_does
    | with_reducible apply setDir_does
    | fail
    | exact fun _ => ⟨rfl, rfl⟩
    | exact fun _ => rfl
    | exact fun _ _ => rfl
    | intro _
    | split

theorem refuseOpen_does (oR : Obeys R [.notes, .desk, .dir, .lanes, .jnl]) (k : StreamKey) {s : State} (hR : R s0 s) :
    R s0 (State.refuseOpen k s) := by
  unfold State.refuseOpen
  try dsimp only
  repeat' first
    | assumption
    | exact oR.mono rfl
    | with_reducible apply log_does
    | with_reducible apply setDir_does
    | fail
    | exact fun _ => ⟨rfl, rfl⟩
    | exact fun _ => rfl
    | exact fun _ _ => rfl
    | intro _
    | split

theorem reservePlace_does (oR : Obeys R [.cat]) (n len : Nat) {s : State} (hR : R s0 s) :
    R s0 (State.reservePlace n len s) := by
  unfold State.reservePlace
  try dsimp only
  repeat' first
    | assumption
    | exact oR.mono rfl
    | with_reducible apply onSegment_does
    | fail
    | exact fun _ => ⟨rfl, rfl⟩
    | exact fun _ => rfl
    | exact fun _ _ => rfl
    | intro _
    | split

theorem storeEnds_does (oR : Obeys R [.cat]) (n : Nat) {s : State} (hR : R s0 s) :
    R s0 (State.storeEnds n s) := by
  unfold State.storeEnds
  try dsimp only
  repeat' first
    | assumption
    | exact oR.mono rfl
    | with_reducible apply onSegment_does
    | fail
    | exact fun _ => ⟨rfl, rfl⟩
    | exact fun _ => rfl
    | exact fun _ _ => rfl
    | intro _
    | split

theorem appendBlock_does (oR : Obeys R [.cat, .dir]) (n recs : Nat) (first last : SeqNo) (bytes : List Byte) {s : State} (hR : R s0 s) :
    R s0 (State.appendBlock n recs first last bytes s) := by
  unfold State.appendBlock
  try dsimp only
  repeat' first
    | assumption
    | exact oR.mono rfl
    | with_reducible apply setContent_does
    | with_reducible apply onDir_does
    | fail
    | exact fun _ => ⟨rfl, rfl⟩
    | exact fun _ => rfl
    | exact fun _ _ => rfl
    | intro _
    | split

theorem storeError_does (oR : Obeys R [.notes, .desk, .eds, .cat, .dir, .lanes, .jnl]) (n offset recs : Nat) {s : State} (hR : R s0 s) :
    R s0 (State.storeError n offset recs s) := by
  unfold State.storeError
  try dsimp only
  repeat' first
    | assumption
    | exact oR.mono rfl
    | with_reducible apply log_does
    | with_reducible apply onSegment_does
    | with_reducible apply markFault_does
    | with_reducible apply closeSegment_does
    | fail
    | exact fun _ => ⟨rfl, rfl⟩
    | exact fun _ => rfl
    | exact fun _ _ => rfl
    | intro _
    | split

theorem eraseDone_does (oR : Obeys R [.notes, .desk, .eds, .cat, .dir, .lanes, .jnl]) (n : Nat) (ok : Bool) {s : State} (hR : R s0 s) :
    R s0 (State.eraseDone n ok s) := by
  unfold State.eraseDone
  try dsimp only
  repeat' first
    | assumption
    | exact oR.mono rfl
    | with_reducible apply judgeWatch_does
    | with_reducible apply log_does
    | with_reducible apply unbindEdition_does
    | with_reducible apply setExtent_does
    | with_reducible apply dropFromDir_does
    | fail
    | exact fun _ => ⟨rfl, rfl⟩
    | exact fun _ => rfl
    | exact fun _ _ => rfl
    | intro _
    | split

theorem eraseArrives_does (oR : Obeys R [.notes, .desk, .eds, .cat, .dir, .lanes, .jnl]) (n : Nat) (ok : Bool) {s : State} (hR : R s0 s) :
    R s0 (State.eraseArrives n ok s) := by
  unfold State.eraseArrives
  try dsimp only
  repeat' first
    | assumption
    | exact oR.mono rfl
    | with_reducible apply submit_does
    | with_reducible apply markFault_does
    | with_reducible apply eraseDone_does
    | fail
    | exact fun _ => ⟨rfl, rfl⟩
    | exact fun _ => rfl
    | exact fun _ _ => rfl
    | intro _
    | split

theorem setSwitch_does (oR : Obeys R [.recon]) (n : Nat) (c : SwitchCtx) {s : State} (hR : R s0 s) :
    R s0 (State.setSwitch n c s) := by
  unfold State.setSwitch
  try dsimp only
  repeat' first
    | assumption
    | exact oR.mono rfl
    | with_reducible apply onRecon_does
    | fail
    | exact fun _ => ⟨rfl, rfl⟩
    | exact fun _ => rfl
    | exact fun _ _ => rfl
    | intro _
    | split

theorem releaseSwitch_does (oR : Obeys R [.recon]) (n : Nat) {s : State} (hR : R s0 s) :
    R s0 (State.releaseSwitch n s) := by
  unfold State.releaseSwitch
  try dsimp only
  repeat' first
    | assumption
    | exact oR.mono rfl
    | with_reducible apply setSwitch_does
    | fail
    | exact fun _ => ⟨rfl, rfl⟩
    | exact fun _ => rfl
    | exact fun _ _ => rfl
    | intro _
    | split

theorem postEach_does (oR : Obeys R [.notes, .desk, .lanes, .jnl]) (who : Producer) (es : List EntryBody) : ∀ {s : State}, R s0 s →
    R s0 (State.postEach who es s) := by
  induction es with
  | nil => exact fun h => h
  | cons e es ih => exact fun h => ih (post_does oR who [e] h)

theorem abandonHorizon_does (oR : Obeys R [.notes, .desk, .recon, .lanes, .jnl]) (newDay : Nat) {s : State} (hR : R s0 s) :
    R s0 (State.abandonHorizon newDay s) := by
  unfold State.abandonHorizon
  try dsimp only
  repeat' first
    | assumption
    | exact oR.mono rfl
    | with_reducible apply postEach_does
    | with_reducible apply onRecon_does
    | fail
    | exact fun _ => ⟨rfl, rfl⟩
    | exact fun _ => rfl
    | exact fun _ _ => rfl
    | intro _
    | split

/-- Pages changed without their serials, or taken out, leave the pool legal. -/
theorem legal_onPages (f : List Page → List Page) (hf : ∀ ps, ((f ps).map Page.serial).Sublist (ps.map Page.serial)) (p : Pool)
    (h : p.legal = true) : Pool.legal { p with pages := f p.pages } = true := by
  have e := hf p.pages
  simp only [Pool.legal, Bool.and_eq_true, decide_eq_true_eq, List.all_eq_true] at h ⊢
  obtain ⟨⟨h1, h2⟩, h3⟩ := h
  refine ⟨⟨?_, fun q hq => ?_⟩, ?_⟩
  · exact List.pairwise_map.mp ((List.pairwise_map.mpr h1).sublist e)
  · obtain ⟨a, ha, hs⟩ := List.mem_map.mp (e.subset (List.mem_map.mpr ⟨q, hq, rfl⟩))
    exact hs ▸ h2 a ha
  · have := e.length_le
    simp only [List.length_map] at this
    omega

theorem onPages_does (oR : Obeys R [.pool]) (f : List Page → List Page)
    (hf : ∀ ps, ((f ps).map Page.serial).Sublist (ps.map Page.serial)) {s : State} (hR : R s0 s) :
    R s0 (State.onPages f s) := onPool_does oR _ (legal_onPages f hf s.pool) hR

/-- A change of pages one by one that keeps their serials. -/
theorem mapPages_does (oR : Obeys R [.pool]) (f : Page → Page) (hf : ∀ p, (f p).serial = p.serial) {s : State} (hR : R s0 s) :
    R s0 (State.onPages (fun ps => ps.map f) s) :=
  onPages_does oR _ (fun ps => by rw [List.map_map, show Page.serial ∘ f = Page.serial from funext hf]) hR

theorem onPage_does (oR : Obeys R [.pool]) (serial : Nat) (f : Page → Page) (hf : ∀ p, (f p).serial = p.serial) {s : State}
    (hR : R s0 s) : R s0 (State.onPage serial f s) :=
  mapPages_does oR _ (fun p => by split; exacts [hf p, rfl]) hR

theorem freePages_does (oR : Obeys R [.pool]) {s : State} (hR : R s0 s) : R s0 (State.freePages s) :=
  onPages_does oR _ (fun ps => (List.filter_sublist (l := ps)).map _) hR

theorem setPlace_does (oR : Obeys R [.pool]) (st : Standing) (id : PlaceId) {s : State} (hR : R s0 s) :
    R s0 (State.setPlace st id s) :=
  onPage_does oR id.1 (fun p => { p with places := setStanding st id.2 p.places }) (fun _ => rfl) hR

theorem setPlaces_does (oR : Obeys R [.pool]) (st : Standing) (ids : List PlaceId) : ∀ {s : State}, R s0 s →
    R s0 (State.setPlaces st ids s) := by
  induction ids with
  | nil => exact fun h => h
  | cons id ids ih => exact fun h => ih (setPlace_does oR st id h)

theorem writePlace_does (oR : Obeys R [.pool]) (serial : Nat) (r : Rec) {s : State} (hR : R s0 s) :
    R s0 (State.writePlace serial r s) := by
  refine onPage_does oR serial _ ?_ hR
  exact fun _ => rfl

theorem newPage_does (oR : Obeys R [.pool]) (c : ChanNo) (k : StreamKey) {s : State} (hs : s.poolHasPage = true) (hR : R s0 s) :
    R s0 (State.newPage c k s) := by
  refine onPool_does oR _ (fun h => ?_) hR
  simp only [State.poolHasPage, decide_eq_true_eq] at hs
  simp only [Pool.legal, Bool.and_eq_true, decide_eq_true_eq, List.all_eq_true] at h ⊢
  obtain ⟨⟨h1, h2⟩, -⟩ := h
  refine ⟨⟨List.pairwise_append.mpr ⟨h1, List.pairwise_singleton _ _, ?_⟩, ?_⟩, by simp; omega⟩
  · intro a ha b hb
    rw [List.mem_singleton.mp hb]
    exact h2 a ha
  · intro q hq
    rcases List.mem_append.mp hq with hq | hq
    · have := h2 q hq
      omega
    · rw [List.mem_singleton.mp hq]
      exact Nat.lt_succ_self _

theorem placeRecord_does (oR : Obeys R [.pool]) {c : ChanNo} {k : StreamKey} {r : Rec} {s t : State}
    (e : s.placeRecord c k r = some t) (hR : R s0 s) : R s0 t := by
  unfold State.placeRecord at e
  split at e
  · obtain rfl := Option.some.inj e
    exact writePlace_does oR _ r hR
  · split at e
    · rename_i hs
      obtain rfl := Option.some.inj e
      exact writePlace_does oR _ r (newPage_does oR c k hs hR)
    · cases e

theorem commitPages_does (oR : Obeys R [.pool]) (c : ChanNo) {s : State} (hR : R s0 s) :
    R s0 (State.commitPages c s) := freePages_does oR (mapPages_does oR _ (fun p => by split <;> rfl) hR)

theorem letGoPages_does (oR : Obeys R [.pool]) (c : ChanNo) {s : State} (hR : R s0 s) :
    R s0 (State.letGoPages c s) := freePages_does oR (mapPages_does oR _ (fun p => by split <;> rfl) hR)

theorem cutPages_does (oR : Obeys R [.pool]) (c : ChanNo) {s : State} (hR : R s0 s) :
    R s0 (State.cutPages c s) := freePages_does oR (mapPages_does oR _ (fun p => by split <;> rfl) hR)

theorem grantLanes_does (oR : Obeys R [.lanes]) {s : State} (hR : R s0 s) : R s0 s.grantLanes :=
  foldl_does _ (fun _ l h => onLane_does oR l _ (grant_online _) h) _ hR

theorem enqueueFore_does (oR : Obeys R [.lanes]) (l : LaneNo) (r : Request) {s : State} (hR : R s0 s) :
    R s0 (State.enqueueFore l r s) := by
  unfold State.enqueueFore
  try dsimp only
  repeat' first
    | assumption
    | exact oR.mono rfl
    | with_reducible apply onLane_does
    | fail
    | exact fun _ => ⟨rfl, rfl⟩
    | exact fun _ => rfl
    | exact fun _ _ => rfl
    | intro _
    | split

theorem enqueueBack_does (oR : Obeys R [.lanes]) (l : LaneNo) (r : Request) {s : State} (hR : R s0 s) :
    R s0 (State.enqueueBack l r s) := by
  unfold State.enqueueBack
  try dsimp only
  repeat' first
    | assumption
    | exact oR.mono rfl
    | with_reducible apply onLane_does
    | fail
    | exact fun _ => ⟨rfl, rfl⟩
    | exact fun _ => rfl
    | exact fun _ _ => rfl
    | intro _
    | split

theorem pump_does (oR : Obeys R [.lanes, .jnl]) {s : State} (hR : R s0 s) :
    R s0 (State.pump s) := by
  unfold State.pump
  try dsimp only
  repeat' first
    | assumption
    | exact oR.mono rfl
    | with_reducible apply formRun_does
    | with_reducible apply grantLanes_does
    | fail
    | exact fun _ => ⟨rfl, rfl⟩
    | exact fun _ => rfl
    | exact fun _ _ => rfl
    | intro _
    | split

theorem mediaWrite_does (oR : Obeys R [.media]) (seg offset : Nat) (bs : List Byte) {s : State} (hR : R s0 s) :
    R s0 (State.mediaWrite seg offset bs s) := media_does oR _ (fun _ h => wf_writeAll _ bs h) hR

theorem mediaErase_does (oR : Obeys R [.media]) (seg : Nat) {s : State} (hR : R s0 s) :
    R s0 (State.mediaErase seg s) := media_does oR _ (fun _ h => wf_clear _ _ h) hR

theorem tear_does (oR : Obeys R [.media]) (torn : List (Nat × Byte)) {s : State} (hR : R s0 s) :
    R s0 (State.tear torn s) := media_does oR _ (fun _ h => wf_writeCells _ h) hR

theorem laneStart_does (oR : Obeys R [.format]) (present : BitVec 16) {s : State} (hR : R s0 s) :
    R s0 (State.laneStart present s) := lanes_set_does oR _ hR

theorem removeErase_does (oR : Obeys R [.lanes]) (n : Nat) {s : State} (hR : R s0 s) :
    R s0 (State.removeErase n s) := by
  unfold State.removeErase
  try dsimp only
  repeat' first
    | assumption
    | exact oR.mono rfl
    | with_reducible apply onLane_does
    | fail
    | exact fun _ => ⟨rfl, rfl⟩
    | exact fun _ => rfl
    | exact fun _ _ => rfl
    | intro _
    | split

theorem issueErase_does (oR : Obeys R [.notes, .desk, .eds, .cat, .dir, .lanes, .jnl]) (n : Nat) {s : State} (hR : R s0 s) :
    R s0 (State.issueErase n s) := by
  unfold State.issueErase
  try dsimp only
  repeat' first
    | assumption
    | exact oR.mono rfl
    | with_reducible apply eraseArrives_does
    | with_reducible apply enqueueBack_does
    | fail
    | exact fun _ => ⟨rfl, rfl⟩
    | exact fun _ => rfl
    | exact fun _ _ => rfl
    | intro _
    | split

theorem setBuffer_does (oR : Obeys R [.coder]) (i : Fin 2) (b : Buffer) {s : State} (hR : R s0 s) :
    R s0 (State.setBuffer i b s) := by
  unfold State.setBuffer
  try dsimp only
  repeat' first
    | assumption
    | exact oR.mono rfl
    | with_reducible apply onCoder_does
    | fail
    | exact fun _ => ⟨rfl, rfl⟩
    | exact fun _ => rfl
    | exact fun _ _ => rfl
    | intro _
    | split

theorem askOpen_does (oR : Obeys R [.coder, .dir]) (k : StreamKey) {s : State} (hR : R s0 s) :
    R s0 (State.askOpen k s) := by
  unfold State.askOpen
  try dsimp only
  repeat' first
    | assumption
    | exact oR.mono rfl
    | with_reducible apply onCoder_does
    | with_reducible apply dir_does
    | fail
    | exact fun _ => ⟨rfl, rfl⟩
    | exact fun _ => rfl
    | exact fun _ _ => rfl
    | intro _
    | split

theorem selectBlock_does (oR : Obeys R [.pool, .coder, .dir]) (i : Fin 2) (k : StreamKey) {s : State} (hR : R s0 s) :
    R s0 (State.selectBlock i k s) := by
  unfold State.selectBlock
  try dsimp only
  repeat' first
    | assumption
    | exact oR.mono rfl
    | with_reducible apply setPlaces_does
    | with_reducible apply setBuffer_does
    | with_reducible apply askOpen_does
    | with_reducible apply onCoder_does
    | fail
    | exact fun _ => ⟨rfl, rfl⟩
    | exact fun _ => rfl
    | exact fun _ _ => rfl
    | intro _
    | split

theorem openRefused_does (oR : Obeys R [.notes, .desk, .pool, .coder, .dir, .lanes, .jnl]) (k : StreamKey) {s : State} (hR : R s0 s) :
    R s0 (State.openRefused k s) := by
  unfold State.openRefused
  try dsimp only
  repeat' first
    | assumption
    | exact oR.mono rfl
    | with_reducible apply refuseOpen_does
    | with_reducible apply setPlaces_does
    | with_reducible apply setBuffer_does
    | with_reducible apply dir_does
    | fail
    | exact fun _ => ⟨rfl, rfl⟩
    | exact fun _ => rfl
    | exact fun _ _ => rfl
    | intro _
    | split

theorem coderNext_does (oR : Obeys R [.notes, .desk, .pool, .coder, .dir, .lanes, .jnl]) {s t : State} (e : s.coderNext = some t) (hR : R s0 s) : R s0 t := by
  unfold State.coderNext at e
  repeat' split at e
  all_goals first
    | cases e; done
    | (obtain rfl := Option.some.inj e
       first
         | exact openRefused_does (oR.mono rfl) _ hR
         | exact dir_does (oR.mono rfl) _ (fun _ => ⟨rfl, rfl⟩) hR
         | exact selectBlock_does (oR.mono rfl) _ _ hR)

theorem restCoder_does (oR : Obeys R [.coder]) {s : State} (hR : R s0 s) :
    R s0 (State.restCoder s) := by
  unfold State.restCoder
  try dsimp only
  repeat' first
    | assumption
    | exact oR.mono rfl
    | with_reducible apply onCoder_does
    | fail
    | exact fun _ => ⟨rfl, rfl⟩
    | exact fun _ => rfl
    | exact fun _ _ => rfl
    | intro _
    | split

theorem coderLoop_does (oR : Obeys R [.notes, .desk, .pool, .coder, .dir, .lanes, .jnl]) (n : Nat) : ∀ {s : State}, R s0 s → R s0 (State.coderLoop n s) := by
  induction n with
  | zero => exact fun h => h
  | succ n ih =>
    intro s h
    unfold State.coderLoop
    split
    · rename_i t e
      exact ih (coderNext_does (oR.mono rfl) e h)
    · exact restCoder_does (oR.mono rfl) h

theorem runCoder_does (oR : Obeys R [.notes, .desk, .pool, .coder, .dir, .lanes, .jnl]) {s : State} (hR : R s0 s) :
    R s0 (State.runCoder s) := by
  unfold State.runCoder
  try dsimp only
  repeat' first
    | assumption
    | exact oR.mono rfl
    | with_reducible apply coderLoop_does
    | fail
    | exact fun _ => ⟨rfl, rfl⟩
    | exact fun _ => rfl
    | exact fun _ _ => rfl
    | intro _
    | split

theorem storeDone_does (oR : Obeys R [.notes, .desk, .pool, .eds, .coder, .cat, .dir, .lanes, .jnl]) (i : Fin 2) (ok : Bool) {s : State} (hR : R s0 s) :
    R s0 (State.storeDone i ok s) := by
  unfold State.storeDone
  try dsimp only
  repeat' first
    | assumption
    | exact oR.mono rfl
    | with_reducible apply storeEnds_does
    | with_reducible apply appendBlock_does
    | with_reducible apply storeError_does
    | with_reducible apply freePages_does
    | with_reducible apply setPlaces_does
    | with_reducible apply setBuffer_does
    | fail
    | exact fun _ => ⟨rfl, rfl⟩
    | exact fun _ => rfl
    | exact fun _ _ => rfl
    | intro _
    | split

theorem placeBlock_does (oR : Obeys R [.notes, .desk, .pool, .eds, .coder, .cat, .dir, .lanes, .jnl]) (i : Fin 2) (n offset : Nat) (places : List PlaceId) (recs : List Rec) (bytes : List Byte) {s : State} (hR : R s0 s) :
    R s0 (State.placeBlock i n offset places recs bytes s) := by
  unfold State.placeBlock
  try dsimp only
  repeat' first
    | assumption
    | exact oR.mono rfl
    | with_reducible apply reservePlace_does
    | with_reducible apply enqueueFore_does
    | with_reducible apply setBuffer_does
    | with_reducible apply storeDone_does
    | with_reducible apply onCoder_does
    | fail
    | exact fun _ => ⟨rfl, rfl⟩
    | exact fun _ => rfl
    | exact fun _ _ => rfl
    | intro _
    | split

theorem codingDone_does (oR : Obeys R [.notes, .desk, .pool, .eds, .coder, .cat, .dir, .lanes, .jnl]) {s : State} (hR : R s0 s) :
    R s0 (State.codingDone s) := by
  unfold State.codingDone
  try dsimp only
  repeat' first
    | assumption
    | exact oR.mono rfl
    | with_reducible apply closeSegment_does
    | with_reducible apply askOpen_does
    | with_reducible apply placeBlock_does
    | fail
    | exact fun _ => ⟨rfl, rfl⟩
    | exact fun _ => rfl
    | exact fun _ _ => rfl
    | intro _
    | split

theorem openGranted_does (oR : Obeys R [.notes, .desk, .eds, .coder, .cat, .dir, .lanes, .jnl]) {s : State} (hR : R s0 s) :
    R s0 (State.openGranted s) := by
  unfold State.openGranted
  try dsimp only
  repeat' first
    | assumption
    | exact oR.mono rfl
    | with_reducible apply openLimit_does
    | with_reducible apply openAt_does
    | with_reducible apply onCoder_does
    | with_reducible apply dir_does
    | fail
    | exact fun _ => ⟨rfl, rfl⟩
    | exact fun _ => rfl
    | exact fun _ _ => rfl
    | intro _
    | split

theorem onFile_does (oR : Obeys R [.feed]) (c : ChanNo) (f : File → File) {s : State} (hR : R s0 s) :
    R s0 (State.onFile c f s) := by
  unfold State.onFile
  try dsimp only
  repeat' first
    | assumption
    | exact oR.mono rfl
    | with_reducible apply onChan_does
    | fail
    | exact fun _ => ⟨rfl, rfl⟩
    | exact fun _ => rfl
    | exact fun _ _ => rfl
    | intro _
    | split

theorem onAccount_does (oR : Obeys R [.feed]) (c : ChanNo) (f : Account → Account) {s : State} (hR : R s0 s) :
    R s0 (State.onAccount c f s) := by
  unfold State.onAccount
  try dsimp only
  repeat' first
    | assumption
    | exact oR.mono rfl
    | with_reducible apply onFile_does
    | fail
    | exact fun _ => ⟨rfl, rfl⟩
    | exact fun _ => rfl
    | exact fun _ _ => rfl
    | intro _
    | split

theorem onCounts_does (oR : Obeys R [.feed]) (c : ChanNo) (f : Counts → Counts) {s : State} (hR : R s0 s) :
    R s0 (State.onCounts c f s) := by
  unfold State.onCounts
  try dsimp only
  repeat' first
    | assumption
    | exact oR.mono rfl
    | with_reducible apply onAccount_does
    | fail
    | exact fun _ => ⟨rfl, rfl⟩
    | exact fun _ => rfl
    | exact fun _ _ => rfl
    | intro _
    | split

theorem writeDrained_does (oR : Obeys R [.desk]) (c : ChanNo) {s : State} (hR : R s0 s) :
    R s0 (State.writeDrained c s) := by
  unfold State.writeDrained
  try dsimp only
  repeat' first
    | assumption
    | exact oR.mono rfl
    | with_reducible apply write_desk_does
    | fail
    | exact fun _ => ⟨rfl, rfl⟩
    | exact fun _ => rfl
    | exact fun _ _ => rfl
    | intro _
    | split
  all_goals simp [State.answerAt, State.slipAt]
  all_goals omega

theorem raiseDrained_does (oR : Obeys R [.desk, .feed]) (c : ChanNo) (d : Nat) {s : State} (hR : R s0 s) :
    R s0 (State.raiseDrained c d s) := by
  unfold State.raiseDrained
  try dsimp only
  repeat' first
    | assumption
    | exact oR.mono rfl
    | with_reducible apply writeDrained_does
    | with_reducible apply onChan_does
    | fail
    | exact fun _ => ⟨rfl, rfl⟩
    | exact fun _ => rfl
    | exact fun _ _ => rfl
    | intro _
    | split

theorem freeTheChan_does (oR : Obeys R [.feed]) (c : ChanNo) {s : State} (hR : R s0 s) :
    R s0 (State.freeTheChan c s) := by
  unfold State.freeTheChan
  try dsimp only
  repeat' first
    | assumption
    | exact oR.mono rfl
    | with_reducible apply onChan_does
    | with_reducible apply setBinding_does
    | fail
    | exact fun _ => ⟨rfl, rfl⟩
    | exact fun _ => rfl
    | exact fun _ _ => rfl
    | intro _
    | split

theorem endNoFile_does (oR : Obeys R [.notes, .book, .desk, .feed]) (c : ChanNo) (st : Status) {s : State} (hR : R s0 s) :
    R s0 (State.endNoFile c st s) := by
  unfold State.endNoFile
  try dsimp only
  repeat' first
    | assumption
    | exact oR.mono rfl
    | with_reducible apply answer_does
    | with_reducible apply freeTheChan_does
    | fail
    | exact fun _ => ⟨rfl, rfl⟩
    | exact fun _ => rfl
    | exact fun _ _ => rfl
    | intro _
    | split

theorem testEnd_does (oR : Obeys R [.desk, .feed]) (c : ChanNo) {s : State} (hR : R s0 s) :
    R s0 (State.testEnd c s) := by
  unfold State.testEnd
  try dsimp only
  repeat' first
    | assumption
    | exact oR.mono rfl
    | with_reducible apply raiseDrained_does
    | with_reducible apply onChan_does
    | fail
    | exact fun _ => ⟨rfl, rfl⟩
    | exact fun _ => rfl
    | exact fun _ _ => rfl
    | intro _
    | split

theorem recordFinished_does (oR : Obeys R [.desk, .feed]) (c : ChanNo) {s : State} (hR : R s0 s) :
    R s0 (State.recordFinished c s) := by
  unfold State.recordFinished
  try dsimp only
  repeat' first
    | assumption
    | exact oR.mono rfl
    | with_reducible apply onFile_does
    | with_reducible apply testEnd_does
    | fail
    | exact fun _ => ⟨rfl, rfl⟩
    | exact fun _ => rfl
    | exact fun _ _ => rfl
    | intro _
    | split

theorem leaveStalled_does (oR : Obeys R [.feed]) (c : ChanNo) {s : State} (hR : R s0 s) :
    R s0 (State.leaveStalled c s) := by
  unfold State.leaveStalled
  try dsimp only
  repeat' first
    | assumption
    | exact oR.mono rfl
    | with_reducible apply onFeed_does
    | fail
    | exact fun _ => ⟨rfl, rfl⟩
    | exact fun _ => rfl
    | exact fun _ _ => rfl
    | intro _
    | split

theorem resumeOne_does (oR : Obeys R [.desk, .feed, .pool]) (c : ChanNo) {s : State} (hR : R s0 s) : R s0 (State.resumeOne c s) := by
  unfold State.resumeOne
  split
  · split
    · split
      · rename_i t e
        exact recordFinished_does (oR.mono rfl) c (leaveStalled_does (oR.mono rfl) c
          (onChan_does (oR.mono rfl) c _ (placeRecord_does (oR.mono rfl) e hR)))
      · exact hR
    · exact leaveStalled_does (oR.mono rfl) c hR
  · exact leaveStalled_does (oR.mono rfl) c hR

theorem resumeAll_does (oR : Obeys R [.desk, .feed, .pool]) (cs : List ChanNo) : ∀ {s : State}, R s0 s → R s0 (State.resumeAll cs s) := by
  induction cs with
  | nil => exact fun h => h
  | cons c cs ih =>
    intro s h
    unfold State.resumeAll
    split
    · exact ih (resumeOne_does oR c h)
    · exact h

theorem resumeStalled_does (oR : Obeys R [.desk, .feed, .pool]) {s : State} (hR : R s0 s) :
    R s0 (State.resumeStalled s) := by
  unfold State.resumeStalled
  try dsimp only
  repeat' first
    | assumption
    | exact oR.mono rfl
    | with_reducible apply resumeAll_does
    | fail
    | exact fun _ => ⟨rfl, rfl⟩
    | exact fun _ => rfl
    | exact fun _ _ => rfl
    | intro _
    | split

theorem chanDone_does (oR : Obeys R [.notes, .book, .desk, .feed]) (c : ChanNo) {s : State} (hR : R s0 s) :
    R s0 (State.chanDone c s) := by
  unfold State.chanDone
  try dsimp only
  repeat' first
    | assumption
    | exact oR.mono rfl
    | with_reducible apply answer_does
    | with_reducible apply noAnswer_does
    | with_reducible apply freeTheChan_does
    | fail
    | exact fun _ => ⟨rfl, rfl⟩
    | exact fun _ => rfl
    | exact fun _ _ => rfl
    | intro _
    | split

theorem submitClosing_does (oR : Obeys R [.notes, .book, .desk, .feed, .lanes, .jnl]) (c : ChanNo) (before pair later : List EntryBody) {s : State} (hR : R s0 s) :
    R s0 (State.submitClosing c before pair later s) := by
  unfold State.submitClosing
  try dsimp only
  repeat' first
    | assumption
    | exact oR.mono rfl
    | with_reducible apply submit_does
    | with_reducible apply submitAll_does
    | with_reducible apply chanDone_does
    | with_reducible apply setBinding_does
    | fail
    | exact fun _ => ⟨rfl, rfl⟩
    | exact fun _ => rfl
    | exact fun _ _ => rfl
    | intro _
    | split

theorem abort_does (oR : Obeys R [.notes, .book, .desk, .feed, .pool, .recon, .coder, .dir, .lanes, .jnl]) (c : ChanNo) (cause : AbortCause) (answer : Option Status) {s : State} (hR : R s0 s) :
    R s0 (State.abort c cause answer s) := by
  unfold State.abort
  try dsimp only
  repeat' first
    | assumption
    | exact oR.mono rfl
    | with_reducible apply answer_does
    | with_reducible apply noAnswer_does
    | with_reducible apply releaseSwitch_does
    | with_reducible apply cutPages_does
    | with_reducible apply runCoder_does
    | with_reducible apply freeTheChan_does
    | with_reducible apply endNoFile_does
    | with_reducible apply leaveStalled_does
    | with_reducible apply resumeStalled_does
    | with_reducible apply submitClosing_does
    | with_reducible apply onChan_does
    | fail
    | exact fun _ => ⟨rfl, rfl⟩
    | exact fun _ => rfl
    | exact fun _ _ => rfl
    | intro _
    | split

theorem ringFault_does (oR : Obeys R [.notes, .book, .desk, .feed, .pool, .recon, .coder, .dir, .lanes, .jnl]) (c : ChanNo) {s : State} (hR : R s0 s) :
    R s0 (State.ringFault c s) := by
  unfold State.ringFault
  try dsimp only
  repeat' first
    | assumption
    | exact oR.mono rfl
    | with_reducible apply abort_does
    | fail
    | exact fun _ => ⟨rfl, rfl⟩
    | exact fun _ => rfl
    | exact fun _ _ => rfl
    | intro _
    | split

theorem closeOn_does (oR : Obeys R [.notes, .book, .desk, .feed, .pool, .recon, .coder, .dir, .lanes, .jnl]) (c : ChanNo) {s : State} (hR : R s0 s) :
    R s0 (State.closeOn c s) := by
  unfold State.closeOn
  try dsimp only
  repeat' first
    | assumption
    | exact oR.mono rfl
    | with_reducible apply releaseSwitch_does
    | with_reducible apply letGoPages_does
    | with_reducible apply runCoder_does
    | with_reducible apply resumeStalled_does
    | with_reducible apply submitClosing_does
    | with_reducible apply onChan_does
    | fail
    | exact fun _ => ⟨rfl, rfl⟩
    | exact fun _ => rfl
    | exact fun _ _ => rfl
    | intro _
    | split

theorem chanOn_does (oR : Obeys R [.notes, .book, .desk, .feed, .pool, .recon, .coder, .dir, .lanes, .jnl]) (c : ChanNo) {s : State} (hR : R s0 s) :
    R s0 (State.chanOn c s) := by
  unfold State.chanOn
  try dsimp only
  repeat' first
    | assumption
    | exact oR.mono rfl
    | with_reducible apply testEnd_does
    | with_reducible apply closeOn_does
    | with_reducible apply onChan_does
    | fail
    | exact fun _ => ⟨rfl, rfl⟩
    | exact fun _ => rfl
    | exact fun _ _ => rfl
    | intro _
    | split

theorem submitAndGoOn_does (oR : Obeys R [.notes, .book, .desk, .feed, .pool, .recon, .coder, .dir, .lanes, .jnl]) (c : ChanNo) (entries : List EntryBody) {s : State} (hR : R s0 s) :
    R s0 (State.submitAndGoOn c entries s) := by
  unfold State.submitAndGoOn
  try dsimp only
  repeat' first
    | assumption
    | exact oR.mono rfl
    | with_reducible apply submitAll_does
    | with_reducible apply chanOn_does
    | fail
    | exact fun _ => ⟨rfl, rfl⟩
    | exact fun _ => rfl
    | exact fun _ _ => rfl
    | intro _
    | split

theorem applyMarks_does (oR : Obeys R [.notes, .book, .desk, .feed, .pool, .recon, .coder, .dir, .lanes, .jnl]) (c : ChanNo) (m : RingMarks) {s : State} (hR : R s0 s) :
    R s0 (State.applyMarks c m s) := by
  unfold State.applyMarks
  try dsimp only
  repeat' first
    | assumption
    | exact oR.mono rfl
    | with_reducible apply endNoFile_does
    | with_reducible apply testEnd_does
    | with_reducible apply ringFault_does
    | with_reducible apply onChan_does
    | fail
    | exact fun _ => ⟨rfl, rfl⟩
    | exact fun _ => rfl
    | exact fun _ _ => rfl
    | intro _
    | split

theorem takeSlip_does (oR : Obeys R [.notes, .book, .desk, .feed, .pool, .recon, .coder, .dir, .lanes, .jnl]) {s : State} (hR : R s0 s) : R s0 s.takeSlip := by
  have h1 : ∀ rest, R s0 (s.onDesk fun d => { d with list := rest }) := fun rest =>
    desk_book_does (oR.mono rfl) _ (fun _ => ⟨rfl, rfl, rfl, rfl, rfl⟩) hR
  unfold State.takeSlip
  split
  · generalize s.readParams .ingest _ = p
    dsimp only
    split
    · exact answer_does (oR.mono rfl) _ _ _ (h1 _)
    · exact applyMarks_does (oR.mono rfl) _ _ (setBinding_does (oR.mono rfl) _ _ (onChan_does (oR.mono rfl) _ _ (h1 _)))
  · exact hR

theorem rereadMarks_does (oR : Obeys R [.notes, .book, .desk, .feed, .pool, .recon, .coder, .dir, .lanes, .jnl]) (c : ChanNo) (i : SlipNo) {s : State} (hR : R s0 s) :
    R s0 (State.rereadMarks c i s) := by
  unfold State.rereadMarks
  try dsimp only
  repeat' first
    | assumption
    | exact oR.mono rfl
    | with_reducible apply applyMarks_does
    | fail
    | exact fun _ => ⟨rfl, rfl⟩
    | exact fun _ => rfl
    | exact fun _ _ => rfl
    | intro _
    | split

theorem acceptHeader_does (oR : Obeys R [.notes, .book, .desk, .feed, .pool, .recon, .coder, .dir, .lanes, .jnl]) (c : ChanNo) (h : Header) {s : State} (hR : R s0 s) :
    R s0 (State.acceptHeader c h s) := by
  unfold State.acceptHeader
  try dsimp only
  repeat' first
    | assumption
    | exact oR.mono rfl
    | with_reducible apply setSwitch_does
    | with_reducible apply submitAndGoOn_does
    | with_reducible apply onChan_does
    | with_reducible apply setBinding_does
    | fail
    | exact fun _ => ⟨rfl, rfl⟩
    | exact fun _ => rfl
    | exact fun _ _ => rfl
    | intro _
    | split

theorem takeHeader_does (oR : Obeys R [.notes, .book, .desk, .feed, .pool, .recon, .coder, .dir, .lanes, .jnl]) (c : ChanNo) {s : State} (hR : R s0 s) :
    R s0 (State.takeHeader c s) := by
  unfold State.takeHeader
  try dsimp only
  repeat' first
    | assumption
    | exact oR.mono rfl
    | with_reducible apply raiseDrained_does
    | with_reducible apply endNoFile_does
    | with_reducible apply ringFault_does
    | with_reducible apply acceptHeader_does
    | fail
    | exact fun _ => ⟨rfl, rfl⟩
    | exact fun _ => rfl
    | exact fun _ _ => rfl
    | intro _
    | split

theorem stageRecord_does (oR : Obeys R [.notes, .desk, .feed, .pool]) (c : ChanNo) (f : File) (r : Rec) (g : Nat) {s : State} (hR : R s0 s) :
    R s0 (State.stageRecord c f r g s) := by
  unfold State.stageRecord
  split
  · rename_i t e
    exact recordFinished_does (oR.mono rfl) c (placeRecord_does (oR.mono rfl) e hR)
  · exact notice_does (oR.mono rfl) .stalls (onFeed_does (oR.mono rfl) _ (onChan_does (oR.mono rfl) c _ hR))

theorem countVerdict_does (oR : Obeys R [.notes, .desk, .feed, .pool, .eds]) (c : ChanNo) (f : File) (j : Judged) (r : Rec) (g : Nat) {s : State} (hR : R s0 s) :
    R s0 (State.countVerdict c f j r g s) := by
  unfold State.countVerdict
  try dsimp only
  repeat' first
    | assumption
    | exact oR.mono rfl
    | with_reducible apply onFile_does
    | with_reducible apply onCounts_does
    | with_reducible apply recordFinished_does
    | with_reducible apply stageRecord_does
    | with_reducible apply onEds_does
    | fail
    | exact fun _ => ⟨rfl, rfl⟩
    | exact fun _ => rfl
    | exact fun _ _ => rfl
    | intro _
    | split

theorem classifyRecord_does (oR : Obeys R [.notes, .book, .desk, .feed, .pool, .recon, .eds, .coder, .dir, .lanes, .jnl]) (c : ChanNo) (f : File) (r : Rec) (g : Nat) {s : State} (hR : R s0 s) :
    R s0 (State.classifyRecord c f r g s) := by
  unfold State.classifyRecord
  try dsimp only
  repeat' first
    | assumption
    | exact oR.mono rfl
    | with_reducible apply abort_does
    | with_reducible apply countVerdict_does
    | fail
    | exact fun _ => ⟨rfl, rfl⟩
    | exact fun _ => rfl
    | exact fun _ _ => rfl
    | intro _
    | split

theorem seeRecord_does (oR : Obeys R [.feed]) (c : ChanNo) (charge : Nat) {s : State} (hR : R s0 s) :
    R s0 (State.seeRecord c charge s) := by
  unfold State.seeRecord
  try dsimp only
  repeat' first
    | assumption
    | exact oR.mono rfl
    | with_reducible apply onAccount_does
    | fail
    | exact fun _ => ⟨rfl, rfl⟩
    | exact fun _ => rfl
    | exact fun _ _ => rfl
    | intro _
    | split

theorem judgeRecord_does (oR : Obeys R [.notes, .book, .desk, .feed, .pool, .recon, .eds, .coder, .dir, .lanes, .jnl]) (c : ChanNo) (raw : Raw) {s : State} (hR : R s0 s) :
    R s0 (State.judgeRecord c raw s) := by
  unfold State.judgeRecord
  try dsimp only
  repeat' first
    | assumption
    | exact oR.mono rfl
    | with_reducible apply onCounts_does
    | with_reducible apply recordFinished_does
    | with_reducible apply classifyRecord_does
    | with_reducible apply seeRecord_does
    | fail
    | exact fun _ => ⟨rfl, rfl⟩
    | exact fun _ => rfl
    | exact fun _ _ => rfl
    | intro _
    | split

theorem takeRecord_does (oR : Obeys R [.notes, .book, .desk, .feed, .pool, .recon, .eds, .coder, .dir, .lanes, .jnl]) (c : ChanNo) {s : State} (hR : R s0 s) :
    R s0 (State.takeRecord c s) := by
  unfold State.takeRecord
  try dsimp only
  repeat' first
    | assumption
    | exact oR.mono rfl
    | with_reducible apply raiseDrained_does
    | with_reducible apply ringFault_does
    | with_reducible apply judgeRecord_does
    | fail
    | exact fun _ => ⟨rfl, rfl⟩
    | exact fun _ => rfl
    | exact fun _ _ => rfl
    | intro _
    | split

theorem mergeFile_does (oR : Obeys R [.notes, .desk, .feed, .recon, .lanes, .jnl]) (c : ChanNo) (f : File) {s : State} (hR : R s0 s) :
    R s0 (State.mergeFile c f s).1 := by
  unfold State.mergeFile
  try dsimp only
  repeat' first
    | assumption
    | exact oR.mono rfl
    | with_reducible apply submitAll_does
    | with_reducible apply setSwitch_does
    | with_reducible apply onFile_does
    | with_reducible apply onRecon_does
    | fail
    | exact fun _ => ⟨rfl, rfl⟩
    | exact fun _ => rfl
    | exact fun _ _ => rfl
    | intro _
    | split

theorem commit_does (oR : Obeys R [.notes, .desk, .feed, .pool, .recon, .lanes, .jnl]) (c : ChanNo) (f : File) {s : State} (hR : R s0 s) :
    R s0 (State.commit c f s).1 := by
  unfold State.commit
  try dsimp only
  repeat' first
    | assumption
    | exact oR.mono rfl
    | with_reducible apply commitPages_does
    | with_reducible apply mergeFile_does
    | with_reducible apply setBinding_does
    | fail
    | exact fun _ => ⟨rfl, rfl⟩
    | exact fun _ => rfl
    | exact fun _ _ => rfl
    | intro _
    | split

theorem commitInterval_does (oR : Obeys R [.notes, .book, .desk, .feed, .pool, .recon, .coder, .dir, .lanes, .jnl]) (c : ChanNo) (f : File) {s : State} (hR : R s0 s) :
    R s0 (State.commitInterval c f s) := by
  unfold State.commitInterval
  try dsimp only
  repeat' first
    | assumption
    | exact oR.mono rfl
    | with_reducible apply onFile_does
    | with_reducible apply chanOn_does
    | with_reducible apply commit_does
    | fail
    | exact fun _ => ⟨rfl, rfl⟩
    | exact fun _ => rfl
    | exact fun _ _ => rfl
    | intro _
    | split

theorem commitLast_does (oR : Obeys R [.notes, .book, .desk, .feed, .pool, .recon, .coder, .dir, .lanes, .jnl]) (c : ChanNo) (f : File) {s : State} (hR : R s0 s) :
    R s0 (State.commitLast c f s) := by
  unfold State.commitLast
  try dsimp only
  repeat' first
    | assumption
    | exact oR.mono rfl
    | with_reducible apply runCoder_does
    | with_reducible apply resumeStalled_does
    | with_reducible apply chanOn_does
    | with_reducible apply commit_does
    | with_reducible apply onChan_does
    | fail
    | exact fun _ => ⟨rfl, rfl⟩
    | exact fun _ => rfl
    | exact fun _ _ => rfl
    | intro _
    | split

theorem makeCommit_does (oR : Obeys R [.notes, .book, .desk, .feed, .pool, .recon, .coder, .dir, .lanes, .jnl]) (c : ChanNo) {s : State} (hR : R s0 s) :
    R s0 (State.makeCommit c s) := by
  unfold State.makeCommit
  try dsimp only
  repeat' first
    | assumption
    | exact oR.mono rfl
    | with_reducible apply commitInterval_does
    | with_reducible apply commitLast_does
    | fail
    | exact fun _ => ⟨rfl, rfl⟩
    | exact fun _ => rfl
    | exact fun _ _ => rfl
    | intro _
    | split

theorem onRunning_does (oR : Obeys R [.exec]) (f : Op → Op) {s : State} (hR : R s0 s) :
    R s0 (State.onRunning f s) := by
  unfold State.onRunning
  try dsimp only
  repeat' first
    | assumption
    | exact oR.mono rfl
    | with_reducible apply onExec_does
    | fail
    | exact fun _ => ⟨rfl, rfl⟩
    | exact fun _ => rfl
    | exact fun _ _ => rfl
    | intro _
    | split

theorem onBody_does (oR : Obeys R [.exec]) (f : OpBody → OpBody) {s : State} (hR : R s0 s) :
    R s0 (State.onBody f s) := by
  unfold State.onBody
  try dsimp only
  repeat' first
    | assumption
    | exact oR.mono rfl
    | with_reducible apply onRunning_does
    | fail
    | exact fun _ => ⟨rfl, rfl⟩
    | exact fun _ => rfl
    | exact fun _ _ => rfl
    | intro _
    | split

theorem onOp_does (oR : Obeys R [.exec]) (adm : Nat) (f : Op → Op) {s : State} (hR : R s0 s) :
    R s0 (State.onOp adm f s) := by
  unfold State.onOp
  try dsimp only
  repeat' first
    | assumption
    | exact oR.mono rfl
    | with_reducible apply onExec_does
    | fail
    | exact fun _ => ⟨rfl, rfl⟩
    | exact fun _ => rfl
    | exact fun _ _ => rfl
    | intro _
    | split

theorem clearRunning_does (oR : Obeys R [.exec]) {s : State} (hR : R s0 s) :
    R s0 (State.clearRunning s) := by
  unfold State.clearRunning
  try dsimp only
  repeat' first
    | assumption
    | exact oR.mono rfl
    | with_reducible apply onExec_does
    | fail
    | exact fun _ => ⟨rfl, rfl⟩
    | exact fun _ => rfl
    | exact fun _ _ => rfl
    | intro _
    | split

theorem endAnswer_does (oR : Obeys R [.notes, .book, .desk, .exec]) (st : Status) (values : List Byte) {s : State} (hR : R s0 s) :
    R s0 (State.endAnswer st values s) := by
  unfold State.endAnswer
  try dsimp only
  repeat' first
    | assumption
    | exact oR.mono rfl
    | with_reducible apply answer_does
    | with_reducible apply clearRunning_does
    | fail
    | exact fun _ => ⟨rfl, rfl⟩
    | exact fun _ => rfl
    | exact fun _ _ => rfl
    | intro _
    | split

theorem endSilent_does (oR : Obeys R [.book, .exec]) {s : State} (hR : R s0 s) :
    R s0 (State.endSilent s) := by
  unfold State.endSilent
  try dsimp only
  repeat' first
    | assumption
    | exact oR.mono rfl
    | with_reducible apply noAnswer_does
    | with_reducible apply clearRunning_does
    | fail
    | exact fun _ => ⟨rfl, rfl⟩
    | exact fun _ => rfl
    | exact fun _ _ => rfl
    | intro _
    | split

theorem makeRunning_does (oR : Obeys R [.exec]) (o : Op) {s : State} (hR : R s0 s) :
    R s0 (State.makeRunning o s) := by
  unfold State.makeRunning
  try dsimp only
  repeat' first
    | assumption
    | exact oR.mono rfl
    | with_reducible apply onExec_does
    | fail
    | exact fun _ => ⟨rfl, rfl⟩
    | exact fun _ => rfl
    | exact fun _ _ => rfl
    | intro _
    | split

theorem takeSuspension_does (oR : Obeys R [.exec]) {s : State} (hR : R s0 s) :
    R s0 (State.takeSuspension s) := by
  unfold State.takeSuspension
  try dsimp only
  repeat' first
    | assumption
    | exact oR.mono rfl
    | with_reducible apply onExec_does
    | fail
    | exact fun _ => ⟨rfl, rfl⟩
    | exact fun _ => rfl
    | exact fun _ _ => rfl
    | intro _
    | split

theorem suspendAtOnce_does (oR : Obeys R [.exec]) {s : State} (hR : R s0 s) :
    R s0 (State.suspendAtOnce s) := by
  unfold State.suspendAtOnce
  try dsimp only
  repeat' first
    | assumption
    | exact oR.mono rfl
    | with_reducible apply takeSuspension_does
    | fail
    | exact fun _ => ⟨rfl, rfl⟩
    | exact fun _ => rfl
    | exact fun _ _ => rfl
    | intro _
    | split

theorem handOver_does (oR : Obeys R [.exec]) (o : Op) {s : State} (hR : R s0 s) :
    R s0 (State.handOver o s) := by
  unfold State.handOver
  try dsimp only
  repeat' first
    | assumption
    | exact oR.mono rfl
    | with_reducible apply suspendAtOnce_does
    | with_reducible apply onExec_does
    | fail
    | exact fun _ => ⟨rfl, rfl⟩
    | exact fun _ => rfl
    | exact fun _ _ => rfl
    | intro _
    | split

theorem handOverAll_does (oR : Obeys R [.exec]) (os : List Op) : ∀ {s : State}, R s0 s → R s0 (State.handOverAll os s) := by
  induction os with
  | nil => exact fun h => h
  | cons p os ih => exact fun h => ih (handOver_does oR p h)

theorem unpin_does (oR : Obeys R [.cat]) (n : Nat) {s : State} (hR : R s0 s) :
    R s0 (State.unpin n s) := by
  unfold State.unpin
  try dsimp only
  repeat' first
    | assumption
    | exact oR.mono rfl
    | with_reducible apply onSegment_does
    | fail
    | exact fun _ => ⟨rfl, rfl⟩
    | exact fun _ => rfl
    | exact fun _ _ => rfl
    | intro _
    | split

theorem pin_does (oR : Obeys R [.cat]) (n : Nat) {s : State} (hR : R s0 s) :
    R s0 (State.pin n s) := by
  unfold State.pin
  try dsimp only
  repeat' first
    | assumption
    | exact oR.mono rfl
    | with_reducible apply onSegment_does
    | fail
    | exact fun _ => ⟨rfl, rfl⟩
    | exact fun _ => rfl
    | exact fun _ _ => rfl
    | intro _
    | split

theorem unpinOp_does (oR : Obeys R [.cat]) (o : Op) {s : State} (hR : R s0 s) :
    R s0 (State.unpinOp o s) := by
  unfold State.unpinOp
  try dsimp only
  repeat' first
    | assumption
    | exact oR.mono rfl
    | with_reducible apply unpin_does
    | fail
    | exact fun _ => ⟨rfl, rfl⟩
    | exact fun _ => rfl
    | exact fun _ _ => rfl
    | intro _
    | split

theorem stopRunning_does (oR : Obeys R [.book, .exec, .cat]) {s : State} (hR : R s0 s) :
    R s0 (State.stopRunning s) := by
  unfold State.stopRunning
  try dsimp only
  repeat' first
    | assumption
    | exact oR.mono rfl
    | with_reducible apply endSilent_does
    | with_reducible apply unpinOp_does
    | fail
    | exact fun _ => ⟨rfl, rfl⟩
    | exact fun _ => rfl
    | exact fun _ _ => rfl
    | intro _
    | split

theorem removeOp_does (oR : Obeys R [.exec]) (adm : Nat) {s : State} (hR : R s0 s) :
    R s0 (State.removeOp adm s) := by
  unfold State.removeOp
  try dsimp only
  repeat' first
    | assumption
    | exact oR.mono rfl
    | with_reducible apply onExec_does
    | fail
    | exact fun _ => ⟨rfl, rfl⟩
    | exact fun _ => rfl
    | exact fun _ _ => rfl
    | intro _
    | split

theorem withdrawOp_does (oR : Obeys R [.book, .exec, .cat]) (i : SlipNo) {s : State} (hR : R s0 s) :
    R s0 (State.withdrawOp i s) := by
  unfold State.withdrawOp
  try dsimp only
  repeat' first
    | assumption
    | exact oR.mono rfl
    | with_reducible apply releaseSlip_does
    | with_reducible apply onRunning_does
    | with_reducible apply unpinOp_does
    | with_reducible apply stopRunning_does
    | with_reducible apply removeOp_does
    | fail
    | exact fun _ => ⟨rfl, rfl⟩
    | exact fun _ => rfl
    | exact fun _ _ => rfl
    | intro _
    | split

theorem detachOps_does (oR : Obeys R [.exec]) {s : State} (hR : R s0 s) :
    R s0 (State.detachOps s) := by
  unfold State.detachOps
  try dsimp only
  repeat' first
    | assumption
    | exact oR.mono rfl
    | with_reducible apply onExec_does
    | fail
    | exact fun _ => ⟨rfl, rfl⟩
    | exact fun _ => rfl
    | exact fun _ _ => rfl
    | intro _
    | split

theorem setVisit_does (oR : Obeys R [.exec, .scrub]) (r : Reader) (v : Option Visit) {s : State} (hR : R s0 s) :
    R s0 (State.setVisit r v s) := by
  unfold State.setVisit
  try dsimp only
  repeat' first
    | assumption
    | exact oR.mono rfl
    | with_reducible apply onOp_does
    | with_reducible apply onScrub_does
    | fail
    | exact fun _ => ⟨rfl, rfl⟩
    | exact fun _ => rfl
    | exact fun _ _ => rfl
    | intro _
    | split

theorem beginVisit_does (oR : Obeys R [.exec, .cat, .scrub]) (r : Reader) (n : Nat) (g : Segment) {s : State} (hR : R s0 s) :
    R s0 (State.beginVisit r n g s) := by
  unfold State.beginVisit
  try dsimp only
  repeat' first
    | assumption
    | exact oR.mono rfl
    | with_reducible apply pin_does
    | with_reducible apply setVisit_does
    | fail
    | exact fun _ => ⟨rfl, rfl⟩
    | exact fun _ => rfl
    | exact fun _ _ => rfl
    | intro _
    | split

theorem leaveVisit_does (oR : Obeys R [.exec, .cat, .scrub]) (r : Reader) {s : State} (hR : R s0 s) :
    R s0 (State.leaveVisit r s) := by
  unfold State.leaveVisit
  try dsimp only
  repeat' first
    | assumption
    | exact oR.mono rfl
    | with_reducible apply unpin_does
    | with_reducible apply setVisit_does
    | fail
    | exact fun _ => ⟨rfl, rfl⟩
    | exact fun _ => rfl
    | exact fun _ _ => rfl
    | intro _
    | split

theorem issueFetch_does (oR : Obeys R [.exec, .lanes, .scrub]) (r : Reader) (v : Visit) {s : State} (hR : R s0 s) :
    R s0 (State.issueFetch r v s) := by
  unfold State.issueFetch
  try dsimp only
  repeat' first
    | assumption
    | exact oR.mono rfl
    | with_reducible apply enqueueFore_does
    | with_reducible apply enqueueBack_does
    | with_reducible apply setVisit_does
    | fail
    | exact fun _ => ⟨rfl, rfl⟩
    | exact fun _ => rfl
    | exact fun _ _ => rfl
    | intro _
    | split

theorem countReader_does (oR : Obeys R [.exec, .scrub]) (r : Reader) (ok : Bool) {s : State} (hR : R s0 s) :
    R s0 (State.countReader r ok s) := by
  unfold State.countReader
  try dsimp only
  repeat' first
    | assumption
    | exact oR.mono rfl
    | with_reducible apply onOp_does
    | with_reducible apply onScrub_does
    | fail
    | exact fun _ => ⟨rfl, rfl⟩
    | exact fun _ => rfl
    | exact fun _ _ => rfl
    | intro _
    | split

theorem lapEnd_does (oR : Obeys R [.notes, .desk, .scrub]) {s : State} (hR : R s0 s) :
    R s0 (State.lapEnd s) := by
  unfold State.lapEnd
  try dsimp only
  repeat' first
    | assumption
    | exact oR.mono rfl
    | with_reducible apply notice_does
    | with_reducible apply onScrub_does
    | fail
    | exact fun _ => ⟨rfl, rfl⟩
    | exact fun _ => rfl
    | exact fun _ _ => rfl
    | intro _
    | split

theorem scrubAdvance_does (oR : Obeys R [.notes, .desk, .lanes, .scrub, .jnl]) {s : State} (hR : R s0 s) :
    R s0 (State.scrubAdvance s) := by
  unfold State.scrubAdvance
  try dsimp only
  repeat' first
    | assumption
    | exact oR.mono rfl
    | with_reducible apply submit_does
    | with_reducible apply lapEnd_does
    | with_reducible apply onScrub_does
    | fail
    | exact fun _ => ⟨rfl, rfl⟩
    | exact fun _ => rfl
    | exact fun _ _ => rfl
    | intro _
    | split

theorem verifyEnd_does (oR : Obeys R [.notes, .book, .desk, .exec]) {s : State} (hR : R s0 s) :
    R s0 (State.verifyEnd s) := by
  unfold State.verifyEnd
  try dsimp only
  repeat' first
    | assumption
    | exact oR.mono rfl
    | with_reducible apply endAnswer_does
    | fail
    | exact fun _ => ⟨rfl, rfl⟩
    | exact fun _ => rfl
    | exact fun _ _ => rfl
    | intro _
    | split

theorem verdictDone_does (oR : Obeys R [.notes, .book, .desk, .exec, .cat, .lanes, .scrub, .jnl]) (r : Reader) {s : State} (hR : R s0 s) :
    R s0 (State.verdictDone r s) := by
  unfold State.verdictDone
  try dsimp only
  repeat' first
    | assumption
    | exact oR.mono rfl
    | with_reducible apply onOp_does
    | with_reducible apply leaveVisit_does
    | with_reducible apply scrubAdvance_does
    | with_reducible apply verifyEnd_does
    | fail
    | exact fun _ => ⟨rfl, rfl⟩
    | exact fun _ => rfl
    | exact fun _ _ => rfl
    | intro _
    | split

theorem standPass_does (oR : Obeys R [.cat]) (n : Nat) {s : State} (hR : R s0 s) :
    R s0 (State.standPass n s) := by
  unfold State.standPass
  try dsimp only
  repeat' first
    | assumption
    | exact oR.mono rfl
    | with_reducible apply onSegment_does
    | fail
    | exact fun _ => ⟨rfl, rfl⟩
    | exact fun _ => rfl
    | exact fun _ _ => rfl
    | intro _
    | split

theorem standFail_does (oR : Obeys R [.cat]) (n : Nat) {s : State} (hR : R s0 s) :
    R s0 (State.standFail n s) := by
  unfold State.standFail
  try dsimp only
  repeat' first
    | assumption
    | exact oR.mono rfl
    | with_reducible apply onSegment_does
    | fail
    | exact fun _ => ⟨rfl, rfl⟩
    | exact fun _ => rfl
    | exact fun _ _ => rfl
    | intro _
    | split

theorem giveVerdict_does (oR : Obeys R [.notes, .book, .desk, .exec, .cat, .lanes, .scrub, .jnl]) (r : Reader) (out : Option (VerifyCause × Nat)) (v : Visit) {s : State} (hR : R s0 s) :
    R s0 (State.giveVerdict r out v s) := by
  unfold State.giveVerdict
  try dsimp only
  repeat' first
    | assumption
    | exact oR.mono rfl
    | with_reducible apply submit_does
    | with_reducible apply setVisit_does
    | with_reducible apply countReader_does
    | with_reducible apply verdictDone_does
    | with_reducible apply standPass_does
    | with_reducible apply standFail_does
    | fail
    | exact fun _ => ⟨rfl, rfl⟩
    | exact fun _ => rfl
    | exact fun _ _ => rfl
    | intro _
    | split

theorem verifyGo_does (oR : Obeys R [.notes, .book, .desk, .exec, .cat, .lanes, .scrub, .jnl]) (r : Reader) {s : State} (hR : R s0 s) :
    R s0 (State.verifyGo r s) := by
  unfold State.verifyGo
  try dsimp only
  repeat' first
    | assumption
    | exact oR.mono rfl
    | with_reducible apply markFault_does
    | with_reducible apply issueFetch_does
    | with_reducible apply giveVerdict_does
    | fail
    | exact fun _ => ⟨rfl, rfl⟩
    | exact fun _ => rfl
    | exact fun _ _ => rfl
    | intro _
    | split

theorem verifyArrives_does (oR : Obeys R [.notes, .book, .desk, .exec, .cat, .lanes, .scrub, .jnl]) (r : Reader) (a : Arrival) {s : State} (hR : R s0 s) :
    R s0 (State.verifyArrives r a s) := by
  unfold State.verifyArrives
  try dsimp only
  repeat' first
    | assumption
    | exact oR.mono rfl
    | with_reducible apply setVisit_does
    | with_reducible apply giveVerdict_does
    | with_reducible apply verifyGo_does
    | fail
    | exact fun _ => ⟨rfl, rfl⟩
    | exact fun _ => rfl
    | exact fun _ _ => rfl
    | intro _
    | split

theorem writeRecords_does (oR : Obeys R [.buf]) (p : ExtractParams) (skip : Option (Nat × Nat)) (blk : Nat) (rs : List Rec) :
    ∀ (i w : Nat) {s : State}, R s0 s → R s0 (State.writeRecords p skip blk i rs w s).1 := by
  induction rs with
  | nil => exact fun _ _ _ h => h
  | cons r rs ih =>
    intro i w s h
    unfold State.writeRecords
    split
    · exact ih _ _ h
    · split
      · exact ih _ _ (write_buf_does oR _ _ h)
      · exact h

theorem writeBlocks_does (oR : Obeys R [.buf]) (p : ExtractParams) (skip : Option (Nat × Nat))
    (bs : List (Nat × List Rec)) : ∀ (w : Nat) {s : State}, R s0 s → R s0 (State.writeBlocks p skip bs w s).1 := by
  induction bs with
  | nil => exact fun _ _ h => h
  | cons b bs ih =>
    intro w s h
    unfold State.writeBlocks
    dsimp only
    repeat' split
    all_goals first
      | exact h
      | exact writeRecords_does oR p _ _ _ _ _ h
      | exact ih _ (writeRecords_does oR p _ _ _ _ _ h)

theorem onExtract_does (oR : Obeys R [.exec]) (f : ExtractState → ExtractState) {s : State} (hR : R s0 s) :
    R s0 (State.onExtract f s) := by
  unfold State.onExtract
  try dsimp only
  repeat' first
    | assumption
    | exact oR.mono rfl
    | with_reducible apply onBody_does
    | fail
    | exact fun _ => ⟨rfl, rfl⟩
    | exact fun _ => rfl
    | exact fun _ _ => rfl
    | intro _
    | split

theorem extractLeave_does (oR : Obeys R [.exec, .cat]) (skipped : Bool) {s : State} (hR : R s0 s) :
    R s0 (State.extractLeave skipped s) := by
  unfold State.extractLeave
  try dsimp only
  repeat' first
    | assumption
    | exact oR.mono rfl
    | with_reducible apply unpinOp_does
    | with_reducible apply onExtract_does
    | fail
    | exact fun _ => ⟨rfl, rfl⟩
    | exact fun _ => rfl
    | exact fun _ _ => rfl
    | intro _
    | split

theorem extractGo_does (oR : Obeys R [.exec, .cat, .lanes, .scrub]) {s : State} (hR : R s0 s) :
    R s0 (State.extractGo s) := by
  unfold State.extractGo
  try dsimp only
  repeat' first
    | assumption
    | exact oR.mono rfl
    | with_reducible apply markFault_does
    | with_reducible apply issueFetch_does
    | with_reducible apply extractLeave_does
    | fail
    | exact fun _ => ⟨rfl, rfl⟩
    | exact fun _ => rfl
    | exact fun _ _ => rfl
    | intro _
    | split

theorem extractArrives_does (oR : Obeys R [.notes, .book, .desk, .buf, .exec, .cat, .lanes, .scrub]) (a : Arrival) {s : State} (hR : R s0 s) :
    R s0 (State.extractArrives a s) := by
  unfold State.extractArrives
  try dsimp only
  repeat' first
    | assumption
    | exact oR.mono rfl
    | with_reducible apply endAnswer_does
    | with_reducible apply unpin_does
    | with_reducible apply writeBlocks_does
    | with_reducible apply onExtract_does
    | with_reducible apply extractLeave_does
    | with_reducible apply extractGo_does
    | fail
    | exact fun _ => ⟨rfl, rfl⟩
    | exact fun _ => rfl
    | exact fun _ _ => rfl
    | intro _
    | split

theorem opArrives_does (oR : Obeys R [.notes, .book, .desk, .buf, .exec, .cat, .lanes, .scrub, .jnl]) (a : Arrival) {s : State} (hR : R s0 s) :
    R s0 (State.opArrives a s) := by
  unfold State.opArrives
  try dsimp only
  repeat' first
    | assumption
    | exact oR.mono rfl
    | with_reducible apply verifyArrives_does
    | with_reducible apply extractArrives_does
    | fail
    | exact fun _ => ⟨rfl, rfl⟩
    | exact fun _ => rfl
    | exact fun _ _ => rfl
    | intro _
    | split

theorem fetchDone_does (oR : Obeys R [.notes, .book, .desk, .buf, .exec, .cat, .lanes, .scrub, .jnl]) (r : Reader) (a : Arrival) {s : State} (hR : R s0 s) :
    R s0 (State.fetchDone r a s) := by
  unfold State.fetchDone
  try dsimp only
  repeat' first
    | assumption
    | exact oR.mono rfl
    | with_reducible apply onBody_does
    | with_reducible apply takeSuspension_does
    | with_reducible apply stopRunning_does
    | with_reducible apply setVisit_does
    | with_reducible apply verifyArrives_does
    | with_reducible apply opArrives_does
    | fail
    | exact fun _ => ⟨rfl, rfl⟩
    | exact fun _ => rfl
    | exact fun _ _ => rfl
    | intro _
    | split

theorem resumeKept_does (oR : Obeys R [.notes, .book, .desk, .buf, .exec, .cat, .lanes, .scrub, .jnl]) {s : State} (hR : R s0 s) :
    R s0 (State.resumeKept s) := by
  unfold State.resumeKept
  try dsimp only
  repeat' first
    | assumption
    | exact oR.mono rfl
    | with_reducible apply verifyEnd_does
    | with_reducible apply opArrives_does
    | fail
    | exact fun _ => ⟨rfl, rfl⟩
    | exact fun _ => rfl
    | exact fun _ _ => rfl
    | intro _
    | split

theorem nextLoop_does (oR : Obeys R [.notes, .book, .desk, .buf, .exec, .cat, .lanes, .scrub, .jnl]) (n : Nat) : ∀ {s : State}, R s0 s → R s0 (State.nextLoop n s) := by
  induction n with
  | zero => exact fun h => h
  | succ n ih =>
    intro s h
    unfold State.nextLoop
    split
    · exact h
    · split
      · exact ih (resumeKept_does (oR.mono rfl) (makeRunning_does (oR.mono rfl) _ h))
      · exact h

theorem nextOp_does (oR : Obeys R [.notes, .book, .desk, .buf, .exec, .cat, .lanes, .scrub, .jnl]) {s : State} (hR : R s0 s) :
    R s0 (State.nextOp s) := by
  unfold State.nextOp
  try dsimp only
  repeat' first
    | assumption
    | exact oR.mono rfl
    | with_reducible apply nextLoop_does
    | fail
    | exact fun _ => ⟨rfl, rfl⟩
    | exact fun _ => rfl
    | exact fun _ _ => rfl
    | intro _
    | split

theorem finishOp_does (oR : Obeys R [.notes, .book, .desk, .exec]) (adm : Nat) {s : State} (hR : R s0 s) :
    R s0 (State.finishOp adm s) := by
  unfold State.finishOp
  try dsimp only
  repeat' first
    | assumption
    | exact oR.mono rfl
    | with_reducible apply endAnswer_does
    | fail
    | exact fun _ => ⟨rfl, rfl⟩
    | exact fun _ => rfl
    | exact fun _ _ => rfl
    | intro _
    | split

theorem endWith_does (oR : Obeys R [.notes, .book, .desk, .exec, .lanes, .jnl]) (adm : Nat) (entries : List EntryBody) {s : State} (hR : R s0 s) :
    R s0 (State.endWith adm entries s) := by
  unfold State.endWith
  try dsimp only
  repeat' first
    | assumption
    | exact oR.mono rfl
    | with_reducible apply submit_does
    | with_reducible apply onRunning_does
    | with_reducible apply finishOp_does
    | fail
    | exact fun _ => ⟨rfl, rfl⟩
    | exact fun _ => rfl
    | exact fun _ _ => rfl
    | intro _
    | split

theorem runAct_does (oR : Obeys R [.notes, .book, .desk, .buf, .exec, .feed, .pool, .recon, .eds, .coder, .cat, .dir, .lanes, .scrub, .jnl]) (a : OnTake) {s : State} (hR : R s0 s) :
    R s0 (State.runAct a s) := by
  unfold State.runAct
  try dsimp only
  repeat' first
    | assumption
    | exact oR.mono rfl
    | with_reducible apply notice_does
    | with_reducible apply runCoder_does
    | with_reducible apply eraseDone_does
    | with_reducible apply chanDone_does
    | with_reducible apply chanOn_does
    | with_reducible apply lapEnd_does
    | with_reducible apply verdictDone_does
    | with_reducible apply nextOp_does
    | with_reducible apply finishOp_does
    | with_reducible apply setBinding_does
    | fail
    | exact fun _ => ⟨rfl, rfl⟩
    | exact fun _ => rfl
    | exact fun _ _ => rfl
    | intro _
    | split

theorem runActs_does (oR : Obeys R [.notes, .book, .desk, .buf, .exec, .feed, .pool, .recon, .eds, .coder, .cat, .dir, .lanes, .scrub, .jnl]) (as : List OnTake) : ∀ {s : State}, R s0 s → R s0 (State.runActs as s) := by
  induction as with
  | nil => exact fun h => h
  | cons a as ih => exact fun h => ih (runAct_does oR a h)

theorem drainLoop_does (oR : Obeys R [.notes, .book, .desk, .buf, .exec, .feed, .pool, .recon, .eds, .coder, .cat, .dir, .lanes, .scrub, .jnl]) (n : Nat) : ∀ {s : State}, R s0 s → R s0 (State.drainLoop n s) := by
  induction n with
  | zero => exact fun h => h
  | succ n ih =>
    intro s h
    unfold State.drainLoop
    split
    · exact h
    · split
      · exact ih (runActs_does (oR.mono rfl) _ (takeSubmission_does (oR.mono rfl) _ (onJnl_does (oR.mono rfl) _ (fun _ => ⟨rfl, rfl⟩) h)))
      · exact h

theorem drainLine_does (oR : Obeys R [.notes, .book, .desk, .buf, .exec, .feed, .pool, .recon, .eds, .coder, .cat, .dir, .lanes, .scrub, .jnl]) {s : State} (hR : R s0 s) :
    R s0 (State.drainLine s) := by
  unfold State.drainLine
  try dsimp only
  repeat' first
    | assumption
    | exact oR.mono rfl
    | with_reducible apply drainLoop_does
    | fail
    | exact fun _ => ⟨rfl, rfl⟩
    | exact fun _ => rfl
    | exact fun _ _ => rfl
    | intro _
    | split

theorem settle_does (oR : Obeys R [.notes, .desk, .feed, .pool, .coder, .dir, .lanes, .jnl]) {s : State} (hR : R s0 s) :
    R s0 (State.settle s) := by
  unfold State.settle
  try dsimp only
  repeat' first
    | assumption
    | exact oR.mono rfl
    | with_reducible apply pump_does
    | with_reducible apply runCoder_does
    | with_reducible apply resumeStalled_does
    | fail
    | exact fun _ => ⟨rfl, rfl⟩
    | exact fun _ => rfl
    | exact fun _ _ => rfl
    | intro _
    | split

theorem settleOps_does (oR : Obeys R [.notes, .book, .desk, .buf, .exec, .feed, .pool, .coder, .cat, .dir, .lanes, .scrub, .jnl]) {s : State} (hR : R s0 s) :
    R s0 (State.settleOps s) := by
  unfold State.settleOps
  try dsimp only
  repeat' first
    | assumption
    | exact oR.mono rfl
    | with_reducible apply nextOp_does
    | with_reducible apply settle_does
    | fail
    | exact fun _ => ⟨rfl, rfl⟩
    | exact fun _ => rfl
    | exact fun _ _ => rfl
    | intro _
    | split

theorem judgePass_does (oR : Obeys R [.notes, .desk, .eds, .cat, .dir, .lanes, .jnl]) (n : Nat) (g : Segment) (p : Pass) {s : State} (hR : R s0 s) :
    R s0 (State.judgePass n g p s).1 := by
  unfold State.judgePass
  try dsimp only
  repeat' first
    | assumption
    | exact oR.mono rfl
    | with_reducible apply setContent_does
    | with_reducible apply issueErase_does
    | fail
    | exact fun _ => ⟨rfl, rfl⟩
    | exact fun _ => rfl
    | exact fun _ _ => rfl
    | intro _
    | split

theorem passMove_does (oR : Obeys R [.notes, .book, .desk, .exec, .lanes, .jnl]) (o : Op) (p : Pass) {s : State} (hR : R s0 s) :
    R s0 (State.passMove o p s) := by
  unfold State.passMove
  try dsimp only
  repeat' first
    | assumption
    | exact oR.mono rfl
    | with_reducible apply onBody_does
    | with_reducible apply takeSuspension_does
    | with_reducible apply endWith_does
    | fail
    | exact fun _ => ⟨rfl, rfl⟩
    | exact fun _ => rfl
    | exact fun _ _ => rfl
    | intro _
    | split

theorem firstPoint_does (oR : Obeys R [.exec]) (o : Op) {s : State} (hR : R s0 s) :
    R s0 (State.firstPoint o s) := by
  unfold State.firstPoint
  try dsimp only
  repeat' first
    | assumption
    | exact oR.mono rfl
    | with_reducible apply takeSuspension_does
    | fail
    | exact fun _ => ⟨rfl, rfl⟩
    | exact fun _ => rfl
    | exact fun _ _ => rfl
    | intro _
    | split

theorem passJudges_does (oR : Obeys R [.notes, .book, .desk, .exec, .eds, .cat, .dir, .lanes, .jnl]) (o : Op) (p : Pass) {s : State} (hR : R s0 s) :
    R s0 (State.passJudges o p s) := by
  unfold State.passJudges
  try dsimp only
  repeat' first
    | assumption
    | exact oR.mono rfl
    | with_reducible apply takeSuspension_does
    | with_reducible apply judgePass_does
    | with_reducible apply passMove_does
    | with_reducible apply onBody_does
    | fail
    | exact fun _ => ⟨rfl, rfl⟩
    | exact fun _ => rfl
    | exact fun _ _ => rfl
    | intro _
    | split

theorem passStep_does (oR : Obeys R [.notes, .book, .desk, .exec, .eds, .cat, .dir, .lanes, .jnl]) {s : State} (hR : R s0 s) :
    R s0 (State.passStep s) := by
  unfold State.passStep
  try dsimp only
  repeat' first
    | assumption
    | exact oR.mono rfl
    | with_reducible apply takeSuspension_does
    | with_reducible apply passJudges_does
    | fail
    | exact fun _ => ⟨rfl, rfl⟩
    | exact fun _ => rfl
    | exact fun _ _ => rfl
    | intro _
    | split

theorem advanceDay_does (oR : Obeys R [.notes, .desk, .exec, .recon, .eds, .cat, .dir, .lanes, .ret, .jnl]) (o : Op) (newDay : Nat) {s : State} (hR : R s0 s) :
    R s0 (State.advanceDay o newDay s) := by
  unfold State.advanceDay
  try dsimp only
  repeat' first
    | assumption
    | exact oR.mono rfl
    | with_reducible apply post_does
    | with_reducible apply cut_does
    | with_reducible apply closeAll_does
    | with_reducible apply abandonHorizon_does
    | with_reducible apply onRunning_does
    | with_reducible apply onRet_does
    | fail
    | exact fun _ => ⟨rfl, rfl⟩
    | exact fun _ => rfl
    | exact fun _ _ => rfl
    | intro _
    | split

theorem raiseExpiry_does (oR : Obeys R [.cat]) (n : Nat) (grp : GroupNo) {s : State} (hR : R s0 s) :
    R s0 (State.raiseExpiry n grp s).1 := by
  unfold State.raiseExpiry
  try dsimp only
  repeat' first
    | assumption
    | exact oR.mono rfl
    | with_reducible apply onSegment_does
    | fail
    | exact fun _ => ⟨rfl, rfl⟩
    | exact fun _ => rfl
    | exact fun _ _ => rfl
    | intro _
    | split

theorem endWalk_does (oR : Obeys R [.notes, .book, .desk, .exec, .lanes, .ret, .jnl]) (o : Op) (grp : GroupNo) {s : State} (hR : R s0 s) :
    R s0 (State.endWalk o grp s) := by
  unfold State.endWalk
  try dsimp only
  repeat' first
    | assumption
    | exact oR.mono rfl
    | with_reducible apply endWith_does
    | with_reducible apply onRet_does
    | fail
    | exact fun _ => ⟨rfl, rfl⟩
    | exact fun _ => rfl
    | exact fun _ _ => rfl
    | intro _
    | split

theorem walkStep_does (oR : Obeys R [.notes, .book, .desk, .exec, .cat, .lanes, .ret, .jnl]) {s : State} (hR : R s0 s) :
    R s0 (State.walkStep s) := by
  unfold State.walkStep
  try dsimp only
  repeat' first
    | assumption
    | exact oR.mono rfl
    | with_reducible apply onBody_does
    | with_reducible apply takeSuspension_does
    | with_reducible apply raiseExpiry_does
    | with_reducible apply endWalk_does
    | fail
    | exact fun _ => ⟨rfl, rfl⟩
    | exact fun _ => rfl
    | exact fun _ _ => rfl
    | intro _
    | split

theorem verifyBegin_does (oR : Obeys R [.notes, .book, .desk, .exec]) {s : State} (hR : R s0 s) :
    R s0 (State.verifyBegin s) := by
  unfold State.verifyBegin
  try dsimp only
  repeat' first
    | assumption
    | exact oR.mono rfl
    | with_reducible apply onRunning_does
    | with_reducible apply endAnswer_does
    | fail
    | exact fun _ => ⟨rfl, rfl⟩
    | exact fun _ => rfl
    | exact fun _ _ => rfl
    | intro _
    | split

theorem verifyPass_does (oR : Obeys R [.notes, .book, .desk, .exec]) (skipped : Bool) {s : State} (hR : R s0 s) :
    R s0 (State.verifyPass skipped s) := by
  unfold State.verifyPass
  try dsimp only
  repeat' first
    | assumption
    | exact oR.mono rfl
    | with_reducible apply onBody_does
    | with_reducible apply verifyEnd_does
    | fail
    | exact fun _ => ⟨rfl, rfl⟩
    | exact fun _ => rfl
    | exact fun _ _ => rfl
    | intro _
    | split

theorem verifyStep_does (oR : Obeys R [.notes, .book, .desk, .exec, .cat, .lanes, .scrub, .jnl]) {s : State} (hR : R s0 s) :
    R s0 (State.verifyStep s) := by
  unfold State.verifyStep
  try dsimp only
  repeat' first
    | assumption
    | exact oR.mono rfl
    | with_reducible apply beginVisit_does
    | with_reducible apply verifyGo_does
    | with_reducible apply verifyPass_does
    | fail
    | exact fun _ => ⟨rfl, rfl⟩
    | exact fun _ => rfl
    | exact fun _ _ => rfl
    | intro _
    | split

theorem extractRead_does (oR : Obeys R [.exec, .cat, .lanes, .scrub]) (n : Nat) (g : Segment) {s : State} (hR : R s0 s) :
    R s0 (State.extractRead n g s) := by
  unfold State.extractRead
  try dsimp only
  repeat' first
    | assumption
    | exact oR.mono rfl
    | with_reducible apply beginVisit_does
    | with_reducible apply onExtract_does
    | with_reducible apply extractGo_does
    | fail
    | exact fun _ => ⟨rfl, rfl⟩
    | exact fun _ => rfl
    | exact fun _ _ => rfl
    | intro _
    | split

theorem extractResume_does (oR : Obeys R [.notes, .book, .desk, .exec, .cat, .lanes, .scrub]) (p : ExtractParams) (n blk i : Nat) {s : State} (hR : R s0 s) :
    R s0 (State.extractResume p n blk i s) := by
  unfold State.extractResume
  try dsimp only
  repeat' first
    | assumption
    | exact oR.mono rfl
    | with_reducible apply endAnswer_does
    | with_reducible apply onExtract_does
    | with_reducible apply extractRead_does
    | fail
    | exact fun _ => ⟨rfl, rfl⟩
    | exact fun _ => rfl
    | exact fun _ _ => rfl
    | intro _
    | split

theorem extractBegin_does (oR : Obeys R [.notes, .book, .desk, .exec, .cat, .lanes, .scrub]) {s : State} (hR : R s0 s) :
    R s0 (State.extractBegin s) := by
  unfold State.extractBegin
  try dsimp only
  repeat' first
    | assumption
    | exact oR.mono rfl
    | with_reducible apply onRunning_does
    | with_reducible apply endAnswer_does
    | with_reducible apply onExtract_does
    | with_reducible apply extractResume_does
    | fail
    | exact fun _ => ⟨rfl, rfl⟩
    | exact fun _ => rfl
    | exact fun _ _ => rfl
    | intro _
    | split

theorem extractEnd_does (oR : Obeys R [.notes, .book, .desk, .exec]) (p : ExtractParams) (st : ExtractState) {s : State} (hR : R s0 s) :
    R s0 (State.extractEnd p st s) := by
  unfold State.extractEnd
  try dsimp only
  repeat' first
    | assumption
    | exact oR.mono rfl
    | with_reducible apply endAnswer_does
    | fail
    | exact fun _ => ⟨rfl, rfl⟩
    | exact fun _ => rfl
    | exact fun _ _ => rfl
    | intro _
    | split

theorem extractStep_does (oR : Obeys R [.notes, .book, .desk, .exec, .cat, .lanes, .scrub]) {s : State} (hR : R s0 s) :
    R s0 (State.extractStep s) := by
  unfold State.extractStep
  try dsimp only
  repeat' first
    | assumption
    | exact oR.mono rfl
    | with_reducible apply onExtract_does
    | with_reducible apply extractRead_does
    | with_reducible apply extractEnd_does
    | fail
    | exact fun _ => ⟨rfl, rfl⟩
    | exact fun _ => rfl
    | exact fun _ _ => rfl
    | intro _
    | split

theorem catalogBegin_does (oR : Obeys R [.notes, .book, .desk, .exec]) {s : State} (hR : R s0 s) :
    R s0 (State.catalogBegin s) := by
  unfold State.catalogBegin
  try dsimp only
  repeat' first
    | assumption
    | exact oR.mono rfl
    | with_reducible apply onRunning_does
    | with_reducible apply endAnswer_does
    | with_reducible apply endSilent_does
    | with_reducible apply takeSuspension_does
    | fail
    | exact fun _ => ⟨rfl, rfl⟩
    | exact fun _ => rfl
    | exact fun _ _ => rfl
    | intro _
    | split

theorem catalogMove_does (oR : Obeys R [.notes, .book, .desk, .exec]) (sel : Selection) (buffer capacity cursor written : Nat) {s : State} (hR : R s0 s) :
    R s0 (State.catalogMove sel buffer capacity cursor written s) := by
  unfold State.catalogMove
  try dsimp only
  repeat' first
    | assumption
    | exact oR.mono rfl
    | with_reducible apply onBody_does
    | with_reducible apply endAnswer_does
    | with_reducible apply takeSuspension_does
    | fail
    | exact fun _ => ⟨rfl, rfl⟩
    | exact fun _ => rfl
    | exact fun _ _ => rfl
    | intro _
    | split

theorem catalogStep_does (oR : Obeys R [.notes, .book, .desk, .buf, .exec]) {s : State} (hR : R s0 s) : R s0 s.catalogStep := by
  unfold State.catalogStep
  split
  · split
    · split
      · exact endSilent_does (oR.mono rfl) hR
      · split
        · split
          · split
            · exact catalogMove_does (oR.mono rfl) _ _ _ _ _ (write_buf_does (oR.mono rfl) _ _ hR)
            · exact endAnswer_does (oR.mono rfl) _ _ hR
          · exact catalogMove_does (oR.mono rfl) _ _ _ _ _ hR
        · exact catalogMove_does (oR.mono rfl) _ _ _ _ _ hR
    · exact hR
  · exact hR

theorem journalMove_does (oR : Obeys R [.notes, .book, .desk, .exec]) (start stop next : Nat) {s : State} (hR : R s0 s) :
    R s0 (State.journalMove start stop next s) := by
  unfold State.journalMove
  try dsimp only
  repeat' first
    | assumption
    | exact oR.mono rfl
    | with_reducible apply endAnswer_does
    | with_reducible apply takeSuspension_does
    | fail
    | exact fun _ => ⟨rfl, rfl⟩
    | exact fun _ => rfl
    | exact fun _ _ => rfl
    | intro _
    | split

theorem journalBegin_does (oR : Obeys R [.notes, .book, .desk, .exec]) {s : State} (hR : R s0 s) :
    R s0 (State.journalBegin s) := by
  unfold State.journalBegin
  try dsimp only
  repeat' first
    | assumption
    | exact oR.mono rfl
    | with_reducible apply onRunning_does
    | with_reducible apply endAnswer_does
    | with_reducible apply endSilent_does
    | with_reducible apply journalMove_does
    | fail
    | exact fun _ => ⟨rfl, rfl⟩
    | exact fun _ => rfl
    | exact fun _ _ => rfl
    | intro _
    | split

theorem journalStep_does (oR : Obeys R [.notes, .book, .desk, .buf, .exec]) {s : State} (hR : R s0 s) :
    R s0 (State.journalStep s) := by
  unfold State.journalStep
  try dsimp only
  repeat' first
    | assumption
    | exact oR.mono rfl
    | with_reducible apply onBody_does
    | with_reducible apply endAnswer_does
    | with_reducible apply endSilent_does
    | with_reducible apply journalMove_does
    | with_reducible apply write_buf_does
    | fail
    | exact fun _ => ⟨rfl, rfl⟩
    | exact fun _ => rfl
    | exact fun _ _ => rfl
    | intro _
    | split

theorem requestSweep_does (oR : Obeys R [.book]) {s : State} (hR : R s0 s) :
    R s0 (State.requestSweep s) := by
  unfold State.requestSweep
  try dsimp only
  repeat' first
    | assumption
    | exact oR.mono rfl
    | with_reducible apply desk_book_does
    | (intro d; exact ⟨rfl, rfl, rfl, rfl, rfl⟩)
    | exact fun _ => ⟨rfl, rfl⟩
    | exact fun _ => rfl
    | exact fun _ _ => rfl
    | intro _
    | split

theorem writePeriod_does (oR : Obeys R [.regs]) (v : Word32) {s : State} (hR : R s0 s) : R s0 (State.writePeriod v s) :=
  regs_does oR _ hR

theorem timerExpires_does (oR : Obeys R [.book]) {s : State} (hR : R s0 s) :
    R s0 (State.timerExpires s) := by
  unfold State.timerExpires
  try dsimp only
  repeat' first
    | assumption
    | exact oR.mono rfl
    | with_reducible apply requestSweep_does
    | with_reducible apply desk_book_does
    | (intro d; exact ⟨rfl, rfl, rfl, rfl, rfl⟩)
    | exact fun _ => ⟨rfl, rfl⟩
    | exact fun _ => rfl
    | exact fun _ _ => rfl
    | intro _
    | split

theorem timerTick_does (oR : Obeys R [.book]) {s : State} (hR : R s0 s) :
    R s0 (State.timerTick s) := by
  unfold State.timerTick
  try dsimp only
  repeat' first
    | assumption
    | exact oR.mono rfl
    | with_reducible apply timerExpires_does
    | with_reducible apply desk_book_does
    | (intro d; exact ⟨rfl, rfl, rfl, rfl, rfl⟩)
    | exact fun _ => ⟨rfl, rfl⟩
    | exact fun _ => rfl
    | exact fun _ _ => rfl
    | intro _
    | split

theorem detachChan_does (oR : Obeys R [.notes, .book, .desk, .feed, .pool, .recon, .coder, .dir, .lanes, .jnl]) (c : ChanNo) {s : State} (hR : R s0 s) :
    R s0 (State.detachChan c s) := by
  unfold State.detachChan
  try dsimp only
  repeat' first
    | assumption
    | exact oR.mono rfl
    | with_reducible apply abort_does
    | with_reducible apply onChan_does
    | fail
    | exact fun _ => ⟨rfl, rfl⟩
    | exact fun _ => rfl
    | exact fun _ _ => rfl
    | intro _
    | split

theorem deskChange_does (oR : Obeys R [.notes, .book, .place, .desk, .exec, .feed, .pool, .recon, .coder, .dir, .lanes, .jnl]) {s : State} (hR : R s0 s) : R s0 s.deskChange := by
  unfold State.deskChange
  dsimp only
  refine desk_place_does (oR.mono rfl) _ (fun _ => ⟨rfl, rfl, rfl⟩) (detachOps_does (oR.mono rfl) (foldl_does _ (fun _ c h =>
    detachChan_does (oR.mono rfl) c h) _ ?_))
  exact desk_place_does (oR.mono rfl) _ (fun _ => ⟨rfl, rfl, rfl⟩) (onFeed_does (oR.mono rfl) _ hR)

theorem writeBase_does (oR : Obeys R [.notes, .book, .place, .desk, .exec, .feed, .pool, .recon, .coder, .dir, .lanes, .jnl, .regs]) (v : Word64) {s : State} (hR : R s0 s) : R s0 (State.writeBase v s) := by
  have h1 : R s0 (s.onDesk fun d => { d with base := takenBase v }) := regs_does (oR.mono rfl) _ hR
  unfold State.writeBase
  dsimp only
  split
  · exact desk_book_does (oR.mono rfl) _ (fun _ => ⟨rfl, rfl, rfl, rfl, rfl⟩) h1
  · exact deskChange_does (oR.mono rfl) h1

theorem takeBase_does (oR : Obeys R [.regs]) (v : Word64) {s : State} (hR : R s0 s) : R s0 (State.takeBase v s) :=
  regs_does oR _ hR

theorem beginLap_does (oR : Obeys R [.scrub]) {s : State} (hR : R s0 s) :
    R s0 (State.beginLap s) := by
  unfold State.beginLap
  try dsimp only
  repeat' first
    | assumption
    | exact oR.mono rfl
    | with_reducible apply onScrub_does
    | fail
    | exact fun _ => ⟨rfl, rfl⟩
    | exact fun _ => rfl
    | exact fun _ _ => rfl
    | intro _
    | split

theorem takeSettings_does (oR : Obeys R [.book, .dir, .lanes, .scrub]) (h : List Byte) {s : State} (hR : R s0 s) :
    R s0 (State.takeSettings h s) := by
  unfold State.takeSettings
  try dsimp only
  repeat' first
    | assumption
    | exact oR.mono rfl
    | with_reducible apply takeWatch_does
    | with_reducible apply beginLap_does
    | with_reducible apply onLanes_does
    | with_reducible apply onScrub_does
    | with_reducible apply desk_book_does
    | (intro d; exact ⟨rfl, rfl, rfl, rfl, rfl⟩)
    | exact fun _ => ⟨rfl, rfl⟩
    | exact fun _ => rfl
    | exact fun _ _ => rfl
    | intro _
    | split

theorem rebuildEntry_does (oR : Obeys R [.book, .desk]) (i : SlipNo) {s : State} (hR : R s0 s) :
    R s0 (State.rebuildEntry i s) := by
  unfold State.rebuildEntry
  try dsimp only
  repeat' first
    | assumption
    | exact oR.mono rfl
    | with_reducible apply setMap_does
    | fail
    | exact fun _ => ⟨rfl, rfl⟩
    | exact fun _ => rfl
    | exact fun _ _ => rfl
    | intro _
    | split

theorem rebuildMap_does (oR : Obeys R [.book, .desk]) {s : State} (hR : R s0 s) : R s0 s.rebuildMap :=
  foldl_does _ (fun _ i h => rebuildEntry_does oR i h) _ hR

theorem onSweep_does (oR : Obeys R [.book]) (f : Sweep → Sweep) {s : State} (hR : R s0 s) :
    R s0 (State.onSweep f s) := by
  unfold State.onSweep
  try dsimp only
  repeat' first
    | assumption
    | exact oR.mono rfl
    | with_reducible apply desk_book_does
    | (intro d; exact ⟨rfl, rfl, rfl, rfl, rfl⟩)
    | exact fun _ => ⟨rfl, rfl⟩
    | exact fun _ => rfl
    | exact fun _ _ => rfl
    | intro _
    | split

theorem addLong_does (oR : Obeys R [.book]) (o : Op) {s : State} (hR : R s0 s) :
    R s0 (State.addLong o s) := by
  unfold State.addLong
  try dsimp only
  repeat' first
    | assumption
    | exact oR.mono rfl
    | with_reducible apply onSweep_does
    | fail
    | exact fun _ => ⟨rfl, rfl⟩
    | exact fun _ => rfl
    | exact fun _ _ => rfl
    | intro _
    | split

theorem addQuick_does (oR : Obeys R [.book]) (a : Admitted) {s : State} (hR : R s0 s) :
    R s0 (State.addQuick a s) := by
  unfold State.addQuick
  try dsimp only
  repeat' first
    | assumption
    | exact oR.mono rfl
    | with_reducible apply onSweep_does
    | fail
    | exact fun _ => ⟨rfl, rfl⟩
    | exact fun _ => rfl
    | exact fun _ _ => rfl
    | intro _
    | split

theorem addFeed_does (oR : Obeys R [.book]) (a : Admitted) {s : State} (hR : R s0 s) :
    R s0 (State.addFeed a s) := by
  unfold State.addFeed
  try dsimp only
  repeat' first
    | assumption
    | exact oR.mono rfl
    | with_reducible apply desk_book_does
    | (intro d; exact ⟨rfl, rfl, rfl, rfl, rfl⟩)
    | exact fun _ => ⟨rfl, rfl⟩
    | exact fun _ => rfl
    | exact fun _ _ => rfl
    | intro _
    | split

theorem admitRetain_does (oR : Obeys R [.book, .ret]) (a : Admitted) {s : State} (hR : R s0 s) :
    R s0 (State.admitRetain a s) := by
  unfold State.admitRetain
  try dsimp only
  repeat' first
    | assumption
    | exact oR.mono rfl
    | with_reducible apply addLong_does
    | with_reducible apply addQuick_does
    | with_reducible apply onRet_does
    | fail
    | exact fun _ => ⟨rfl, rfl⟩
    | exact fun _ => rfl
    | exact fun _ _ => rfl
    | intro _
    | split

theorem dispatch_does (oR : Obeys R [.book, .ret]) (a : Admitted) {s : State} (hR : R s0 s) :
    R s0 (State.dispatch a s) := by
  unfold State.dispatch
  try dsimp only
  repeat' first
    | assumption
    | exact oR.mono rfl
    | with_reducible apply addLong_does
    | with_reducible apply addQuick_does
    | with_reducible apply addFeed_does
    | with_reducible apply admitRetain_does
    | fail
    | exact fun _ => ⟨rfl, rfl⟩
    | exact fun _ => rfl
    | exact fun _ _ => rfl
    | intro _
    | split

theorem takeSlipMark_does (oR : Obeys R [.book, .desk]) (i : SlipNo) {s : State} (hR : R s0 s) :
    R s0 (State.takeSlipMark i s) := by
  unfold State.takeSlipMark
  try dsimp only
  repeat' first
    | assumption
    | exact oR.mono rfl
    | with_reducible apply setMark_does
    | with_reducible apply setHeld_does
    | with_reducible apply desk_book_does
    | (intro d; exact ⟨rfl, rfl, rfl, rfl, rfl⟩)
    | exact fun _ => ⟨rfl, rfl⟩
    | exact fun _ => rfl
    | exact fun _ _ => rfl
    | intro _
    | split

theorem judgeSlip_does (oR : Obeys R [.notes, .book, .desk, .ret]) (i : SlipNo) (prio adm : Nat) (k : Kind) {s : State} (hR : R s0 s) :
    R s0 (State.judgeSlip i prio adm k s) := by
  unfold State.judgeSlip
  try dsimp only
  repeat' first
    | assumption
    | exact oR.mono rfl
    | with_reducible apply answer_does
    | with_reducible apply dispatch_does
    | fail
    | exact fun _ => ⟨rfl, rfl⟩
    | exact fun _ => rfl
    | exact fun _ _ => rfl
    | intro _
    | split

theorem admitSlip_does (oR : Obeys R [.notes, .book, .desk, .ret]) (i : SlipNo) {s : State} (hR : R s0 s) :
    R s0 (State.admitSlip i s) := by
  unfold State.admitSlip
  try dsimp only
  repeat' first
    | assumption
    | exact oR.mono rfl
    | with_reducible apply answer_does
    | with_reducible apply takeSlipMark_does
    | with_reducible apply judgeSlip_does
    | fail
    | exact fun _ => ⟨rfl, rfl⟩
    | exact fun _ => rfl
    | exact fun _ _ => rfl
    | intro _
    | split

theorem withdraw_does (oR : Obeys R [.notes, .book, .desk, .buf, .exec, .feed, .pool, .recon, .coder, .cat, .dir, .lanes, .scrub, .jnl]) (i : SlipNo) {s : State} (hR : R s0 s) :
    R s0 (State.withdraw i s) := by
  unfold State.withdraw
  try dsimp only
  repeat' first
    | assumption
    | exact oR.mono rfl
    | with_reducible apply releaseSlip_does
    | with_reducible apply abort_does
    | with_reducible apply withdrawOp_does
    | with_reducible apply nextOp_does
    | with_reducible apply desk_book_does
    | (intro d; exact ⟨rfl, rfl, rfl, rfl, rfl⟩)
    | exact fun _ => ⟨rfl, rfl⟩
    | exact fun _ => rfl
    | exact fun _ _ => rfl
    | intro _
    | split

theorem rereadSlip_does (oR : Obeys R [.notes, .book, .desk, .feed, .pool, .recon, .coder, .dir, .lanes, .jnl]) (i : SlipNo) {s : State} (hR : R s0 s) :
    R s0 (State.rereadSlip i s) := by
  unfold State.rereadSlip
  try dsimp only
  repeat' first
    | assumption
    | exact oR.mono rfl
    | with_reducible apply rereadMarks_does
    | fail
    | exact fun _ => ⟨rfl, rfl⟩
    | exact fun _ => rfl
    | exact fun _ _ => rfl
    | intro _
    | split

theorem clearEntry_does (oR : Obeys R [.book, .desk]) (i : SlipNo) (m : Byte) {s : State} (hR : R s0 s) :
    R s0 (State.clearEntry i m s) := by
  unfold State.clearEntry
  try dsimp only
  repeat' first
    | assumption
    | exact oR.mono rfl
    | with_reducible apply setMap_does
    | fail
    | exact fun _ => ⟨rfl, rfl⟩
    | exact fun _ => rfl
    | exact fun _ _ => rfl
    | intro _
    | split

theorem dealSlip_does (oR : Obeys R [.notes, .book, .desk, .buf, .exec, .feed, .pool, .recon, .coder, .cat, .dir, .lanes, .ret, .scrub, .jnl]) (first : Bool) (i : SlipNo) {s : State} (hR : R s0 s) :
    R s0 (State.dealSlip first i s) := by
  unfold State.dealSlip
  try dsimp only
  repeat' first
    | assumption
    | exact oR.mono rfl
    | with_reducible apply setHeld_does
    | with_reducible apply writeAnswer_does
    | with_reducible apply admitSlip_does
    | with_reducible apply withdraw_does
    | with_reducible apply rereadSlip_does
    | with_reducible apply clearEntry_does
    | fail
    | exact fun _ => ⟨rfl, rfl⟩
    | exact fun _ => rfl
    | exact fun _ _ => rfl
    | intro _
    | split

theorem writeFields_does (oR : Obeys R [.desk]) {s : State} (hR : R s0 s) : R s0 s.writeFields := by
  have h1 : R s0 (s.hostWrite (s.desk.place + 8)
      (leBytes 2 s.ret.day ++ unsignedField 2 s.pagesInUse ++ unsignedField 4 s.freeCount)) :=
    write_desk_does (oR.mono rfl) _ _ (by omega)
      (by rw [List.length_append, List.length_append, leBytes_length, unsignedField_length, unsignedField_length]; omega) hR
  unfold State.writeFields
  dsimp only
  split
  · exact foldl_does _ (fun _ c h => writeCounter_does (oR.mono rfl) c h) _ h1
  · exact h1

theorem handOverLong_does (oR : Obeys R [.notes, .book, .desk, .buf, .exec, .cat, .lanes, .scrub, .jnl]) {s : State} (hR : R s0 s) :
    R s0 (State.handOverLong s) := by
  unfold State.handOverLong
  try dsimp only
  repeat' first
    | assumption
    | exact oR.mono rfl
    | with_reducible apply handOverAll_does
    | with_reducible apply nextOp_does
    | with_reducible apply onSweep_does
    | fail
    | exact fun _ => ⟨rfl, rfl⟩
    | exact fun _ => rfl
    | exact fun _ _ => rfl
    | intro _
    | split

theorem finishSweep_does (oR : Obeys R [.notes, .book, .place, .desk, .buf, .exec, .feed, .pool, .recon, .coder, .cat, .dir, .lanes, .scrub, .jnl]) {s : State} (hR : R s0 s) : R s0 s.finishSweep := by
  have h1 : R s0 (s.handOverLong.writeFields.openGate.onDesk fun d => { d with sweep := none, first := false }) :=
    desk_book_does (oR.mono rfl) _ (fun _ => ⟨rfl, rfl, rfl, rfl, rfl⟩) (openGate_does (oR.mono rfl)
      (writeFields_does (oR.mono rfl) (handOverLong_does (oR.mono rfl) hR)))
  unfold State.finishSweep
  dsimp only
  split
  · exact deskChange_does (oR.mono rfl) h1
  · exact h1

theorem sweepGoesOn_does (oR : Obeys R [.notes, .book, .place, .desk, .buf, .exec, .feed, .pool, .recon, .coder, .cat, .dir, .lanes, .scrub, .jnl]) {s : State} (hR : R s0 s) :
    R s0 (State.sweepGoesOn s) := by
  unfold State.sweepGoesOn
  try dsimp only
  repeat' first
    | assumption
    | exact oR.mono rfl
    | with_reducible apply finishSweep_does
    | fail
    | exact fun _ => ⟨rfl, rfl⟩
    | exact fun _ => rfl
    | exact fun _ _ => rfl
    | intro _
    | split

theorem beginSweep_does (oR : Obeys R [.notes, .book, .place, .desk, .buf, .exec, .feed, .pool, .recon, .coder, .cat, .dir, .lanes, .ret, .scrub, .jnl]) {s : State} (hR : R s0 s) : R s0 s.beginSweep := by
  have h1 : R s0 (s.onDesk fun d => { d with asked := false }) :=
    desk_book_does (oR.mono rfl) _ (fun _ => ⟨rfl, rfl, rfl, rfl, rfl⟩) hR
  unfold State.beginSweep
  split
  · exact hR
  · dsimp only
    split
    · exact h1
    · refine sweepGoesOn_does (oR.mono rfl) (foldl_does _ (fun _ i h => dealSlip_does (oR.mono rfl) _ i h) _ ?_)
      have h2 := desk_book_does (oR.mono rfl) (fun d => { d with sweep := some { quick := [], long := [] } })
        (fun _ => ⟨rfl, rfl, rfl, rfl, rfl⟩) (takeSettings_does (oR.mono rfl) ((s.onDesk fun d => { d with asked := false }).hostBytes
          (s.onDesk fun d => { d with asked := false }).desk.place 8) h1)
      split
      · exact rebuildMap_does (oR.mono rfl) h2
      · exact h2

theorem quickDone_does (oR : Obeys R [.notes, .book, .place, .desk, .buf, .exec, .feed, .pool, .recon, .coder, .cat, .dir, .lanes, .scrub, .jnl]) {s : State} (hR : R s0 s) :
    R s0 (State.quickDone s) := by
  unfold State.quickDone
  try dsimp only
  repeat' first
    | assumption
    | exact oR.mono rfl
    | with_reducible apply onSweep_does
    | with_reducible apply sweepGoesOn_does
    | fail
    | exact fun _ => ⟨rfl, rfl⟩
    | exact fun _ => rfl
    | exact fun _ _ => rfl
    | intro _
    | split

theorem runQuick_does (oR : Obeys R [.notes, .book, .place, .desk, .buf, .exec, .feed, .pool, .recon, .coder, .cat, .dir, .lanes, .scrub, .jnl]) (k : Kind) (effect : Admitted → State → State)
    (he : ∀ a (s : State), R s0 s → R s0 (effect a s)) {s : State} (hR : R s0 s) : R s0 (State.runQuick k effect s) := by
  unfold State.runQuick
  split
  · exact settleOps_does (oR.mono rfl) (quickDone_does (oR.mono rfl) (he _ _ hR))
  · exact hR

theorem reply_does (oR : Obeys R [.notes, .book, .desk]) (a : Admitted) (st : Status) (values : List Byte) {s : State} (hR : R s0 s) :
    R s0 (State.reply a st values s) := by
  unfold State.reply
  try dsimp only
  repeat' first
    | assumption
    | exact oR.mono rfl
    | with_reducible apply answer_does
    | fail
    | exact fun _ => ⟨rfl, rfl⟩
    | exact fun _ => rfl
    | exact fun _ _ => rfl
    | intro _
    | split

theorem doClose_does (oR : Obeys R [.notes, .book, .desk, .eds, .cat, .dir, .lanes, .jnl]) (a : Admitted) {s : State} (hR : R s0 s) :
    R s0 (State.doClose a s) := by
  unfold State.doClose
  try dsimp only
  repeat' first
    | assumption
    | exact oR.mono rfl
    | with_reducible apply closeAll_does
    | with_reducible apply reply_does
    | fail
    | exact fun _ => ⟨rfl, rfl⟩
    | exact fun _ => rfl
    | exact fun _ _ => rfl
    | intro _
    | split

theorem doShorten_does (oR : Obeys R [.notes, .book, .desk, .lanes, .ret, .jnl]) (a : Admitted) {s : State} (hR : R s0 s) :
    R s0 (State.doShorten a s) := by
  unfold State.doShorten
  try dsimp only
  repeat' first
    | assumption
    | exact oR.mono rfl
    | with_reducible apply log_does
    | with_reducible apply reply_does
    | with_reducible apply onRet_does
    | fail
    | exact fun _ => ⟨rfl, rfl⟩
    | exact fun _ => rfl
    | exact fun _ _ => rfl
    | intro _
    | split

theorem doClassmap_does (oR : Obeys R [.notes, .book, .desk, .lanes, .ret, .jnl]) (a : Admitted) {s : State} (hR : R s0 s) :
    R s0 (State.doClassmap a s) := by
  unfold State.doClassmap
  try dsimp only
  repeat' first
    | assumption
    | exact oR.mono rfl
    | with_reducible apply log_does
    | with_reducible apply reply_does
    | with_reducible apply onRet_does
    | fail
    | exact fun _ => ⟨rfl, rfl⟩
    | exact fun _ => rfl
    | exact fun _ _ => rfl
    | intro _
    | split

theorem withdrawErases_does (oR : Obeys R [.cat, .lanes]) (ts : List (Nat × Segment)) :
    ∀ {s : State}, R s0 s → R s0 (State.withdrawErases ts s).1 := by
  induction ts with
  | nil => exact fun h => h
  | cons t ts ih =>
    intro s h
    unfold State.withdrawErases
    dsimp only
    split
    · exact ih (setContent_does (oR.mono rfl) _ _ (removeErase_does (oR.mono rfl) _ h))
    · exact ih h

theorem doHold_does (oR : Obeys R [.notes, .book, .desk, .cat, .lanes, .holds, .jnl]) (a : Admitted) {s : State} (hR : R s0 s) :
    R s0 (State.doHold a s) := by
  unfold State.doHold
  try dsimp only
  repeat' first
    | assumption
    | exact oR.mono rfl
    | with_reducible apply log_does
    | with_reducible apply reply_does
    | with_reducible apply withdrawErases_does
    | with_reducible apply holds_does
    | fail
    | exact fun _ => ⟨rfl, rfl⟩
    | exact fun _ => rfl
    | exact fun _ _ => rfl
    | intro _
    | split

theorem doRelease_does (oR : Obeys R [.notes, .book, .desk, .lanes, .holds, .jnl]) (a : Admitted) {s : State} (hR : R s0 s) :
    R s0 (State.doRelease a s) := by
  unfold State.doRelease
  try dsimp only
  repeat' first
    | assumption
    | exact oR.mono rfl
    | with_reducible apply log_does
    | with_reducible apply reply_does
    | with_reducible apply holds_does
    | fail
    | exact fun _ => ⟨rfl, rfl⟩
    | exact fun _ => rfl
    | exact fun _ _ => rfl
    | intro _
    | split

theorem replyEdition_does (oR : Obeys R [.notes, .book, .desk]) (a : Admitted) {x : State × Option (SlotNo × Word32)} (hR : R s0 x.1) :
    R s0 (replyEdition a x) := by
  unfold State.replyEdition
  split
  · exact reply_does (oR.mono rfl) a _ _ hR
  · exact reply_does (oR.mono rfl) a _ _ hR

theorem doCut_does (oR : Obeys R [.notes, .book, .desk, .eds, .lanes, .jnl]) (a : Admitted) {s : State} (hR : R s0 s) : R s0 (State.doCut a s) :=
  replyEdition_does (oR.mono rfl) a (cut_does (oR.mono rfl) .slip hR)

theorem doEditionLoad_does (oR : Obeys R [.notes, .book, .desk, .eds, .lanes, .jnl]) (a : Admitted) {s : State} (hR : R s0 s) :
    R s0 (State.doEditionLoad a s) := by
  unfold State.doEditionLoad
  dsimp only
  repeat' split
  all_goals first
    | exact reply_does (oR.mono rfl) a _ _ hR
    | exact replyEdition_does (oR.mono rfl) a (install_does (oR.mono rfl) _ .load hR)

theorem doContextRead_does (oR : Obeys R [.notes, .book, .desk]) (a : Admitted) {s : State} (hR : R s0 s) :
    R s0 (State.doContextRead a s) := by
  unfold State.doContextRead
  try dsimp only
  repeat' first
    | assumption
    | exact oR.mono rfl
    | with_reducible apply reply_does
    | fail
    | exact fun _ => ⟨rfl, rfl⟩
    | exact fun _ => rfl
    | exact fun _ _ => rfl
    | intro _
    | split

theorem doContextWrite_does (oR : Obeys R [.notes, .book, .desk, .recon, .lanes, .jnl]) (a : Admitted) {s : State} (hR : R s0 s) :
    R s0 (State.doContextWrite a s) := by
  unfold State.doContextWrite
  try dsimp only
  repeat' first
    | assumption
    | exact oR.mono rfl
    | with_reducible apply log_does
    | with_reducible apply setSwitch_does
    | with_reducible apply reply_does
    | with_reducible apply onRecon_does
    | fail
    | exact fun _ => ⟨rfl, rfl⟩
    | exact fun _ => rfl
    | exact fun _ _ => rfl
    | intro _
    | split

theorem endRoomWaits_does (oR : Obeys R [.exec, .scrub]) {s : State} (hR : R s0 s) :
    R s0 (State.endRoomWaits s) := by
  unfold State.endRoomWaits
  try dsimp only
  repeat' first
    | assumption
    | exact oR.mono rfl
    | with_reducible apply onExec_does
    | with_reducible apply onScrub_does
    | fail
    | exact fun _ => ⟨rfl, rfl⟩
    | exact fun _ => rfl
    | exact fun _ _ => rfl
    | intro _
    | split

theorem doJournalRelease_does (oR : Obeys R [.notes, .book, .desk, .buf, .exec, .feed, .pool, .recon, .eds, .coder, .cat, .dir, .lanes, .scrub, .jnl, .marks]) (a : Admitted) {s : State} (hR : R s0 s) :
    R s0 (State.doJournalRelease a s) := by
  unfold State.doJournalRelease
  try dsimp only
  repeat' first
    | assumption
    | exact oR.mono rfl
    | with_reducible apply endRoomWaits_does
    | with_reducible apply releaseTo_does
    | with_reducible apply drainLine_does
    | with_reducible apply reply_does
    | fail
    | exact fun _ => ⟨rfl, rfl⟩
    | exact fun _ => rfl
    | exact fun _ _ => rfl
    | intro _
    | split

theorem doResolve_does (oR : Obeys R [.notes, .book, .desk, .cat, .lanes, .jnl]) (a : Admitted) {s : State} (hR : R s0 s) :
    R s0 (State.doResolve a s) := by
  unfold State.doResolve
  try dsimp only
  repeat' first
    | assumption
    | exact oR.mono rfl
    | with_reducible apply log_does
    | with_reducible apply onSegment_does
    | with_reducible apply reply_does
    | fail
    | exact fun _ => ⟨rfl, rfl⟩
    | exact fun _ => rfl
    | exact fun _ _ => rfl
    | intro _
    | split

theorem doSettings_does (oR : Obeys R [.notes, .book, .desk, .eds, .lanes, .ret, .jnl]) (a : Admitted) {s : State} (hR : R s0 s) :
    R s0 (State.doSettings a s) := by
  unfold State.doSettings
  try dsimp only
  repeat' first
    | assumption
    | exact oR.mono rfl
    | with_reducible apply log_does
    | with_reducible apply cut_does
    | with_reducible apply reply_does
    | with_reducible apply onRet_does
    | fail
    | exact fun _ => ⟨rfl, rfl⟩
    | exact fun _ => rfl
    | exact fun _ _ => rfl
    | intro _
    | split

theorem queueErases_does (oR : Obeys R [.lanes]) {s : State} (hR : R s0 s) : R s0 s.queueErases := by
  refine foldl_does _ (fun t l h => ?_) _ hR
  split
  · exact onLane_does oR l _ (fun _ => rfl) h
  · exact h

theorem formatAccept_does (oR : Obeys R [.exec, .dir, .lanes, .format]) {s : State} (hR : R s0 s) : R s0 s.formatAccept := by
  unfold State.formatAccept
  refine onRunning_does (oR.mono rfl) _ (queueErases_does (oR.mono rfl) (dir_does (oR.mono rfl) _ (fun _ => ⟨rfl, rfl⟩) ?_))
  exact oR.trans hR (oR.ok .format (by simp) _ _ rfl rfl rfl rfl rfl rfl rfl (by intro h; first | exact h | rfl | decide))

theorem formatBegin_does (oR : Obeys R [.notes, .book, .desk, .exec, .dir, .lanes, .format]) {s : State} (hR : R s0 s) : R s0 s.formatBegin := by
  unfold State.formatBegin
  split
  · split
    · split
      · exact endAnswer_does (oR.mono rfl) _ _ hR
      · split
        · exact endAnswer_does (oR.mono rfl) _ _ hR
        · split
          · exact endAnswer_does (oR.mono rfl) _ _ hR
          · exact formatAccept_does (oR.mono rfl) hR
    · exact hR
  · exact hR

theorem formatDone_does (oR : Obeys R [.notes, .book, .desk, .exec, .dir, .lanes, .jnl, .format]) (p : FormatParams) {s : State} (hR : R s0 s) :
    R s0 (State.formatDone p s) := by
  unfold State.formatDone
  dsimp only
  refine endAnswer_does (oR.mono rfl) _ _ ?_
  refine oR.trans (postEach_does (oR.mono rfl) .block _ (setSide_does (oR.mono rfl) ?_))
    (oR.ok .format (by simp) _ _ rfl rfl rfl rfl rfl rfl rfl (by intro h; first | exact h | rfl | decide))
  exact oR.trans hR (oR.ok .format (by simp) _ _ rfl rfl rfl rfl rfl rfl rfl (by intro h; first | exact h | rfl | decide))

theorem formatErased_does (oR : Obeys R [.notes, .book, .desk, .exec, .dir, .lanes, .jnl, .format]) (n : Nat) (ok : Bool) {s : State} (hR : R s0 s) :
    R s0 (State.formatErased n ok s) := by
  unfold State.formatErased
  dsimp only
  repeat' (first | apply formatDone_does (oR.mono rfl) | exact dir_does (oR.mono rfl) _ (fun _ => ⟨rfl, rfl⟩) hR | split)

theorem dropWorking_does (oR : Obeys R [.place, .format]) {s : State} (hR : R s0 s) : R s0 s.dropWorking :=
  oR.trans (desk_place_does (oR.mono rfl) restartDesk (fun _ => ⟨rfl, rfl, rfl⟩) hR)
    (oR.ok .format (by simp) _ _ rfl rfl rfl rfl rfl rfl rfl (by intro h; first | exact h | rfl | decide))

theorem becomeBlank_does (oR : Obeys R [.format]) (cause : StartCause) {s : State} (hR : R s0 s) :
    R s0 (State.becomeBlank cause s) := by
  cases cause <;> exact oR.trans hR (oR.ok .format (by simp) _ _ rfl rfl rfl rfl rfl rfl rfl (by intro h; first | exact h | rfl | decide))

theorem recoverJournal_does (oR : Obeys R [.notes, .desk, .lanes, .jnl]) (cause : StartCause) {s : State} (hR : R s0 s) :
    R s0 (State.recoverJournal cause s) := by
  unfold State.recoverJournal
  try dsimp only
  repeat' first
    | assumption
    | exact oR.mono rfl
    | with_reducible apply notice_does
    | with_reducible apply formRun_does
    | with_reducible apply submit_does
    | fail
    | exact fun _ => ⟨rfl, rfl⟩
    | exact fun _ => rfl
    | exact fun _ _ => rfl
    | intro _
    | split

theorem onSegments_does (oR : Obeys R [.cat]) (f : Segment → Segment) {s : State} (hR : R s0 s) :
    R s0 (State.onSegments f s) := by
  unfold State.onSegments
  try dsimp only
  repeat' first
    | assumption
    | exact oR.mono rfl
    | with_reducible apply onCat_does
    | fail
    | exact fun _ => ⟨rfl, rfl⟩
    | exact fun _ => rfl
    | exact fun _ _ => rfl
    | intro _
    | split

theorem reissueAll_does (oR : Obeys R [.notes, .desk, .eds, .cat, .dir, .lanes, .jnl]) (ns : List Nat) : ∀ {s : State}, R s0 s → R s0 (State.reissueAll ns s) := by
  induction ns with
  | nil => exact fun h => h
  | cons n ns ih => exact fun h => ih (issueErase_does oR n h)

theorem recoverCatalog_does (oR : Obeys R [.notes, .desk, .eds, .cat, .dir, .lanes, .jnl]) {s : State} (hR : R s0 s) :
    R s0 (State.recoverCatalog s) := by
  unfold State.recoverCatalog
  try dsimp only
  repeat' first
    | assumption
    | exact oR.mono rfl
    | with_reducible apply closeAll_does
    | with_reducible apply onSegments_does
    | with_reducible apply reissueAll_does
    | fail
    | exact fun _ => ⟨rfl, rfl⟩
    | exact fun _ => rfl
    | exact fun _ _ => rfl
    | intro _
    | split

theorem abortBinding_does (oR : Obeys R [.notes, .desk, .feed, .lanes, .jnl]) (c : ChanNo) {s : State} (hR : R s0 s) :
    R s0 (State.abortBinding c s) := by
  unfold State.abortBinding
  try dsimp only
  repeat' first
    | assumption
    | exact oR.mono rfl
    | with_reducible apply post_does
    | with_reducible apply postEach_does
    | with_reducible apply setBinding_does
    | fail
    | exact fun _ => ⟨rfl, rfl⟩
    | exact fun _ => rfl
    | exact fun _ _ => rfl
    | intro _
    | split

theorem recoverFeed_does (oR : Obeys R [.notes, .desk, .feed, .pool, .lanes, .jnl]) {s : State} (hR : R s0 s) : R s0 s.recoverFeed :=
  foldl_does _ (fun _ c h => abortBinding_does (oR.mono rfl) c h) _
    (freePages_does (oR.mono rfl) (mapPages_does (oR.mono rfl) _ (fun p => by unfold State.recoverPage; dsimp only; split <;> rfl) hR))

theorem recoverRecon_does (oR : Obeys R [.recon]) {s : State} (hR : R s0 s) :
    R s0 (State.recoverRecon s) := by
  unfold State.recoverRecon
  try dsimp only
  repeat' first
    | assumption
    | exact oR.mono rfl
    | with_reducible apply onRecon_does
    | fail
    | exact fun _ => ⟨rfl, rfl⟩
    | exact fun _ => rfl
    | exact fun _ _ => rfl
    | intro _
    | split

theorem recountSlot_does (oR : Obeys R [.notes, .desk, .eds, .lanes, .jnl]) (i : SlotNo) {s : State} (hR : R s0 s) :
    R s0 (State.recountSlot i s) := by
  unfold State.recountSlot
  try dsimp only
  repeat' first
    | assumption
    | exact oR.mono rfl
    | with_reducible apply dropEdition_does
    | with_reducible apply onSlot_does
    | fail
    | exact fun _ => ⟨rfl, rfl⟩
    | exact fun _ => rfl
    | exact fun _ _ => rfl
    | intro _
    | split

theorem recoverEditions_does (oR : Obeys R [.notes, .desk, .eds, .lanes, .jnl]) {s : State} (hR : R s0 s) : R s0 s.recoverEditions :=
  foldl_does _ (fun _ i h => recountSlot_does oR i h) _ hR

theorem recoverRetention_does (oR : Obeys R [.exec]) {s : State} (hR : R s0 s) :
    R s0 (State.recoverRetention s) := by
  unfold State.recoverRetention
  try dsimp only
  repeat' first
    | assumption
    | exact oR.mono rfl
    | with_reducible apply onExec_does
    | fail
    | exact fun _ => ⟨rfl, rfl⟩
    | exact fun _ => rfl
    | exact fun _ _ => rfl
    | intro _
    | split

theorem recoverAudit_does (oR : Obeys R [.cat]) {s : State} (hR : R s0 s) :
    R s0 (State.recoverAudit s) := by
  unfold State.recoverAudit
  try dsimp only
  repeat' first
    | assumption
    | exact oR.mono rfl
    | with_reducible apply onSegments_does
    | fail
    | exact fun _ => ⟨rfl, rfl⟩
    | exact fun _ => rfl
    | exact fun _ _ => rfl
    | intro _
    | split

theorem recoverCoder_does (oR : Obeys R [.notes, .book, .desk, .buf, .exec, .feed, .pool, .coder, .cat, .dir, .lanes, .scrub, .jnl, .format]) {s : State} (hR : R s0 s) : R s0 s.recoverCoder :=
  settleOps_does (oR.mono rfl) (recovering_does (oR.mono rfl) .ready _ hR)

theorem restoration_does (oR : Obeys R [.notes, .book, .desk, .buf, .exec, .feed, .pool, .recon, .eds, .coder, .cat, .dir, .lanes, .scrub, .jnl, .format]) (cause : StartCause) (n : Nat) {s : State} (hR : R s0 s) :
    R s0 (State.restoration cause n s) := by
  unfold State.restoration
  split
  · exact recoverJournal_does (oR.mono rfl) cause hR
  · exact recoverCatalog_does (oR.mono rfl) hR
  · exact recoverFeed_does (oR.mono rfl) hR
  · exact recoverRecon_does (oR.mono rfl) hR
  · exact recoverEditions_does (oR.mono rfl) hR
  · exact recoverRetention_does (oR.mono rfl) hR
  · exact recoverAudit_does (oR.mono rfl) hR
  · exact recoverCoder_does (oR.mono rfl) hR

theorem restoreNext_does (oR : Obeys R [.notes, .book, .desk, .buf, .exec, .feed, .pool, .recon, .eds, .coder, .cat, .dir, .lanes, .scrub, .jnl, .format]) {s : State} (hR : R s0 s) : R s0 s.restoreNext := by
  unfold State.restoreNext
  split
  · exact pump_does (oR.mono rfl) (restoration_does (oR.mono rfl) _ _ (recovering_does (oR.mono rfl) s.engine _ hR))
  · exact hR

theorem restoreTimes_does (oR : Obeys R [.notes, .book, .desk, .buf, .exec, .feed, .pool, .recon, .eds, .coder, .cat, .dir, .lanes, .scrub, .jnl, .format]) (n : Nat) : ∀ {s : State}, R s0 s → R s0 (State.restoreTimes n s) := by
  induction n with
  | zero => exact fun h => h
  | succ n ih => exact fun h => ih (restoreNext_does oR h)

theorem recover_does (oR : Obeys R [.notes, .book, .desk, .buf, .exec, .feed, .pool, .recon, .eds, .coder, .cat, .dir, .lanes, .scrub, .jnl, .format]) (cause : StartCause) (made : Nat) {s : State} (hR : R s0 s) :
    R s0 (State.recover cause made s) :=
  restoreTimes_does (oR.mono rfl) made (recovering_does (oR.mono rfl) .recovering _ hR)

theorem startUp_does (oR : Obeys R [.notes, .book, .place, .desk, .buf, .exec, .feed, .pool, .recon, .eds, .coder, .cat, .dir, .lanes, .scrub, .jnl, .format, .media]) (cause : StartCause) (present : BitVec 16) (start : Start) {s : State}
    (hR : R s0 s) : R s0 (State.startUp cause present start s) := by
  have h1 := dropWorking_does (oR.mono rfl) (laneStart_does (oR.mono rfl) present (tear_does (oR.mono rfl) start.torn hR))
  unfold State.startUp
  dsimp only
  split
  · exact recover_does (oR.mono rfl) cause _ h1
  · exact becomeBlank_does (oR.mono rfl) cause h1

theorem powerUp_does (oR : Obeys R [.notes, .book, .place, .desk, .buf, .exec, .feed, .pool, .recon, .eds, .coder, .cat, .dir, .lanes, .scrub, .jnl, .format, .media, .regs, .power]) (present : BitVec 16) (start : Start) {s : State} (hR : R s0 s) :
    R s0 (State.powerUp present start s) :=
  startUp_does (oR.mono rfl) .powerOn present start (regs_does (oR.mono rfl) _ (power_does (oR.mono rfl) true hR))

theorem eraseEnds_does (oR : Obeys R [.notes, .book, .desk, .exec, .eds, .cat, .dir, .lanes, .jnl, .format]) (n : Nat) (ok : Bool) {s : State} (hR : R s0 s) :
    R s0 (State.eraseEnds n ok s) := by
  unfold State.eraseEnds
  try dsimp only
  repeat' first
    | assumption
    | exact oR.mono rfl
    | with_reducible apply eraseArrives_does
    | with_reducible apply formatErased_does
    | fail
    | exact fun _ => ⟨rfl, rfl⟩
    | exact fun _ => rfl
    | exact fun _ _ => rfl
    | intro _
    | split

theorem failRequest_does (oR : Obeys R [.notes, .book, .desk, .buf, .exec, .feed, .pool, .eds, .coder, .cat, .dir, .lanes, .scrub, .jnl, .format]) (r : Request) {s : State} (hR : R s0 s) :
    R s0 (State.failRequest r s) := by
  unfold State.failRequest
  try dsimp only
  repeat' first
    | assumption
    | exact oR.mono rfl
    | with_reducible apply formRun_does
    | with_reducible apply failRun_does
    | with_reducible apply markFault_does
    | with_reducible apply runCoder_does
    | with_reducible apply storeDone_does
    | with_reducible apply resumeStalled_does
    | with_reducible apply fetchDone_does
    | with_reducible apply nextOp_does
    | with_reducible apply eraseEnds_does
    | fail
    | exact fun _ => ⟨rfl, rfl⟩
    | exact fun _ => rfl
    | exact fun _ _ => rfl
    | intro _
    | split

theorem failAll_does (oR : Obeys R [.notes, .book, .desk, .buf, .exec, .feed, .pool, .eds, .coder, .cat, .dir, .lanes, .scrub, .jnl, .format]) (rs : List Request) : ∀ {s : State}, R s0 s → R s0 (State.failAll rs s) := by
  induction rs with
  | nil => exact fun h => h
  | cons r rs ih => exact fun h => ih (failRequest_does oR r h)

theorem goOffline_does (oR : Obeys R [.notes, .book, .desk, .buf, .exec, .feed, .pool, .eds, .coder, .cat, .dir, .lanes, .online, .scrub, .jnl, .format]) (l : LaneNo) {s : State} (hR : R s0 s) :
    R s0 (State.goOffline l s) := by
  unfold State.goOffline
  try dsimp only
  repeat' first
    | assumption
    | exact oR.mono rfl
    | with_reducible apply notice_does
    | with_reducible apply judgeWatch_does
    | with_reducible apply log_does
    | with_reducible apply failAll_does
    | with_reducible apply online_does
    | fail
    | exact fun _ => ⟨rfl, rfl⟩
    | exact fun _ => rfl
    | exact fun _ _ => rfl
    | intro _
    | split

theorem scrubJudges_does (oR : Obeys R [.notes, .book, .desk, .exec, .cat, .lanes, .scrub, .jnl]) {s : State} (hR : R s0 s) :
    R s0 (State.scrubJudges s) := by
  unfold State.scrubJudges
  try dsimp only
  repeat' first
    | assumption
    | exact oR.mono rfl
    | with_reducible apply beginVisit_does
    | with_reducible apply scrubAdvance_does
    | with_reducible apply verifyGo_does
    | with_reducible apply onScrub_does
    | fail
    | exact fun _ => ⟨rfl, rfl⟩
    | exact fun _ => rfl
    | exact fun _ _ => rfl
    | intro _
    | split

theorem scrubStep_does (oR : Obeys R [.notes, .book, .desk, .exec, .cat, .lanes, .scrub, .jnl]) {s : State} (hR : R s0 s) :
    R s0 (State.scrubStep s) := by
  unfold State.scrubStep
  try dsimp only
  repeat' first
    | assumption
    | exact oR.mono rfl
    | with_reducible apply scrubJudges_does
    | with_reducible apply onScrub_does
    | fail
    | exact fun _ => ⟨rfl, rfl⟩
    | exact fun _ => rfl
    | exact fun _ _ => rfl
    | intro _
    | split

end State

end Sys2Proof.Machine
end

