-- ==== Sys2Proof/Laws/Frames.lean ====
section
/-! SUPPORT. Frames: for each field, the parts whose operations leave it alone; with `_does` they give, in one citation, what an
operation leaves unchanged. -/

set_option linter.unusedTactic false
set_option linter.unreachableTactic false

namespace Sys2Proof.Machine

namespace State

/-- Two states agree in a field. -/
def Same {β : Type} (f : State → β) (a b : State) : Prop := f b = f a

theorem Same.obeys {β : Type} (f : State → β) (ps : List Part) (h : ∀ p ∈ ps, Respects (Same f) p) :
    Obeys (Same f) ps := ⟨fun h1 h2 => Eq.trans h2 h1, h⟩

theorem same_pending : Obeys (Same fun s => s.pending) [.notes, .book, .place, .desk, .buf, .exec, .feed, .pool, .recon, .eds, .coder, .cat, .dir, .lanes, .online, .ret, .holds, .scrub, .jnl, .marks, .format, .media, .regs, .bus, .power] := by
  refine Same.obeys _ _ fun p hp => ?_
  cases p <;> first
    | exact absurd hp (by decide)
    | (intro s f; rfl)
    | (intro s f hf; exact (hf _).1)
    | (intro s f hf; exact (hf _).2.1)
    | (intro s f hf; exact (hf _).2.2.1)
    | (intro s f hf; exact (hf _).2.2.2.1)
    | (intro s f hf; exact (hf _).2.2)
    | (intro s f hf; rfl)
    | (intro s f hf; exact (hf _).2)
    | (intro s t h1 h2 h3 h4 h5 h6 h7 _; first | exact h1 | exact h2 | exact h3 | exact h4 | exact h5 | exact h6 | exact h7)
    | (intro s a bs h1 h2; simp only [Same, hostWrite_pending]; done)
    | (intro s a bs; simp only [Same, hostWrite_pending]; done)

theorem same_powered : Obeys (Same fun s => s.powered) [.notes, .book, .place, .desk, .buf, .exec, .feed, .pool, .recon, .eds, .coder, .cat, .dir, .lanes, .online, .ret, .holds, .scrub, .jnl, .marks, .format, .media, .regs, .bus] := by
  refine Same.obeys _ _ fun p hp => ?_
  cases p <;> first
    | exact absurd hp (by decide)
    | (intro s f; rfl)
    | (intro s f hf; exact (hf _).1)
    | (intro s f hf; exact (hf _).2.1)
    | (intro s f hf; exact (hf _).2.2.1)
    | (intro s f hf; exact (hf _).2.2.2.1)
    | (intro s f hf; exact (hf _).2.2)
    | (intro s f hf; rfl)
    | (intro s f hf; exact (hf _).2)
    | (intro s t h1 h2 h3 h4 h5 h6 h7 _; first | exact h1 | exact h2 | exact h3 | exact h4 | exact h5 | exact h6 | exact h7)
    | (intro s a bs h1 h2; simp only [Same, hostWrite_powered]; done)
    | (intro s a bs; simp only [Same, hostWrite_powered]; done)

theorem same_base : Obeys (Same fun s => s.desk.base) [.notes, .book, .place, .desk, .buf, .exec, .feed, .pool, .recon, .eds, .coder, .cat, .dir, .lanes, .online, .ret, .holds, .scrub, .jnl, .marks, .format, .media, .bus, .power] := by
  refine Same.obeys _ _ fun p hp => ?_
  cases p <;> first
    | exact absurd hp (by decide)
    | (intro s f; rfl)
    | (intro s f hf; exact (hf _).1)
    | (intro s f hf; exact (hf _).2.1)
    | (intro s f hf; exact (hf _).2.2.1)
    | (intro s f hf; exact (hf _).2.2.2.1)
    | (intro s f hf; exact (hf _).2.2)
    | (intro s f hf; rfl)
    | (intro s f hf; have h1 := congrArg Desk.base (hf s.desk); exact h1)
    | (intro s f hf; exact (hf _).2)
    | (intro s t h1 h2 h3 h4 h5 h6 h7 _; first | exact h1 | exact h2 | exact h3 | exact h4 | exact h5 | exact h6 | exact h7)
    | (intro s a bs h1 h2; simp only [Same, hostWrite_desk]; done)
    | (intro s a bs; simp only [Same, hostWrite_desk]; done)

theorem same_period : Obeys (Same fun s => s.desk.period) [.notes, .book, .place, .desk, .buf, .exec, .feed, .pool, .recon, .eds, .coder, .cat, .dir, .lanes, .online, .ret, .holds, .scrub, .jnl, .marks, .format, .media, .bus, .power] := by
  refine Same.obeys _ _ fun p hp => ?_
  cases p <;> first
    | exact absurd hp (by decide)
    | (intro s f; rfl)
    | (intro s f hf; exact (hf _).1)
    | (intro s f hf; exact (hf _).2.1)
    | (intro s f hf; exact (hf _).2.2.1)
    | (intro s f hf; exact (hf _).2.2.2.1)
    | (intro s f hf; exact (hf _).2.2)
    | (intro s f hf; rfl)
    | (intro s f hf; have h1 := congrArg Desk.period (hf s.desk); exact h1)
    | (intro s f hf; exact (hf _).2)
    | (intro s t h1 h2 h3 h4 h5 h6 h7 _; first | exact h1 | exact h2 | exact h3 | exact h4 | exact h5 | exact h6 | exact h7)
    | (intro s a bs h1 h2; simp only [Same, hostWrite_desk]; done)
    | (intro s a bs; simp only [Same, hostWrite_desk]; done)

theorem same_media : Obeys (Same fun s => s.media) [.notes, .book, .place, .desk, .buf, .exec, .feed, .pool, .recon, .eds, .coder, .cat, .dir, .lanes, .online, .ret, .holds, .scrub, .jnl, .marks, .format, .regs, .bus, .power] := by
  refine Same.obeys _ _ fun p hp => ?_
  cases p <;> first
    | exact absurd hp (by decide)
    | (intro s f; rfl)
    | (intro s f hf; exact (hf _).1)
    | (intro s f hf; exact (hf _).2.1)
    | (intro s f hf; exact (hf _).2.2.1)
    | (intro s f hf; exact (hf _).2.2.2.1)
    | (intro s f hf; exact (hf _).2.2)
    | (intro s f hf; rfl)
    | (intro s f hf; exact (hf _).2)
    | (intro s t h1 h2 h3 h4 h5 h6 h7 _; first | exact h1 | exact h2 | exact h3 | exact h4 | exact h5 | exact h6 | exact h7)
    | (intro s a bs h1 h2; simp only [Same, hostWrite_media]; done)
    | (intro s a bs; simp only [Same, hostWrite_media]; done)

theorem same_place : Obeys (Same fun s => s.desk.place) [.notes, .book, .desk, .buf, .exec, .feed, .pool, .recon, .eds, .coder, .cat, .dir, .lanes, .online, .ret, .holds, .scrub, .jnl, .marks, .format, .media, .bus, .power] := by
  refine Same.obeys _ _ fun p hp => ?_
  cases p <;> first
    | exact absurd hp (by decide)
    | (intro s f; rfl)
    | (intro s f hf; exact (hf _).1)
    | (intro s f hf; exact (hf _).2.1)
    | (intro s f hf; exact (hf _).2.2.1)
    | (intro s f hf; exact (hf _).2.2.2.1)
    | (intro s f hf; exact (hf _).2.2)
    | (intro s f hf; rfl)
    | (intro s f hf; have h1 := congrArg Desk.place (hf s.desk); exact h1)
    | (intro s f hf; exact (hf _).2)
    | (intro s t h1 h2 h3 h4 h5 h6 h7 _; first | exact h1 | exact h2 | exact h3 | exact h4 | exact h5 | exact h6 | exact h7)
    | (intro s a bs h1 h2; simp only [Same, hostWrite_desk]; done)
    | (intro s a bs; simp only [Same, hostWrite_desk]; done)

theorem same_stamp : Obeys (Same fun s => s.stamp) [.notes, .book, .place, .desk, .buf, .exec, .feed, .pool, .recon, .eds, .coder, .cat, .dir, .lanes, .online, .ret, .holds, .scrub, .jnl, .marks, .media, .regs, .bus, .power] := by
  refine Same.obeys _ _ fun p hp => ?_
  cases p <;> first
    | exact absurd hp (by decide)
    | (intro s f; rfl)
    | (intro s f hf; exact (hf _).1)
    | (intro s f hf; exact (hf _).2.1)
    | (intro s f hf; exact (hf _).2.2.1)
    | (intro s f hf; exact (hf _).2.2.2.1)
    | (intro s f hf; exact (hf _).2.2)
    | (intro s f hf; rfl)
    | (intro s f hf; exact (hf _).2)
    | (intro s t h1 h2 h3 h4 h5 h6 h7 _; first | exact h1 | exact h2 | exact h3 | exact h4 | exact h5 | exact h6 | exact h7)
    | (intro s a bs h1 h2; simp only [Same, hostWrite_stamp]; done)
    | (intro s a bs; simp only [Same, hostWrite_stamp]; done)

theorem same_engine : Obeys (Same fun s => s.engine) [.notes, .book, .place, .desk, .buf, .exec, .feed, .pool, .recon, .eds, .coder, .cat, .dir, .lanes, .online, .ret, .holds, .scrub, .jnl, .marks, .media, .regs, .bus, .power] := by
  refine Same.obeys _ _ fun p hp => ?_
  cases p <;> first
    | exact absurd hp (by decide)
    | (intro s f; rfl)
    | (intro s f hf; exact (hf _).1)
    | (intro s f hf; exact (hf _).2.1)
    | (intro s f hf; exact (hf _).2.2.1)
    | (intro s f hf; exact (hf _).2.2.2.1)
    | (intro s f hf; exact (hf _).2.2)
    | (intro s f hf; rfl)
    | (intro s f hf; exact (hf _).2)
    | (intro s t h1 h2 h3 h4 h5 h6 h7 _; first | exact h1 | exact h2 | exact h3 | exact h4 | exact h5 | exact h6 | exact h7)
    | (intro s a bs h1 h2; simp only [Same, hostWrite_engine]; done)
    | (intro s a bs; simp only [Same, hostWrite_engine]; done)

theorem same_recovery : Obeys (Same fun s => s.recovery) [.notes, .book, .place, .desk, .buf, .exec, .feed, .pool, .recon, .eds, .coder, .cat, .dir, .lanes, .online, .ret, .holds, .scrub, .jnl, .marks, .media, .regs, .bus, .power] := by
  refine Same.obeys _ _ fun p hp => ?_
  cases p <;> first
    | exact absurd hp (by decide)
    | (intro s f; rfl)
    | (intro s f hf; exact (hf _).1)
    | (intro s f hf; exact (hf _).2.1)
    | (intro s f hf; exact (hf _).2.2.1)
    | (intro s f hf; exact (hf _).2.2.2.1)
    | (intro s f hf; exact (hf _).2.2)
    | (intro s f hf; rfl)
    | (intro s f hf; exact (hf _).2)
    | (intro s t h1 h2 h3 h4 h5 h6 h7 _; first | exact h1 | exact h2 | exact h3 | exact h4 | exact h5 | exact h6 | exact h7)
    | (intro s a bs h1 h2; simp only [Same, hostWrite_recovery]; done)
    | (intro s a bs; simp only [Same, hostWrite_recovery]; done)

theorem same_ret : Obeys (Same fun s => s.ret) [.notes, .book, .place, .desk, .buf, .exec, .feed, .pool, .recon, .eds, .coder, .cat, .dir, .lanes, .online, .scrub, .jnl, .marks, .media, .regs, .bus, .power] := by
  refine Same.obeys _ _ fun p hp => ?_
  cases p <;> first
    | exact absurd hp (by decide)
    | (intro s f; rfl)
    | (intro s f hf; exact (hf _).1)
    | (intro s f hf; exact (hf _).2.1)
    | (intro s f hf; exact (hf _).2.2.1)
    | (intro s f hf; exact (hf _).2.2.2.1)
    | (intro s f hf; exact (hf _).2.2)
    | (intro s f hf; rfl)
    | (intro s f hf; exact (hf _).2)
    | (intro s t h1 h2 h3 h4 h5 h6 h7 _; first | exact h1 | exact h2 | exact h3 | exact h4 | exact h5 | exact h6 | exact h7)
    | (intro s a bs h1 h2; simp only [Same, hostWrite_ret]; done)
    | (intro s a bs; simp only [Same, hostWrite_ret]; done)

theorem same_holds : Obeys (Same fun s => s.ret.holds) [.notes, .book, .place, .desk, .buf, .exec, .feed, .pool, .recon, .eds, .coder, .cat, .dir, .lanes, .online, .ret, .scrub, .jnl, .marks, .media, .regs, .bus, .power] := by
  refine Same.obeys _ _ fun p hp => ?_
  cases p <;> first
    | exact absurd hp (by decide)
    | (intro s f; rfl)
    | (intro s f hf; exact (hf _).1)
    | (intro s f hf; exact (hf _).2.1)
    | (intro s f hf; exact (hf _).2.2.1)
    | (intro s f hf; exact (hf _).2.2.2.1)
    | (intro s f hf; exact (hf _).2.2)
    | (intro s f hf; rfl)
    | (intro s f hf; exact hf _)
    | (intro s f hf; exact (hf _).2)
    | (intro s t h1 h2 h3 h4 h5 h6 h7 _; first | exact h1 | exact h2 | exact h3 | exact h4 | exact h5 | exact h6 | exact h7)
    | (intro s a bs h1 h2; simp only [Same, hostWrite_ret]; done)
    | (intro s a bs; simp only [Same, hostWrite_ret]; done)

theorem same_recon : Obeys (Same fun s => s.recon) [.notes, .book, .place, .desk, .buf, .exec, .feed, .pool, .eds, .coder, .cat, .dir, .lanes, .online, .ret, .holds, .scrub, .jnl, .marks, .media, .regs, .bus, .power] := by
  refine Same.obeys _ _ fun p hp => ?_
  cases p <;> first
    | exact absurd hp (by decide)
    | (intro s f; rfl)
    | (intro s f hf; exact (hf _).1)
    | (intro s f hf; exact (hf _).2.1)
    | (intro s f hf; exact (hf _).2.2.1)
    | (intro s f hf; exact (hf _).2.2.2.1)
    | (intro s f hf; exact (hf _).2.2)
    | (intro s f hf; rfl)
    | (intro s f hf; exact (hf _).2)
    | (intro s t h1 h2 h3 h4 h5 h6 h7 _; first | exact h1 | exact h2 | exact h3 | exact h4 | exact h5 | exact h6 | exact h7)
    | (intro s a bs h1 h2; simp only [Same, hostWrite_recon]; done)
    | (intro s a bs; simp only [Same, hostWrite_recon]; done)

theorem same_eds : Obeys (Same fun s => s.eds) [.notes, .book, .place, .desk, .buf, .exec, .feed, .pool, .recon, .coder, .cat, .dir, .lanes, .online, .ret, .holds, .scrub, .jnl, .marks, .media, .regs, .bus, .power] := by
  refine Same.obeys _ _ fun p hp => ?_
  cases p <;> first
    | exact absurd hp (by decide)
    | (intro s f; rfl)
    | (intro s f hf; exact (hf _).1)
    | (intro s f hf; exact (hf _).2.1)
    | (intro s f hf; exact (hf _).2.2.1)
    | (intro s f hf; exact (hf _).2.2.2.1)
    | (intro s f hf; exact (hf _).2.2)
    | (intro s f hf; rfl)
    | (intro s f hf; exact (hf _).2)
    | (intro s t h1 h2 h3 h4 h5 h6 h7 _; first | exact h1 | exact h2 | exact h3 | exact h4 | exact h5 | exact h6 | exact h7)
    | (intro s a bs h1 h2; simp only [Same, hostWrite_eds]; done)
    | (intro s a bs; simp only [Same, hostWrite_eds]; done)

theorem same_feed : Obeys (Same fun s => s.feed) [.notes, .book, .place, .desk, .buf, .exec, .pool, .recon, .eds, .coder, .cat, .dir, .lanes, .online, .ret, .holds, .scrub, .jnl, .marks, .media, .regs, .bus, .power] := by
  refine Same.obeys _ _ fun p hp => ?_
  cases p <;> first
    | exact absurd hp (by decide)
    | (intro s f; rfl)
    | (intro s f hf; exact (hf _).1)
    | (intro s f hf; exact (hf _).2.1)
    | (intro s f hf; exact (hf _).2.2.1)
    | (intro s f hf; exact (hf _).2.2.2.1)
    | (intro s f hf; exact (hf _).2.2)
    | (intro s f hf; rfl)
    | (intro s f hf; exact (hf _).2)
    | (intro s t h1 h2 h3 h4 h5 h6 h7 _; first | exact h1 | exact h2 | exact h3 | exact h4 | exact h5 | exact h6 | exact h7)
    | (intro s a bs h1 h2; simp only [Same, hostWrite_feed]; done)
    | (intro s a bs; simp only [Same, hostWrite_feed]; done)

theorem same_pool : Obeys (Same fun s => s.pool) [.notes, .book, .place, .desk, .buf, .exec, .feed, .recon, .eds, .coder, .cat, .dir, .lanes, .online, .ret, .holds, .scrub, .jnl, .marks, .media, .regs, .bus, .power] := by
  refine Same.obeys _ _ fun p hp => ?_
  cases p <;> first
    | exact absurd hp (by decide)
    | (intro s f; rfl)
    | (intro s f hf; exact (hf _).1)
    | (intro s f hf; exact (hf _).2.1)
    | (intro s f hf; exact (hf _).2.2.1)
    | (intro s f hf; exact (hf _).2.2.2.1)
    | (intro s f hf; exact (hf _).2.2)
    | (intro s f hf; rfl)
    | (intro s f hf; exact (hf _).2)
    | (intro s t h1 h2 h3 h4 h5 h6 h7 _; first | exact h1 | exact h2 | exact h3 | exact h4 | exact h5 | exact h6 | exact h7)
    | (intro s a bs h1 h2; simp only [Same, hostWrite_pool]; done)
    | (intro s a bs; simp only [Same, hostWrite_pool]; done)

theorem same_coder : Obeys (Same fun s => s.coder) [.notes, .book, .place, .desk, .buf, .exec, .feed, .pool, .recon, .eds, .cat, .dir, .lanes, .online, .ret, .holds, .scrub, .jnl, .marks, .media, .regs, .bus, .power] := by
  refine Same.obeys _ _ fun p hp => ?_
  cases p <;> first
    | exact absurd hp (by decide)
    | (intro s f; rfl)
    | (intro s f hf; exact (hf _).1)
    | (intro s f hf; exact (hf _).2.1)
    | (intro s f hf; exact (hf _).2.2.1)
    | (intro s f hf; exact (hf _).2.2.2.1)
    | (intro s f hf; exact (hf _).2.2)
    | (intro s f hf; rfl)
    | (intro s f hf; exact (hf _).2)
    | (intro s t h1 h2 h3 h4 h5 h6 h7 _; first | exact h1 | exact h2 | exact h3 | exact h4 | exact h5 | exact h6 | exact h7)
    | (intro s a bs h1 h2; simp only [Same, hostWrite_coder]; done)
    | (intro s a bs; simp only [Same, hostWrite_coder]; done)

theorem same_cat : Obeys (Same fun s => s.cat) [.notes, .book, .place, .desk, .buf, .exec, .feed, .pool, .recon, .eds, .coder, .lanes, .online, .ret, .holds, .scrub, .jnl, .marks, .media, .regs, .bus, .power] := by
  refine Same.obeys _ _ fun p hp => ?_
  cases p <;> first
    | exact absurd hp (by decide)
    | (intro s f; rfl)
    | (intro s f hf; exact (hf _).1)
    | (intro s f hf; exact (hf _).2.1)
    | (intro s f hf; exact (hf _).2.2.1)
    | (intro s f hf; exact (hf _).2.2.2.1)
    | (intro s f hf; exact (hf _).2.2)
    | (intro s f hf; rfl)
    | (intro s f hf; exact (hf _).2)
    | (intro s t h1 h2 h3 h4 h5 h6 h7 _; first | exact h1 | exact h2 | exact h3 | exact h4 | exact h5 | exact h6 | exact h7)
    | (intro s a bs h1 h2; simp only [Same, hostWrite_cat]; done)
    | (intro s a bs; simp only [Same, hostWrite_cat]; done)

theorem same_usable : Obeys (Same fun s => s.cat.usable) [.notes, .book, .place, .desk, .buf, .exec, .feed, .pool, .recon, .eds, .coder, .cat, .dir, .lanes, .online, .ret, .holds, .scrub, .jnl, .marks, .media, .regs, .bus, .power] := by
  refine Same.obeys _ _ fun p hp => ?_
  cases p <;> first
    | exact absurd hp (by decide)
    | (intro s f; rfl)
    | (intro s f hf; exact (hf _).1)
    | (intro s f hf; exact (hf _).2.1)
    | (intro s f hf; exact (hf _).2.2.1)
    | (intro s f hf; exact (hf _).2.2.2.1)
    | (intro s f hf; exact (hf _).2.2)
    | (intro s f hf; rfl)
    | (intro s f hf; exact hf _)
    | (intro s f hf; exact (hf _).2)
    | (intro s t h1 h2 h3 h4 h5 h6 h7 _; first | exact h1 | exact h2 | exact h3 | exact h4 | exact h5 | exact h6 | exact h7)
    | (intro s a bs h1 h2; simp only [Same, hostWrite_cat]; done)
    | (intro s a bs; simp only [Same, hostWrite_cat]; done)

theorem same_table : Obeys (Same fun s => s.cat.table) [.notes, .book, .place, .desk, .buf, .exec, .feed, .pool, .recon, .eds, .coder, .dir, .lanes, .online, .ret, .holds, .scrub, .jnl, .marks, .media, .regs, .bus, .power] := by
  refine Same.obeys _ _ fun p hp => ?_
  cases p <;> first
    | exact absurd hp (by decide)
    | (intro s f; rfl)
    | (intro s f hf; exact (hf _).1)
    | (intro s f hf; exact (hf _).2.1)
    | (intro s f hf; exact (hf _).2.2.1)
    | (intro s f hf; exact (hf _).2.2.2.1)
    | (intro s f hf; exact (hf _).2.2)
    | (intro s f hf; rfl)
    | (intro s f hf; exact (hf _).2)
    | (intro s t h1 h2 h3 h4 h5 h6 h7 _; first | exact h1 | exact h2 | exact h3 | exact h4 | exact h5 | exact h6 | exact h7)
    | (intro s a bs h1 h2; simp only [Same, hostWrite_cat]; done)
    | (intro s a bs; simp only [Same, hostWrite_cat]; done)

theorem same_lanes : Obeys (Same fun s => s.lanes) [.notes, .book, .place, .desk, .buf, .exec, .feed, .pool, .recon, .eds, .coder, .cat, .dir, .ret, .holds, .scrub, .jnl, .marks, .media, .regs, .bus, .power] := by
  refine Same.obeys _ _ fun p hp => ?_
  cases p <;> first
    | exact absurd hp (by decide)
    | (intro s f; rfl)
    | (intro s f hf; exact (hf _).1)
    | (intro s f hf; exact (hf _).2.1)
    | (intro s f hf; exact (hf _).2.2.1)
    | (intro s f hf; exact (hf _).2.2.2.1)
    | (intro s f hf; exact (hf _).2.2)
    | (intro s f hf; rfl)
    | (intro s f hf; exact (hf _).2)
    | (intro s t h1 h2 h3 h4 h5 h6 h7 _; first | exact h1 | exact h2 | exact h3 | exact h4 | exact h5 | exact h6 | exact h7)
    | (intro s a bs h1 h2; simp only [Same, hostWrite_lanes]; done)
    | (intro s a bs; simp only [Same, hostWrite_lanes]; done)

theorem same_exec : Obeys (Same fun s => s.exec) [.notes, .book, .place, .desk, .buf, .feed, .pool, .recon, .eds, .coder, .cat, .dir, .lanes, .online, .ret, .holds, .scrub, .jnl, .marks, .media, .regs, .bus, .power] := by
  refine Same.obeys _ _ fun p hp => ?_
  cases p <;> first
    | exact absurd hp (by decide)
    | (intro s f; rfl)
    | (intro s f hf; exact (hf _).1)
    | (intro s f hf; exact (hf _).2.1)
    | (intro s f hf; exact (hf _).2.2.1)
    | (intro s f hf; exact (hf _).2.2.2.1)
    | (intro s f hf; exact (hf _).2.2)
    | (intro s f hf; rfl)
    | (intro s f hf; exact (hf _).2)
    | (intro s t h1 h2 h3 h4 h5 h6 h7 _; first | exact h1 | exact h2 | exact h3 | exact h4 | exact h5 | exact h6 | exact h7)
    | (intro s a bs h1 h2; simp only [Same, hostWrite_exec]; done)
    | (intro s a bs; simp only [Same, hostWrite_exec]; done)

theorem same_scrub : Obeys (Same fun s => s.scrub) [.notes, .book, .place, .desk, .buf, .exec, .feed, .pool, .recon, .eds, .coder, .cat, .dir, .lanes, .online, .ret, .holds, .jnl, .marks, .media, .regs, .bus, .power] := by
  refine Same.obeys _ _ fun p hp => ?_
  cases p <;> first
    | exact absurd hp (by decide)
    | (intro s f; rfl)
    | (intro s f hf; exact (hf _).1)
    | (intro s f hf; exact (hf _).2.1)
    | (intro s f hf; exact (hf _).2.2.1)
    | (intro s f hf; exact (hf _).2.2.2.1)
    | (intro s f hf; exact (hf _).2.2)
    | (intro s f hf; rfl)
    | (intro s f hf; exact (hf _).2)
    | (intro s t h1 h2 h3 h4 h5 h6 h7 _; first | exact h1 | exact h2 | exact h3 | exact h4 | exact h5 | exact h6 | exact h7)
    | (intro s a bs h1 h2; simp only [Same, hostWrite_scrub]; done)
    | (intro s a bs; simp only [Same, hostWrite_scrub]; done)

theorem same_jnl : Obeys (Same fun s => s.jnl) [.notes, .book, .place, .desk, .buf, .exec, .feed, .pool, .recon, .eds, .coder, .cat, .dir, .lanes, .online, .ret, .holds, .scrub, .media, .regs, .bus, .power] := by
  refine Same.obeys _ _ fun p hp => ?_
  cases p <;> first
    | exact absurd hp (by decide)
    | (intro s f; rfl)
    | (intro s f hf; exact (hf _).1)
    | (intro s f hf; exact (hf _).2.1)
    | (intro s f hf; exact (hf _).2.2.1)
    | (intro s f hf; exact (hf _).2.2.2.1)
    | (intro s f hf; exact (hf _).2.2)
    | (intro s f hf; rfl)
    | (intro s f hf; exact (hf _).2)
    | (intro s t h1 h2 h3 h4 h5 h6 h7 _; first | exact h1 | exact h2 | exact h3 | exact h4 | exact h5 | exact h6 | exact h7)
    | (intro s a bs h1 h2; simp only [Same, hostWrite_jnl]; done)
    | (intro s a bs; simp only [Same, hostWrite_jnl]; done)

theorem same_release : Obeys (Same fun s => s.jnl.release) [.notes, .book, .place, .desk, .buf, .exec, .feed, .pool, .recon, .eds, .coder, .cat, .dir, .lanes, .online, .ret, .holds, .scrub, .jnl, .media, .regs, .bus, .power] := by
  refine Same.obeys _ _ fun p hp => ?_
  cases p <;> first
    | exact absurd hp (by decide)
    | (intro s f; rfl)
    | (intro s f hf; exact (hf _).1)
    | (intro s f hf; exact (hf _).2.1)
    | (intro s f hf; exact (hf _).2.2.1)
    | (intro s f hf; exact (hf _).2.2.2.1)
    | (intro s f hf; exact (hf _).2.2)
    | (intro s f hf; rfl)
    | (intro s f hf; exact (hf _).2)
    | (intro s t h1 h2 h3 h4 h5 h6 h7 _; first | exact h1 | exact h2 | exact h3 | exact h4 | exact h5 | exact h6 | exact h7)
    | (intro s a bs h1 h2; simp only [Same, hostWrite_jnl]; done)
    | (intro s a bs; simp only [Same, hostWrite_jnl]; done)

theorem same_settled : Obeys (Same fun s => s.jnl.settled) [.notes, .book, .place, .desk, .buf, .exec, .feed, .pool, .recon, .eds, .coder, .cat, .dir, .lanes, .online, .ret, .holds, .scrub, .jnl, .media, .regs, .bus, .power] := by
  refine Same.obeys _ _ fun p hp => ?_
  cases p <;> first
    | exact absurd hp (by decide)
    | (intro s f; rfl)
    | (intro s f hf; exact (hf _).1)
    | (intro s f hf; exact (hf _).2.1)
    | (intro s f hf; exact (hf _).2.2.1)
    | (intro s f hf; exact (hf _).2.2.2.1)
    | (intro s f hf; exact (hf _).2.2)
    | (intro s f hf; rfl)
    | (intro s f hf; exact (hf _).2)
    | (intro s t h1 h2 h3 h4 h5 h6 h7 _; first | exact h1 | exact h2 | exact h3 | exact h4 | exact h5 | exact h6 | exact h7)
    | (intro s a bs h1 h2; simp only [Same, hostWrite_jnl]; done)
    | (intro s a bs; simp only [Same, hostWrite_jnl]; done)

theorem same_counters : Obeys (Same fun s => s.desk.counters) [.book, .place, .desk, .buf, .exec, .feed, .pool, .recon, .eds, .coder, .cat, .dir, .lanes, .online, .ret, .holds, .scrub, .jnl, .marks, .media, .bus, .power] := by
  refine Same.obeys _ _ fun p hp => ?_
  cases p <;> first
    | exact absurd hp (by decide)
    | (intro s f; rfl)
    | (intro s f hf; exact (hf _).1)
    | (intro s f hf; exact (hf _).2.1)
    | (intro s f hf; exact (hf _).2.2.1)
    | (intro s f hf; exact (hf _).2.2.2.1)
    | (intro s f hf; exact (hf _).2.2)
    | (intro s f hf; rfl)
    | (intro s f hf; have h1 := congrArg Desk.counters (hf s.desk); exact h1)
    | (intro s f hf; exact (hf _).2)
    | (intro s t h1 h2 h3 h4 h5 h6 h7 _; first | exact h1 | exact h2 | exact h3 | exact h4 | exact h5 | exact h6 | exact h7)
    | (intro s a bs h1 h2; simp only [Same, hostWrite_desk]; done)
    | (intro s a bs; simp only [Same, hostWrite_desk]; done)

theorem same_fails : Obeys (Same fun s => s.fails) [.notes, .book, .place, .desk, .buf, .exec, .feed, .pool, .recon, .eds, .coder, .cat, .dir, .lanes, .online, .ret, .holds, .scrub, .jnl, .marks, .media, .regs, .power] := by
  refine Same.obeys _ _ fun p hp => ?_
  cases p <;> first
    | exact absurd hp (by decide)
    | (intro s f; rfl)
    | (intro s f hf; exact (hf _).1)
    | (intro s f hf; exact (hf _).2.1)
    | (intro s f hf; exact (hf _).2.2.1)
    | (intro s f hf; exact (hf _).2.2.2.1)
    | (intro s f hf; exact (hf _).2.2)
    | (intro s f hf; rfl)
    | (intro s f hf; exact (hf _).2)
    | (intro s t h1 h2 h3 h4 h5 h6 h7 _; first | exact h1 | exact h2 | exact h3 | exact h4 | exact h5 | exact h6 | exact h7)
    | (intro s a bs h1 h2; simp only [Same, hostWrite_fails]; done)
    | (intro s a bs; simp only [Same, hostWrite_fails]; done)

theorem same_fresh : Obeys (Same fun s => s.fresh) [.notes, .book, .place, .desk, .buf, .exec, .feed, .pool, .recon, .eds, .coder, .cat, .dir, .lanes, .online, .ret, .holds, .scrub, .jnl, .marks, .media, .regs, .power] := by
  refine Same.obeys _ _ fun p hp => ?_
  cases p <;> first
    | exact absurd hp (by decide)
    | (intro s f; rfl)
    | (intro s f hf; exact (hf _).1)
    | (intro s f hf; exact (hf _).2.1)
    | (intro s f hf; exact (hf _).2.2.1)
    | (intro s f hf; exact (hf _).2.2.2.1)
    | (intro s f hf; exact (hf _).2.2)
    | (intro s f hf; rfl)
    | (intro s f hf; exact (hf _).2)
    | (intro s t h1 h2 h3 h4 h5 h6 h7 _; first | exact h1 | exact h2 | exact h3 | exact h4 | exact h5 | exact h6 | exact h7)
    | (intro s a bs h1 h2; simp only [Same, hostWrite_fresh]; done)
    | (intro s a bs; simp only [Same, hostWrite_fresh]; done)

theorem same_mem : Obeys (Same fun s => s.mem) [.notes, .book, .place, .exec, .feed, .pool, .recon, .eds, .coder, .cat, .dir, .lanes, .online, .ret, .holds, .scrub, .jnl, .marks, .format, .media, .regs, .power] := by
  refine Same.obeys _ _ fun p hp => ?_
  cases p <;> first
    | exact absurd hp (by decide)
    | (intro s f; rfl)
    | (intro s f hf; exact (hf _).1)
    | (intro s f hf; exact (hf _).2.1)
    | (intro s f hf; exact (hf _).2.2.1)
    | (intro s f hf; exact (hf _).2.2.2.1)
    | (intro s f hf; exact (hf _).2.2)
    | (intro s f hf; rfl)
    | (intro s f hf; exact (hf _).2)
    | (intro s t h1 h2 h3 h4 h5 h6 h7 _; first | exact h1 | exact h2 | exact h3 | exact h4 | exact h5 | exact h6 | exact h7)
    | (intro s a bs h1 h2; simp only [Same, hostWrite_desk]; done)
    | (intro s a bs; simp only [Same, hostWrite_desk]; done)

theorem same_desk : Obeys (Same fun s => s.desk) [.desk, .buf, .exec, .feed, .pool, .recon, .eds, .coder, .cat, .dir, .lanes, .online, .ret, .holds, .scrub, .jnl, .marks, .media, .bus, .power] := by
  refine Same.obeys _ _ fun p hp => ?_
  cases p <;> first
    | exact absurd hp (by decide)
    | (intro s f; rfl)
    | (intro s f hf; exact (hf _).1)
    | (intro s f hf; exact (hf _).2.1)
    | (intro s f hf; exact (hf _).2.2.1)
    | (intro s f hf; exact (hf _).2.2.2.1)
    | (intro s f hf; exact (hf _).2.2)
    | (intro s f hf; rfl)
    | (intro s f hf; exact (hf _).2)
    | (intro s t h1 h2 h3 h4 h5 h6 h7 _; first | exact h1 | exact h2 | exact h3 | exact h4 | exact h5 | exact h6 | exact h7)
    | (intro s a bs h1 h2; simp only [Same, hostWrite_desk]; done)
    | (intro s a bs; simp only [Same, hostWrite_desk]; done)

/-- Every operation keeps the canonical form of both memories. -/
theorem keeps_wf : Obeys (fun a b => (Memory.wf Config.hostFill a.mem && Memory.wf Config.mediaFill a.media) = true →
    (Memory.wf Config.hostFill b.mem && Memory.wf Config.mediaFill b.media) = true)
    [.notes, .book, .place, .desk, .buf, .exec, .feed, .pool, .recon, .eds, .coder, .cat, .dir, .lanes, .online, .ret, .holds, .scrub, .jnl, .marks, .format, .media, .regs, .bus, .power] := by
  refine ⟨fun h1 h2 h => h2 (h1 h), fun p hp => ?_⟩
  cases p <;> first
    | (intro s f h; exact h)
    | (intro s f hf h; exact h)
    | (intro s t _ _ _ _ _ e1 e2 _ h; rw [e1, e2]; exact h)
    | (intro s a bs h1 h2 h; simp only [Bool.and_eq_true, hostWrite_media] at h ⊢; exact ⟨wf_hostWrite a bs h.1, h.2⟩)
    | (intro s a bs h; simp only [Bool.and_eq_true, hostWrite_media] at h ⊢; exact ⟨wf_hostWrite a bs h.1, h.2⟩)
    | (intro s f hf h; simp only [Bool.and_eq_true, onMedia_media, onMedia_mem] at h ⊢; exact ⟨h.1, hf _ h.2⟩)
    | (intro s b h; simp only [Bool.and_eq_true, onBus_media] at h ⊢; exact ⟨wf_onBus b h.1, h.2⟩)

/-- Every operation keeps the staging pool legal. -/
theorem keeps_pool : Obeys (fun a b => a.pool.legal = true → b.pool.legal = true)
    [.notes, .book, .place, .desk, .buf, .exec, .feed, .pool, .recon, .eds, .coder, .cat, .dir, .lanes, .online, .ret, .holds, .scrub, .jnl, .marks, .format, .media, .regs, .bus, .power] := by
  refine ⟨fun h1 h2 h => h2 (h1 h), fun p hp => ?_⟩
  cases p <;> first
    | (intro s f hf; exact hf)
    | (intro s f h; exact h)
    | (intro s f hf h; exact h)
    | (intro s t _ _ _ _ _ _ _ h; exact h)
    | (intro s a bs h1 h2 h; simp only [hostWrite_pool]; exact h)
    | (intro s a bs h; simp only [hostWrite_pool]; exact h)
    | (intro s b h; exact h)

/-- A byte of host memory outside the desk. -/
def OutsideDesk (a b : State) : Prop :=
  b.desk.place = a.desk.place ∧ ∀ c, c < a.desk.place ∨ a.desk.place + 8320 ≤ c →
    Memory.byte Config.hostFill b.mem c = Memory.byte Config.hostFill a.mem c

/-- An operation that writes no buffer and moves no desk leaves every byte outside the desk alone. -/
theorem keeps_outside : Obeys OutsideDesk [.notes, .book, .desk, .exec, .feed, .pool, .recon, .eds, .coder, .cat, .dir, .lanes, .online, .ret, .holds, .scrub, .jnl, .marks, .format, .media, .power] := by
  refine ⟨fun h1 h2 => ⟨h2.1.trans h1.1, fun c hc => (h2.2 c (by rw [h1.1]; exact hc)).trans (h1.2 c hc)⟩, fun p hp => ?_⟩
  cases p <;> first
    | exact absurd hp (by decide)
    | (intro s f; exact ⟨rfl, fun _ _ => rfl⟩)
    | (intro s f hf; exact ⟨rfl, fun _ _ => rfl⟩)
    | (intro s f hf; exact ⟨(hf _).2.2.1, fun _ _ => rfl⟩)
    | (intro s f hf; have h1 := congrArg Desk.place (hf s.desk); exact ⟨h1, fun _ _ => rfl⟩)
    | (intro s a bs h1 h2; exact ⟨by simp, fun c hc => byte_hostWrite_outside s a c bs (by omega)⟩)
    | (intro s t _ _ _ _ e1 _ e2 _; exact ⟨e1, fun c _ => by rw [e2]⟩)

end State

end Sys2Proof.Machine
end

