-- ==== Sys2Proof/Laws/Lanes.lean ====
section
/-! SUPPORT. What the grants of R126 do, said once: each lane makes its own, at the current share, and a lane that has made it has
no further one to make. -/

namespace Sys2Proof.Machine

/-- A grant leaves a request in progress, or the lane as it was. -/
theorem Lane.grant_cases (share : Nat) (l : Lane) :
    Lane.grant share l = l ∨ (Lane.grant share l).inProgress.isSome = true := by
  unfold Lane.grant Lane.windowGrant Lane.grantBack Lane.grantFore
  cases hb : (l.latch share).backQ <;> cases hf : (l.latch share).foreQ <;> repeat' split
  all_goals first
    | exact .inl rfl
    | exact .inr rfl
    | (exfalso; revert hb hf; unfold Lane.latch; split <;> intro hb hf <;> simp_all)

/-- After a grant a lane has no further one to make. -/
theorem Lane.grant_grant (share : Nat) (l : Lane) : Lane.grant share (Lane.grant share l) = Lane.grant share l := by
  obtain h | h := Lane.grant_cases share l
  · rw [h, h]
  · generalize Lane.grant share l = g at h
    have hc : g.canGrant = false := by
      cases hi : g.inProgress
      · rw [hi] at h; cases h
      · simp [Lane.canGrant, hi]
    unfold Lane.grant
    rw [hc]
    rfl

namespace State

theorem grants_each (ls : List LaneNo) : ∀ s : State, ls.Nodup →
    (ls.foldl (fun t l => t.onLane l (Lane.grant t.lanes.share)) s).lanes.share = s.lanes.share ∧
    ∀ l, bget (ls.foldl (fun t l => t.onLane l (Lane.grant t.lanes.share)) s).lanes.lane l =
      if l ∈ ls then Lane.grant s.lanes.share (bget s.lanes.lane l) else bget s.lanes.lane l := by
  induction ls with
  | nil => intro s _; exact ⟨rfl, fun l => by simp⟩
  | cons a as ih =>
    intro s hn
    obtain ⟨h1, h2⟩ := ih (s.onLane a (Lane.grant s.lanes.share)) (List.nodup_cons.mp hn).2
    refine ⟨h1, fun l => ?_⟩
    rw [List.foldl_cons, h2 l]
    have hs : (s.onLane a (Lane.grant s.lanes.share)).lanes.share = s.lanes.share := rfl
    rw [hs]
    by_cases e : a = l
    · subst e
      rw [if_neg (List.nodup_cons.mp hn).1, if_pos (by simp)]
      exact bget_bmod_self _ _ _
    · have hl : bget (s.onLane a (Lane.grant s.lanes.share)).lanes.lane l = bget s.lanes.lane l := bget_bmod_ne _ _ _ _ e
      simp [hl, Ne.symm e]

/-- Every lane that can makes its grant, and the share stays. -/
theorem grantLanes_lane (s : State) (l : LaneNo) :
    bget s.grantLanes.lanes.lane l = Lane.grant s.lanes.share (bget s.lanes.lane l) := by
  have h := (grants_each (indices 16) s (by decide)).2 l
  have hm : ∀ x : LaneNo, x ∈ indices 16 := by decide
  rwa [if_pos (hm l)] at h

@[simp] theorem grantLanes_share (s : State) : s.grantLanes.lanes.share = s.lanes.share :=
  (grants_each (indices 16) s (by decide)).1

end State

end Sys2Proof.Machine
end

