-- ==== Sys2Proof/Tests/Slice0.lean ====
section
/-! SUPPORT. Tests: ill-formed commands refused by WellFormed, the spec's worked sequences and tables, and for each statement
with hypotheses a state that meets them (`witness_…`). -/

-- One test at a time: the kernel evaluates each, and many at once would each take a thread's stack.
set_option Elab.async false

namespace Sys2Proof.Tests

open Sys2Proof Sys2Proof.Machine Sys2Proof.Claims

/-! ## WellFormed and Decode -/

def quiet : Bus := { writes := [], fails := [] }

theorem test_wellformed_accepts : (Instr.sweep { writes := [(2 ^ 64 - 1, 1)], fails := [(2 ^ 64 - 8, 8)] }).wellFormed = true := by
  decide
theorem test_wellformed_refuses_host_write : (Instr.sweep { writes := [(2 ^ 64, 1)], fails := [] }).wellFormed = false := by
  decide
theorem test_wellformed_refuses_empty_failing_range : (Instr.format { writes := [], fails := [(5, 0)] }).wellFormed = false := by
  decide
theorem test_wellformed_refuses_far_failing_range :
    (Instr.ingest { writes := [], fails := [(2 ^ 64 - 1, 2)] }).wellFormed = false := by decide
theorem test_wellformed_refuses_changed_byte_off_the_modules :
    (Instr.fetchCompletion 0 (.success [(262144 * 67108864, 1)]) quiet).wellFormed = false := by decide
theorem test_wellformed_refuses_torn_byte_off_the_modules :
    (Instr.powerOn 0 { torn := [(262144 * 67108864, 1)], made := 8 }).wellFormed = false := by decide
theorem test_no_word_spells_a_command : decodeTableWord 16 0xFFFF = none := by decide

/-! ## The spec's tables and worked sequences -/

/-- R129, the quota table. -/
theorem test_quota_table :
    [6, 513, 1023].map (fun s => [quotaOf s 0, quotaOf s 1, quotaOf s 2, quotaOf s 3]) =
      [[2, 2, 1, 1], [129, 128, 128, 128], [256, 256, 256, 255]] := by decide +kernel

/-- R107: 0, -1, 1, -2, 2 become 0 to 4, and the four rows of the step code. -/
theorem test_step_code : [0, -1, 1, -2, 2].map zigzag = [0, 1, 2, 3, 4] ∧
    [0, 15, 16, 4095, 4096].map (fun v => (stepBits v).length) = [2, 6, 14, 14, 34] := by decide +kernel

/-- The worked sequence "three records of switch 17": 559 bits, so 72 bytes. -/
def threeRecords : List Rec :=
  let a := [4, 4, 1, 6, 3, 2, 5, 5, 5, 0]
  [{ cls := 0, cause := 16, seq := 1000, start := 360000, duration := 425, route := 412, site := 880101, charge := 3,
     calling := a ++ [1, 0], called := a ++ [9, 9] },
   { cls := 0, cause := 16, seq := 1001, start := 360013, duration := 0, route := 412, site := 880102, charge := 0,
     calling := a ++ [1, 1], called := [7, 7, 0, 0, 9, 0, 0, 1, 2, 3] },
   { cls := 2, cause := 31, seq := 1003, start := 359990, duration := 4200, route := 9, site := 880101, charge := 70,
     calling := a ++ [1, 0], called := a ++ [9, 8] }]
def itsEdition : Edition :=
  { routes := [1, 2, 3, 412], sites := [880101], prefixes := [[1, 1, 1], [2, 2, 2], [3, 3, 3], [5, 5, 5], [6, 6, 6], [4, 4, 1, 6, 3, 2]] }
theorem test_three_records : 96 + (columnBits itsEdition threeRecords).length = 559 ∧
    (encodeBlock itsEdition (some { slot := 2, serial := 7 }) threeRecords).length = 72 := by decide +kernel

/-- The worked sequence "a cut from the route tally": the table, the tally after halving, and where route 5 goes next. -/
def routeTally : Tally Nat :=
  [(0, (9, 40)), (1, (412, 55)), (2, (77, 90)), (3, (1500, 55)), (4, (300, 55)), (5, (18, 1)), (6, (120, 70))]
theorem test_cut_table : tallyTable (fun a b => decide (a < b)) routeTally = [77, 120, 300, 412, 1500, 9, 18] := by decide +kernel
theorem test_cut_halving : tallyUpdate 5 (tallyUpdate 412 (tallyHalve routeTally)) =
    [(0, (9, 20)), (1, (412, 28)), (2, (77, 45)), (3, (1500, 27)), (4, (300, 27)), (5, (5, 1)), (6, (120, 35))] := by decide +kernel

/-- The worked sequence "one file, its pending list and its merge". -/
def oneFile : List SeqNo := [5000, 5004, 5002, 4105, 4106, 5001, 4105, 9000000]
def rangeG1 : Range := { switch := 212, first := 4100, count := 10, day := 20090 }
def classifyAll : List SeqNo → Option SeqNo → List GapEntry → List Bool × Option SeqNo × List GapEntry
  | [], e, p => ([], e, p)
  | x :: xs, e, p =>
    let j := classify [rangeG1] e p x
    let r := classifyAll xs j.expected j.gaps
    (decide (j.verdict = .accepted) :: r.1, r.2)
theorem test_one_file : classifyAll oneFile (some 5000) [] =
    ([true, true, true, true, true, true, false, true], some 9000001, [.new 5003 1, .fill 4100 4105 2]) := by decide +kernel
theorem test_one_merge :
    let m := mergeGaps 212 20110 [.new 5003 1, .fill 4100 4105 2] [{ switch := 9, first := 71000, count := 40, day := 20041 }, rangeG1]
    m.1.map (fun r => (r.switch, r.first.toNat, r.count, r.day)) =
      [(9, 71000, 40, 20041), (212, 4100, 5, 20090), (212, 4107, 3, 20090), (212, 5003, 1, 20110)] ∧
    m.2.map EntryBody.kind = [.gapOpened] := by decide +kernel

/-- The file register (R5) of the worked sequence "judging a short file". -/
theorem test_file_register : isRepeat (some (20100, 2)) 20100 3 = false ∧ isRepeat (some (20100, 3)) 20100 3 = true ∧
    nextRegister (some (20100, 2)) 20100 3 = some (20100, 3) := by decide

/-- The check value of the polynomial of R19 over the digits 1 to 9 (known outside the spec). -/
theorem test_digest : digestOf [0x31, 0x32, 0x33, 0x34, 0x35, 0x36, 0x37, 0x38, 0x39] = 0xE3069283 := by decide +kernel

/-- R20, R34: the extent of a segment number; segment 65,543 is lane 4, extent 7. -/
theorem test_segment_number : laneOf 65543 = 4 ∧ laneBase 4 + 7 = 65543 := by decide +kernel

/-! ## States -/

/-- A READY engine on day 100, all lanes ONLINE and usable, its desk at 65,536. -/
def ready : State :=
  { State.reset with engine := .ready, stamp := true, desk := { Desk.blank with base := 0x10000, place := 0x10000, first := false },
                     cat := { Catalog.blank with usable := 0xFFFF },
                     lanes := { lane := Vector.replicate 16 (Lane.start true), share := 0 },
                     ret := { Retention.blank with day := 100, groups := Vector.replicate 4 { days := 10, walk := none } } }

/-- A segment of 2,000,000 bytes, not due before day 100. -/
def seg : Segment :=
  { key := { switch := 5, day := 90, group := 1 }, part := 1, edition := none, records := 64, blocks := 1, bytes := 2000000,
    firstSeq := some 7, lastSeq := some 70, digest := 1, link := 0, expiry := 100, mark := .unverified, verified := none,
    fails := 0, pins := 0, reserve := 2000000, inFlight := 0 }

def holding (n : Nat) (st : LiveState) (g : Segment) (s : State) : State :=
  { s with cat := { s.cat with table := [(n, { content := .live st g, erases := 3, fault := false })] } }
def op (b : OpBody) : Op :=
  { slip := some 3, adm := 9, prio := 1, urgent := false, begun := false, stopping := false, ended := false, body := b }
def fresh (b : OpBody) (s : State) : State := { s with exec := { Exec.blank with running := some (op b) } }
def stepping (b : OpBody) (s : State) : State :=
  { s with exec := { Exec.blank with running := some { op b with begun := true } } }
def everything : Selection := { switch := 0, all := true, mask := 0x0F, first := 0, last := 65535 }
def busy (s : State) : State := stepping (.expire Pass.start) s
def slip (k : Kind) (p : List Byte) : Admitted := { slip := 5, prio := 0, adm := 7, urgent := false, kind := k, params := p }
def quickly (l : List Admitted) (s : State) : State :=
  busy { s with desk := { s.desk with sweep := some { quick := l, long := [] } } }
def carrying (l : LaneNo) (r : Request) (s : State) : State := s.onLane l fun a => { a with inProgress := some r }
def nextOf (i : Instr) (s : State) : State :=
  match exec i s with
  | .next t => t
  | .fault _ => s
  | .refused _ => s

/-- A journal whose window is full. -/
def fullJournal : Journal := { Journal.blank with head := 1048577 }
/-- A journal in whose line an entry waits. -/
def linedJournal : Journal := { Journal.blank with line := [{ entries := [], who := .block, acts := [] }] }

/-- An engine that has made three of its eight restorations, and one that comes to its catalog's. -/
def recovering : State := nextOf (.powerOn 0xFFFF { torn := [], made := 3 }) ready
def restoring (st : LiveState) (bytes : Nat) : State :=
  holding 65543 st { seg with bytes := bytes } { ready with engine := .recovering, recovery := { cause := .powerOn, made := 1 } }

/-! ## Single commands -/

/-- A start-up that makes all its restorations in one step, and one that makes so many. -/
def whole : Start := { torn := [], made := 8 }
def part (n : Fin 9) : Start := { torn := [], made := n }

/-- R184: 1 to 99 taken as 100, above 10,000,000 as 10,000,000, and a desk address rounded down. -/
theorem test_sweep_period : ((nextOf (.sweepPeriod 99) ready).desk.period, (nextOf (.sweepPeriod 10000001) ready).desk.period,
    (nextOf (.sweepPeriod 0) ready).desk.period) = (100, 10000000, 0) := by decide +kernel
theorem test_desk_base : (nextOf (.deskBase 0x12FFF) ready).desk.place = 0x12000 := by decide +kernel
/-- R197: power-on without a stamp is BLANK and shows the lanes whose modules answer. -/
theorem test_power_on : (nextOf (.powerOn 3 whole) State.reset).onlineMask = 3 ∧
    (nextOf (.powerOn 3 whole) State.reset).engine = .blank := by
  decide +kernel
/-- R197, R198: a recovery goes on at the steps that follow until READY, and a reset within it takes a second RESTART. -/
theorem test_recovery_goes_on : recovering.engine = .recovering ∧ recovering.idle.recovery.made = 4 ∧
    recovering.idle.idle.idle.idle.idle.engine = .ready := by decide +kernel
/-- R126: RESTART's journal write is in progress on lane 0 while the engine is RECOVERING, and its completion settles it there. -/
theorem test_grant_while_recovering : (bget recovering.lanes.lane 0).inProgress.isSome = true ∧
    (nextOf (.journalWriteCompletion 0 true quiet) recovering).jnl.settled = recovering.jnl.head ∧
    (nextOf (.journalWriteCompletion 0 true quiet) recovering).engine = .recovering := by decide +kernel
theorem test_reset_while_recovering :
    (nextOf (.engineReset 1 0xFFFF whole) recovering).jnl.store.map (fun e => (e.body.kind, e.body.v1)) =
      [(.restart, 1), (.restart, 2)] := by decide +kernel
/-- R195, R198: a BLANK engine keeps its notice counters at a reset and has them at 0 after a power-on. -/
theorem test_reset_keeps_counters :
    let s : State := { State.reset with desk := { Desk.blank with counters := Vector.replicate 8 7 } }
    bget (nextOf (.engineReset 1 3 whole) s).desk.counters 0 = 7 ∧ bget (nextOf (.powerOn 3 whole) s).desk.counters 0 = 0 := by
  decide +kernel
/-- R185: a nudge while RECOVERING is remembered, and no sweep begins. -/
theorem test_no_sweep_while_recovering :
    (nextOf (.sweep quiet) (nextOf (.nudge 1) (nextOf (.deskBase 0x20000) recovering))).desk.asked = true := by decide +kernel

/-- R36, worked sequence "the watch at level 2": T is 32,760 with all sixteen lanes usable. -/
theorem test_watch_threshold :
    ({ ready with cat := { ready.cat with watch := { Watch.start with level := 2 } } } : State).threshold = 32760 := by decide +kernel
/-- R145, R147: a CLOSED and due segment becomes ERASING with its erase on its lane; a hold keeps it. -/
theorem test_pass_erases : ((nextOf (.expiryPassStep quiet)
    (stepping (.expire { Pass.start with cursor := 65543 }) (holding 65543 .closed seg ready))).live? 65543) =
      some (.erasing, seg) := by decide +kernel
theorem test_pass_is_held : ((nextOf (.expiryPassStep quiet) (stepping (.expire { Pass.start with cursor := 65543 })
    (holding 65543 .closed seg { ready with ret := { ready.ret with holds := [{ id := 1, cover := everything, placed := 9 }] } }))).exec.running.map
      Op.body) = some (.expire { cursor := 65544, issued := 0, held := 1, deferred := 0, blocked := 0, awaitsRoom := false }) := by decide +kernel
/-- R143, worked sequence "lengthening group 1". -/
theorem test_walk_raises : (((nextOf (.retentionWalkStep quiet) (stepping (.walk 1 16400 0) (holding 16400 .closed
    { seg with key := { switch := 5, day := 20296, group := 1 }, expiry := 20301 }
    { ready with ret := { ready.ret with groups := Vector.replicate 4 { days := 30, walk := some (5, 30) } } }))).live? 16400).map
      fun x => x.2.expiry) = some 20326 := by decide +kernel
/-- R178, R179, worked sequence "running into the reserve": a run of 128 entries from 982,900 on lane 3 after lane 2 failed. -/
theorem test_failed_run_goes_on :
    let e : Entry := { seq := 0, day := 1, second := false, body := EntryBody.mk0 .formatted .none 0 0 0 }
    let s := { ready with jnl := { Journal.blank with head := 983040, settled := 982900, buffer := List.replicate 140 e, pointer := 3,
                                                       out := some { lane := 2, first := 982900, count := 128 } } }
    let t := nextOf (.journalWriteCompletion 2 false quiet) (carrying 2 (.journalWrite 32768 0 []) s)
    t.jnl.out = some { lane := 3, first := 982900, count := 128 } ∧ t.jnl.pointer = 4 ∧ t.jnl.settled = 982900 := by decide +kernel

/-! ## For each statement with hypotheses, states and operands that meet them -/

theorem witness_StepRunsTheFrontCommand : ready.pending = [] := by decide +kernel
theorem witness_EveryStepKeepsTheInvariant : ready.safe = true ∧ step ready = .next ready.idle ∧
    ({ ready with pending := [.nudge 1] } : State).safe = true := ⟨by decide +kernel, rfl, by decide +kernel⟩
theorem witness_RegistersAndModulesChangeAtTheirOwnCommands : exec (.nudge 0) ready = .next (nextOf (.nudge 0) ready) ∧
    (∀ v, Instr.nudge 0 ≠ .deskBase v) ∧ (∀ v, Instr.nudge 0 ≠ .sweepPeriod v) ∧ ∀ p b, Instr.nudge 0 ≠ .powerOn p b :=
  ⟨rfl, by simp, by simp, by simp⟩
theorem witness_RegistersAndModulesChangeAtTheirOwnCommands_modules : exec .scrubStep ready = .next (nextOf .scrubStep ready) ∧
    (∀ p b, Instr.scrubStep ≠ .powerOn p b) ∧ (∀ v p b, Instr.scrubStep ≠ .engineReset v p b) ∧
    (∀ l k, Instr.scrubStep ≠ .storeCompletion l k) ∧ (∀ l o b, Instr.scrubStep ≠ .fetchCompletion l o b) ∧
    (∀ l k, Instr.scrubStep ≠ .eraseCompletion l k) ∧ (∀ l k b, Instr.scrubStep ≠ .formatEraseCompletion l k b) ∧
    ∀ l k b, Instr.scrubStep ≠ .journalWriteCompletion l k b :=
  ⟨rfl, by simp, by simp, by simp, by simp, by simp, by simp, by simp⟩
theorem witness_WithoutPowerNothingChanges : ({ ready with powered := false } : State).powered = false ∧
    (∀ p b, Instr.sweep quiet ≠ .powerOn p b) ∧ (Instr.sweep quiet).bus? = some quiet ∧ Instr.scrubStep.bus? = none ∧
    recovering.engine = .recovering ∧ alwaysActs (.sweep quiet) = false ∧ laneCommand (.sweep quiet) = false ∧
    laneCommand (.shareWindowEnd 0) = true ∧
    (nextOf (.powerOn 0xFFFF { torn := [], made := 0 }) ready).engine = .recovering ∧
    (nextOf (.powerOn 0xFFFF { torn := [], made := 0 }) ready).recovery.made = 0 :=
  ⟨rfl, by simp, rfl, rfl, by decide +kernel, rfl, rfl, rfl, by decide +kernel, by decide +kernel⟩
theorem witness_PowerOnWithoutStampIsBlank : State.reset.stamp = false := rfl
theorem witness_PowerOnWithStampRecovers : ready.stamp = true ∧ whole.made.val = 8 ∧ (part 3).made.val ≠ 8 := by decide
theorem witness_RecoveryRestoresTheBlocks : (restoring .filling 2000000).engine = .recovering ∧
    rising (restoring .filling 2000000).cat.table = true ∧
    (restoring .filling 2000000).live? 65543 = some (.filling, seg) ∧ seg.bytes ≠ 0 ∧
    (restoring .filling 0).live? 65543 = some (.filling, { seg with bytes := 0 }) ∧
    (restoring .closed 2000000).live? 65543 = some (.closed, seg) ∧
    (restoring .erasing 2000000).live? 65543 = some (.erasing, seg) ∧ (restoring .erasing 0).isOnline (laneOf 65543) = true := by
  decide +kernel
theorem witness_EngineResetKeepsRegisters : ready.powered = true ∧ (0 : Word32) ≠ 1 ∧ ready.stamp = true ∧ 1 ≤ (part 1).made.val ∧
    ready.jnl.buffer.length < 4096 ∧ 0 < ready.room ∧ recovering.powered = true ∧ recovering.stamp = true ∧
    State.reset.powered = true ∧ State.reset.stamp = false := by decide +kernel
theorem witness_RegistersBehaveAsTheTable : ready.powered = true ∧ ready.desk.base ≠ 0 := ⟨rfl, by decide +kernel⟩

/-- The timer below, at and without its period; with and without a desk. -/
def timed (p : Word32) (n : Nat) : State := { ready with desk := { ready.desk with period := p, timer := n } }
theorem witness_RegistersBehaveAsTheTable_timer : (timed 100 98).powered = true ∧ (timed 100 98).desk.base ≠ 0 ∧
    State.reset.desk.base = 0 ∧ State.reset.powered = true ∧ (timed 0 0).desk.period = 0 ∧ (timed 100 98).desk.period ≠ 0 ∧
    (timed 100 98).desk.timer + 1 < (timed 100 98).desk.period.toNat ∧
    (timed 100 99).desk.period.toNat ≤ (timed 100 99).desk.timer + 1 ∧ ready.engine ≠ .recovering ∧
    recovering.engine = .recovering := by decide +kernel
def asked : State := busy { ready with desk := { ready.desk with asked := true } }
/-- A header with level 15, both edges, scrub enable and a notice enable mask of ANSWERS; the counters and kept values all 0 and 1. -/
def askedWith (kept : Word32) : State :=
  { asked with desk := { asked.desk with kept := Vector.replicate 8 kept },
               mem := [(0x10001, 1), (0x10004, 15), (0x10005, 3), (0x10006, 1)] }
def itsHead (s : State) : List Byte := (at_ quiet s).hostBytes s.desk.place 8
theorem witness_SweepOfAQuietDesk : asked.powered = true ∧ asked.sweepReady = true ∧ DeskFits asked ∧ quiet.fails = [] ∧
    Memory.wf Config.hostFill asked.mem = true ∧ asked.desk.first = false ∧ Steady asked ∧
    (∀ i, bget asked.desk.held i = .notHeld) ∧ (∀ i, bget asked.desk.map i = 0) ∧
    ∀ i, byteAt (at_ quiet asked) (asked.slipAt i) = markFree :=
  ⟨by decide +kernel, by decide +kernel, by unfold DeskFits; decide +kernel, rfl, by decide +kernel, by decide +kernel,
   by unfold Steady NoChoice; decide +kernel, by decide +kernel, by decide +kernel, by unfold byteAt at_; decide +kernel⟩
/-- The same of a header that is not all zeros: the level differs from the one held, a lap begins, and the gate finds a difference
or none. -/
theorem witness_SweepOfAQuietDesk_header : (askedWith 1).sweepReady = true ∧ Memory.wf Config.hostFill (askedWith 1).mem = true ∧
    (∀ i, byteAt (at_ quiet (askedWith 1)) ((askedWith 1).slipAt i) = markFree) ∧
    min (field (itsHead (askedWith 1)) 4 1) 15 ≠ (askedWith 1).cat.watch.level ∧
    min (field (itsHead asked) 4 1) 15 = asked.cat.watch.level ∧
    (askedWith 1).engine = .ready ∧ flagSet ((itsHead (askedWith 1)).getD 6 0) = true ∧ (askedWith 1).scrub.state = .resting ∧
    (askedWith 1).scrub.startDay = none ∧ flagSet ((itsHead asked).getD 6 0) = false ∧
    (askedWith 1).feed.stalled = [] ∧ (askedWith 1).coderNext = none ∧
    ((itsHead (askedWith 1)).getD 1 0).getLsbD Counter.answers.index.val = true ∧
    bget (askedWith 1).desk.counters Counter.answers.index ≠ bget (askedWith 1).desk.kept Counter.answers.index ∧
    (askedWith 0).desk.counters = (askedWith 0).desk.kept := by
  unfold byteAt itsHead at_; decide +kernel

/-- A sweep of a desk with slip 5 of a mark, a kind, a first parameter byte; a threshold of 1, so that priority 1 stays out. -/
def slipAt5 : Nat := 0x10000 + 128 * 6
def swept (mark kind : Byte) (prio p0 : Byte) (h : Holding) (s : State) : State :=
  let t := busy { s with desk := { s.desk with asked := true, held := bset (Vector.replicate 64 .notHeld) 5 h,
                                               map := bset (Vector.replicate 64 0) 5 7 } }
  { t with mem := Memory.writeCells 0 t.mem [(0x10000, 1), (slipAt5, mark), (slipAt5 + 1, kind), (slipAt5 + 2, prio), (slipAt5 + 32, p0)] }
def enters5 (s : State) : Bool := decide (min (s.byteOrFree (s.slipAt 5 + 2)).toNat 3 < min (field (itsHead s) 0 1) 3)
def byExec (w u : List Op) (r : Op) (s : State) : State := { s with exec := { running := some r, suspended := u, waiting := w, preempt := none } }
def slipOp (b : OpBody) : Op := { op b with slip := some 5, adm := 4, begun := true }
def verifyNone : OpBody := .verify { switch := 0, all := true, mask := 0x0F, first := 0, last := 65535 } 3 { checked := 0, passed := 0, failed := 0, skipped := 0 } none
/-- A threshold below, at and above a priority of 1; the journal's room at 65,535; the four engine states are in the rule itself. -/
def urgentSlip (th : Nat) : State :=
  { ready with desk := { ready.desk with threshold := th }, mem := [(0x10000 + 130, 1)], jnl := { Journal.blank with head := 983042 } }
def slipOf (kind : Byte) : State := { ready with mem := [(0x10000 + 129, kind)] }
theorem witness_AdmissionByThresholdAndOrder :
    (urgentSlip 1).priorityOf 0 = 1 ∧ (urgentSlip 1).desk.threshold ≠ 0 ∧
    (urgentSlip 1).desk.threshold ≤ 1 ∧ (urgentSlip 0).desk.threshold = 0 ∧ 1 < (urgentSlip 2).desk.threshold ∧
    ((urgentSlip 0).takeSlipMark 0).byteOrFree ((urgentSlip 0).slipAt 0 + 1) = 0 ∧
    ((slipOf 20).takeSlipMark 0).byteOrFree ((slipOf 20).slipAt 0 + 1) = 20 ∧
    ((slipOf 2).takeSlipMark 0).admissionRefusal .ingest [] = none ∧
    (urgentSlip 0).admissionRefusal .ingest [] = some .journalFull ∧
    DeskFits (urgentSlip 0) ∧ Memory.wf Config.hostFill (urgentSlip 0).mem = true ∧
    (urgentSlip 0).takesKind .ingest = true ∧ (urgentSlip 0).room = 65535 ∧ (urgentSlip 0).takesKind .format = false := by
  unfold DeskFits; decide +kernel
theorem witness_AnswersAndNotices : DeskFits ready ∧ ready.desk.place ≠ 0 ∧ Memory.wf Config.hostFill ready.mem = true ∧
    ready.dropsAnswer 63 = true ∧ ({ ready with mem := [(0x10000 + 8192, 2)] } : State).dropsAnswer 63 = false :=
  ⟨by unfold DeskFits; decide +kernel, by decide +kernel, by decide +kernel, by decide +kernel, by decide +kernel⟩
theorem witness_AnswersAndNotices_gate : ready.desk.gateOpen = false ∧
    ({ ready with desk := { ready.desk with enable := 1, gateOpen := true } } : State).enabled .answers = true ∧
    ({ ready with desk := { ready.desk with enable := 1, counters := Vector.replicate 8 1 } } : State).enabled .answers = true ∧
    bget ready.desk.counters Counter.answers.index = bget ready.desk.kept Counter.answers.index := by decide +kernel

def goodFormat : FormatParams := { day := 20000, horizon := 366, days := [1, 16383, 1, 1], window := 31 }
def blankOn : State := { State.reset with lanes := ready.lanes }
theorem witness_FormatBegins : Fresh (op (.format goodFormat)) (fresh (.format goodFormat) blankOn) ∧
    Fresh (op (.format goodFormat)) (fresh (.format goodFormat) ready) ∧ ready.engine ≠ .blank ∧ blankOn.engine = .blank ∧
    GoodFormat goodFormat ∧ ¬ GoodFormat { goodFormat with window := 32 } ∧ blankOn.onlineMask ≠ 0 ∧ State.reset.onlineMask = 0 := by
  unfold Fresh GoodFormat Acts; decide +kernel

def formatting (n : Nat) : State :=
  carrying 2 (.erase 40000) { fresh (.format goodFormat) ready with engine := .formatting, cat := { ready.cat with eraseLeft := n } }
theorem witness_FormatEraseCompletes : (formatting 2).powered = true ∧ (formatting 2).engine = .formatting ∧
    (formatting 2).exec.running = some (op (.format goodFormat)) ∧
    (bget (formatting 2).lanes.lane 2).inProgress = some (.erase 40000) ∧ 1 < (formatting 2).cat.eraseLeft ∧
    (formatting 1).cat.eraseLeft ≤ 1 ∧ (formatting 1).engine = .formatting ∧ (formatting 1).exec.suspended = [] ∧
    (formatting 1).exec.waiting = [] ∧ (formatting 1).usable 40000 = true ∧
    (bget (formatting 1).lanes.lane 2).inProgress = some (.erase 40000) := by decide +kernel

/-! The feed unit. -/

/-- An INGEST slip with a ring of a size, a filled mark of 4,096. -/
def listed (size : Byte) : State :=
  { ready with desk := { ready.desk with list := [slip .ingest []] },
               mem := [(0x10000 + 800 + 3, 1), (0x10000 + 800 + 9, size), (0x10000 + 800 + 17, 16)] }
def itsParams (size : Byte) : List Byte := (at_ quiet (listed size)).hostBytes ((listed size).paramsAt 5) 56
theorem witness_IngestTakesTheFirstSlip : Acts (listed 16) ∧ (listed 16).freeChan = some 0 ∧
    (listed 16).desk.list = slip .ingest [] :: [] ∧ (listed 16).feed.stalled = [] ∧
    (∀ x ∈ Kind.ingest.fields, (at_ quiet (listed 16)).readFails ((listed 16).paramsAt 5 + x.1) x.2 = false) ∧
    State.badRing (field (itsParams 16) 0 8) (field (itsParams 16) 8 4) = false ∧
    field (itsParams 16) 16 8 ≤ field (itsParams 16) 8 4 ∧ flagSet ((itsParams 16).getD 24 0) = false ∧
    State.badRing (field (itsParams 15) 0 8) (field (itsParams 15) 8 4) = true := by unfold itsParams at_ Acts; decide +kernel

def chanIn (st : ChanState) (f : Option File) (drained filled : Nat) : Channel :=
  { Channel.idle with state := st, slip := some 5, ringBase := 0x20000, ringSize := 4096, filledSeen := filled, drained := drained, file := f }
def channel (c : Channel) (s : State) : State := s.onChan 2 fun _ => c
/-- A header in the ring: marker, version 1, switch 5, record day 101. -/
def headed (marker : Byte) : State :=
  channel (chanIn .header none 0 64) { ready with mem := [(0x20000, marker), (0x20001, 1), (0x20002, 5), (0x20004, 101)] }
def itsHeader (m : Byte) : Header := readHeader ((at_ quiet (headed m)).hostBytes ((headed m).ringAt 2 0) 64)
/-- Headers at the tests' bounds: switch 1023 and 1024, a declared count of 2³¹ - 1 and 2³¹, a record day of D + 1 and D + 2. -/
def head (sw declared day : Nat) : Header :=
  { marker := 0x48, version := 1, switch := sw, day := day, file := 1, declared := declared, charges := 0 }
theorem witness_HeaderIsJudged : Acts (headed 0x48) ∧ (headed 0x48).headerReady 2 = true ∧ (headed 0x48).feed.stalled = [] ∧
    (at_ quiet (headed 0x48)).readFails ((headed 0x48).ringAt 2 0) 64 = false ∧
    (headed 0x48).headerRefusal (itsHeader 0x48) = none ∧ (headed 0x48).headerEntries (itsHeader 0x48) = [] ∧
    ((headed 0x48).chan 2).finalTotal = none ∧ ((headed 0x48).chan 2).closing = .none ∧
    (headed 0x49).headerReady 2 = true ∧ (headed 0x49).headerRefusal (itsHeader 0x49) ≠ none ∧
    ready.headerRefusal (head 1023 2147483647 101) = none ∧
    1023 < (head 1024 0 0).switch ∧ (head 1023 0 0).switch ≤ 1023 ∧ 2147483648 ≤ (head 1023 2147483648 0).declared ∧
    (head 1023 2147483647 0).declared < 2147483648 ∧ ready.ret.day + 1 < (head 1023 0 102).day ∧
    (head 1023 0 101).day ≤ ready.ret.day + 1 ∧ (head 0 0 0).version = 1 ∧ (head 0 0 0).marker = 0x48 := by
  unfold itsHeader at_ Acts; decide +kernel
/-- Final totals at the ends of their ranges; record days at the end of the late window; a file number at the register's; a journal
that takes the entry at once or makes the channel wait. -/
def headedLate (day file : Byte) (total : Option Nat) (j : Journal) : State :=
  channel { chanIn .header none 0 64 with finalTotal := total }
    { ready with mem := [(0x20000, 0x48), (0x20001, 1), (0x20002, 5), (0x20004, day), (0x20006, file)], jnl := j }
  |>.setSwitch 5 { SwitchCtx.unseen with state := .idle, register := some (100, 2) }
def lateHeader (day file : Byte) : Header :=
  readHeader ((at_ quiet (headedLate day file none Journal.blank)).hostBytes ((headedLate day file none Journal.blank).ringAt 2 0) 64)
theorem witness_HeaderIsJudged_accepted :
    (headedLate 92 1 none Journal.blank).headerReady 2 = true ∧ (headedLate 92 1 none fullJournal).headerReady 2 = true ∧
    (headedLate 100 2 (some 64) Journal.blank).headerReady 2 = true ∧ (headedLate 100 3 (some 127) Journal.blank).headerReady 2 = true ∧
    (headedLate 100 3 (some 128) Journal.blank).headerReady 2 = true ∧
    (headedLate 92 1 none Journal.blank).headerRefusal (lateHeader 92 1) = none ∧ (lateHeader 92 1).day + ready.ret.lateWindow < 100 ∧
    ¬ ((lateHeader 93 1).day + ready.ret.lateWindow < 100) ∧
    ((headedLate 92 1 none Journal.blank).headerEntries (lateHeader 92 1)).length = 1 ∧
    ((headedLate 100 2 none Journal.blank).headerEntries (lateHeader 100 2)).length = 1 ∧
    (headedLate 100 3 none Journal.blank).headerEntries (lateHeader 100 3) = [] ∧ (lateHeader 100 2).file = 2 ∧
    ((headedLate 92 1 none Journal.blank).switchCtx 5).register = some (100, 2) ∧
    (headedLate 92 1 none Journal.blank).engine = .ready ∧ EntriesFit 1 (headedLate 92 1 none Journal.blank) ∧
    ¬ EntriesFit 1 (headedLate 92 1 none fullJournal) ∧ (headedLate 100 2 (some 64) Journal.blank).waits (.chan 2) = false ∧
    ((headedLate 100 2 (some 64) Journal.blank).chan 2).finalTotal = some 64 ∧
    ((headedLate 100 2 (some 64) Journal.blank).chan 2).closing = .none := by
  unfold EntriesFit lateHeader at_; decide +kernel

def file0 (p : List GapEntry) (due : Bool) : File :=
  { switch := 5, bound := true, day := 100, work := { SwitchCtx.unseen with state := .feeding, expected := some 1000 }, pendingGaps := p,
    account := Account.zero, filled := 0, commitDue := due, held := none, trailing := 0 }
/-- A record in the ring: marker, class, sequence number. -/
def recorded (marker cls : Byte) (day seq : Byte) : State :=
  channel (chanIn .running (some { file0 [] false with day := day.toNat }) 64 128)
    { ready with mem := [(0x20040, marker), (0x20041, cls), (0x20044, seq), (0x20045, 3)] }
def itsRecord (m cls day seq : Byte) : Raw :=
  readRecord ((at_ quiet (recorded m cls day seq)).hostBytes ((recorded m cls day seq).ringAt 2 64) 64)
theorem witness_RecordIsSeenAndCounted :
    Acts (recorded 0x52 7 100 232) ∧ (recorded 0x52 7 100 232).recordReady 2 = true ∧
    ((recorded 0x52 7 100 232).chan 2).file = some (file0 [] false) ∧ (recorded 0x52 7 100 232).feed.stalled = [] ∧
    (at_ quiet (recorded 0x52 7 100 232)).readFails ((recorded 0x52 7 100 232).ringAt 2 64) 64 = false ∧
    ((recorded 0x52 7 100 232).chan 2).finalTotal = none ∧ (itsRecord 0x52 8 100 232).rejected = true ∧
    (itsRecord 0x52 7 100 232).rejected = false ∧
    (recorded 0x52 7 90 232).expiredOnArrival { switch := 5, day := 90, group := 0 } = true ∧
    (recorded 0x52 7 100 232).expiredOnArrival { switch := 5, day := 100, group := 0 } = false ∧
    (classify [] (some 1000) [] (itsRecord 0x52 7 100 231).corrected.seq).verdict = .duplicate ∧
    (classify [] (some 1000) [] (itsRecord 0x52 7 100 232).corrected.seq).verdict = .accepted ∧
    (recorded 0x52 7 100 232).poolHasPage = true := by unfold itsRecord at_ Acts; decide +kernel

/-- An OPEN page of 1,023 records, a pool without a FREE page, and a pending gap list of 256 entries. -/
def pageOf (n : Nat) : Page :=
  { key := { switch := 5, day := 100, group := 0 }, owner := some 2, serial := 3, sealedUp := false, committed := 0,
    places := List.replicate n { data := { cls := 0, cause := 0, seq := 0, start := 0, duration := 0, route := 0, site := 0, charge := 0, calling := [], called := [] }, standing := .held } }
def paged (ps : List Page) (p : List GapEntry) (seq : Byte) : State :=
  { recorded 0x52 7 100 seq with pool := { pages := ps, serial := 4 } }.onFile 2 fun f => { f with pendingGaps := p }
def manyGaps : List GapEntry := (List.range 256).map fun i => .new (BitVec.ofNat 32 (100000 + 2 * i)) 1
theorem witness_RecordIsSeenAndCounted_staged :
    ((paged [pageOf 1023] [] 232).openPage 2 0).map Page.serial = some 3 ∧ 1024 ≤ (pageOf 1023).places.length + 1 ∧
    ¬ (1024 ≤ (pageOf 1022).places.length + 1) ∧ (paged [pageOf 1023] [] 232).recordReady 2 = true ∧
    (paged [] [] 232).openPage 2 0 = none ∧ (paged [] [] 232).poolHasPage = true ∧
    (paged (List.replicate 8191 { pageOf 0 with owner := none }) [] 232).poolHasPage = true ∧
    (paged (List.replicate 8192 { pageOf 0 with owner := none }) [] 232).poolHasPage = false := by decide +kernel
theorem witness_RecordIsSeenAndCounted_overflow :
    (classify [] (some 1000) manyGaps (itsRecord 0x52 7 100 233).corrected.seq).gaps.length = 257 ∧
    (classify [] (some 1000) (manyGaps.drop 1) (itsRecord 0x52 7 100 233).corrected.seq).gaps.length = 256 ∧
    (paged [] manyGaps 233).recordReady 2 = true ∧ (paged [] manyGaps 233).engine = .ready ∧ EntriesFit 3 (paged [] manyGaps 233) ∧
    ((paged [] manyGaps 233).chan 2).slip = some 5 ∧
    (at_ quiet { paged [] manyGaps 233 with mem := [(0x10000 + 128 * 6, 2), (0x20040, 0x52)] }).dropsAnswer 5 = false := by
  unfold itsRecord EntriesFit at_; decide +kernel

/-- Distances of 0, 1, 2²⁰ - 1, 2²⁰, 2³¹ - 1 and 2³¹. -/
theorem witness_ClassificationByDistance :
    [((1000 : SeqNo) - 1000).toNat, (1001 - 1000 : SeqNo).toNat, (1049575 - 1000 : SeqNo).toNat, (1049576 - 1000 : SeqNo).toNat,
      (2147484647 - 1000 : SeqNo).toNat, (2147484648 - 1000 : SeqNo).toNat] = [0, 1, 1048575, 1048576, 2147483647, 2147483648] ∧
    inNew [.new 990 3] 992 = true ∧ inNew [.new 990 3] 993 = false ∧ viewRange [] [.new 990 3] 993 = none ∧
    viewRange [rangeG1] [] 4109 = some rangeG1 ∧ (∀ y ∈ ([.fill 4100 4105 2] : List GapEntry), endsBelow 4100 4109 y = false ∧ beginsAbove 4100 4109 y = false) ∧
    runHas 4108 3 4109 = true ∧ runsMeet 4109 2 rangeG1.first rangeG1.count = true ∧ runsMeet 4110 2 rangeG1.first rangeG1.count = false ∧
    displaced [.displace 4100] 4100 = true ∧ displaced [.displace 4101] 4100 = false := by decide +kernel
theorem witness_FillOfANewGap : (∀ q m, GapEntry.new q m ∈ ([] : List GapEntry) → runHas q m (990 + BitVec.ofNat 32 2) = false) ∧
    2147483648 ≤ ((990 : SeqNo) + BitVec.ofNat 32 2 - 1000).toNat := ⟨by simp, by decide +kernel⟩
theorem witness_MergeByNumber_bound : [rangeG1].length ≤ 4096 ∧
    (∀ r ∈ [rangeG1, { rangeG1 with first := 4110, count := 1048575 }], 0 < r.count ∧ r.count ≤ 1048575) ∧
    ([rangeG1, { rangeG1 with first := 4110, count := 1048575 }].Pairwise fun a b =>
      a.switch = b.switch → runsMeet a.first a.count b.first b.count = false) ∧
    (List.replicate 4096 rangeG1).length = 4096 ∧ (∃ q ∈ List.replicate 4096 rangeG1, rangeHas 212 4110 q = false) :=
  ⟨by decide, by decide +kernel, by decide +kernel, List.length_replicate, rangeG1, List.mem_replicate.mpr ⟨by decide, rfl⟩,
   by decide +kernel⟩
def feeding (s : State) : State := s.setSwitch 5 { SwitchCtx.unseen with state := .feeding, expected := some 1000 }
def owing : State := feeding (channel (chanIn .running (some (file0 [.new 990 3] true)) 65600 65600) ready)
theorem witness_CommitPointMergesAndCommits : Acts owing ∧ (owing.chan 2).state = .running ∧
    (owing.chan 2).file = some (file0 [.new 990 3] true) ∧ (file0 [.new 990 3] true).commitDue = true ∧
    (owing.chan 2).closing = .none ∧ owing.waits (.chan 2) = false ∧ owing.feed.stalled = [] ∧
    (owing.chan 2).finalTotal = none ∧ (owing.switchCtx 5).state = .feeding ∧
    ∃ p ∈ (owing.newPage 2 { switch := 5, day := 100, group := 0 }).pool.pages, p.owner = some 2 := by unfold Acts; decide +kernel
def ending : State := feeding (channel (chanIn .ending (some (file0 [.new 990 3] false)) 128 128) ready)
theorem witness_EndOfFileReleasesTheSwitch : Acts ending ∧ (ending.chan 2).state = .ending ∧
    (ending.chan 2).file = some (file0 [.new 990 3] false) ∧ (ending.chan 2).closing = .none ∧ ending.waits (.chan 2) = false ∧
    ending.feed.stalled = [] ∧ (ending.switchCtx 5).state = .feeding ∧
    ((at_ quiet ending).mergeFile 2 (file0 [.new 990 3] false)).2 = true ∧
    ((at_ quiet { ending with jnl := fullJournal }).mergeFile 2 (file0 [.new 990 3] false)).2 = false := by
  unfold Acts at_; decide +kernel
/-- A file with a fragment, a restart and a balance; the coder with a block in hand; its slip still TAKEN. -/
def closingFile : File :=
  { file0 [.new 990 3] false with trailing := 63, account := { Account.zero with restarts := 1, countBal := 1 } }
def endsAtOnce : State :=
  let s := feeding (channel (chanIn .ending (some closingFile) 128 128) { ready with mem := [(0x10000 + 128 * 6, 2)] })
  { s with coder := { Coder.blank with buffers := bset Coder.blank.buffers 1 (.forming { switch := 5, day := 90, group := 1 } []) } }
theorem witness_EndOfFileReleasesTheSwitch_closed : Acts endsAtOnce ∧ (endsAtOnce.chan 2).state = .ending ∧
    (endsAtOnce.chan 2).file = some closingFile ∧ (endsAtOnce.switchCtx 5).state = .feeding ∧ endsAtOnce.engine = .ready ∧
    EntriesFit ((mergeGaps 5 100 closingFile.pendingGaps endsAtOnce.recon.gaps).2.length + 5) endsAtOnce ∧ CoderHolds endsAtOnce ∧
    (endsAtOnce.chan 2).slip = some 5 ∧ (at_ quiet endsAtOnce).dropsAnswer 5 = false ∧ DeskFits endsAtOnce ∧
    Memory.wf Config.hostFill endsAtOnce.mem = true ∧ closingFile.trailing ≠ 0 ∧ closingFile.account.restarts ≠ 0 ∧
    closingFile.account.countBal ≠ 0 := by unfold EntriesFit CoderHolds DeskFits Acts at_; decide +kernel
theorem witness_DeskChangeLetsEverySlipGo : ready.powered = true ∧ ready.engine ≠ .recovering ∧ ready.desk.sweep = none ∧
    (quickly [] ready).desk.sweep ≠ none ∧ (ending.chan 2).state = .ending ∧ (owing.chan 2).state = .running ∧
    (owing.chan 2).closing = .none ∧ (owing.chan 2).file = some (file0 [.new 990 3] true) ∧ ((headed 0x48).chan 2).state = .header ∧
    ((headed 0x48).chan 2).file = none ∧ owing.desk.sweep = none ∧ recovering.engine = .recovering := by decide +kernel

/-! The coder, the catalog and the lanes. -/

def theKey : StreamKey := { switch := 5, day := 90, group := 1 }
/-- A block of no places in hand, of 12 bytes, for a segment with a reserve mark. -/
def coding (reserve : Nat) (st : LiveState) : State :=
  holding 65543 st { seg with bytes := 0, reserve := reserve }
    { ready with coder := { state := .coding, buffers := bset (Vector.replicate 2 Buffer.free) 1 (.forming theKey []), target := some 65543 } }
theorem witness_CodingCompletesByItsTarget : Acts (coding 0 .filling) ∧ (coding 0 .filling).inHand = some (1, theKey, []) ∧
    (coding 0 .filling).coder.target = some 65543 ∧ (coding 0 .filling).cat.openReq = none ∧ (coding 0 .filling).feed.stalled = [] ∧
    (coding 67108852 .filling).live? 65543 = some (.filling, { seg with bytes := 0, reserve := 67108852 }) ∧
    (coding 0 .filling).isOnline (laneOf 65543) = true ∧
    67108852 + ((coding 0 .filling).codedBytes seg []).length = 67108864 ∧
    (coding 67108853 .filling).live? 65543 = some (.filling, { seg with bytes := 0, reserve := 67108853 }) ∧
    (coding 0 .closed).live? 65543 = some (.closed, { seg with bytes := 0, reserve := 0 }) := by unfold Acts; decide +kernel
def opening : State := { coding 0 .closed with cat := { (coding 0 .closed).cat with openReq := some { key := theKey, arrived := true } } }
/-- 256 FILLING segments of lane 4, of which the last two are of the oldest record day; the first of those has a reserve mark or none. -/
def opening256 (reserve : Nat) : State :=
  { opening with cat := { opening.cat with table := (List.range 256).map fun i =>
      (65543 + i, { content := .live .filling { seg with key := { seg.key with day := if i < 254 then 91 else 90 }, reserve := reserve }, erases := 0, fault := false }) } }
theorem witness_OpenGrantsTheNextExtent : Acts opening ∧ opening.cat.openReq = some { key := theKey, arrived := true } ∧
    opening.inHand.isSome = true ∧ opening.feed.stalled = [] ∧ opening.fillings.length < 256 ∧ opening.grantExtent = some (0, 4) ∧
    (opening.extent? 4).isSome = true ∧ ({ opening with cat := { opening.cat with usable := 0 } } : State).grantExtent = none ∧
    opening.engine = .ready ∧ rising opening.cat.table = true ∧ (∀ p ∈ opening.cat.table, opening.usable p.1 = true) := by
  unfold Acts; decide +kernel
theorem witness_OpenGrantsTheNextExtent_limit : 256 ≤ (opening256 1).fillings.length ∧ rising (opening256 1).cat.table = true ∧
    (∀ p ∈ (opening256 1).cat.table, (opening256 1).usable p.1 = true) ∧ (opening256 1).grantExtent = some (0, 4) ∧
    (opening256 1).openVictim = some 65797 ∧ (opening256 0).openVictim = some 65797 ∧
    (opening256 1).cat.openReq = some { key := theKey, arrived := true } := by decide +kernel
def laneFull (g : Nat) : Lane := { Lane.start true with foreQ := [.erase 9], backQ := [.erase 5], grants := g }
theorem witness_GrantOrder : (Lane.start false).online = false ∧ (laneFull 255).canGrant = true ∧ (laneFull 255).grants < 256 ∧
    (laneFull 255).backQ = [.erase 5] ∧ (laneFull 255).foreQ = [.erase 9] ∧ (laneFull 255).quota.getD 0 ≤ (laneFull 255).backGrants ∧
    ({ laneFull 255 with quota := some 1 } : Lane).backGrants < 1 ∧ (laneFull 0).canGrant = true ∧ (laneFull 0).journalQ = [] ∧
    (laneFull 0).foreQ ≠ [] ∧ (laneFull 0).grants = 0 ∧ (laneFull 255).grants ≠ 0 ∧
    ({ laneFull 0 with journalQ := [.erase 3] } : Lane).journalQ ≠ [] := by decide +kernel
theorem witness_GrantOrder_window : (ready.onLane 3 fun _ => laneFull 256).laneActs = true ∧ recovering.laneActs = true ∧
    256 ≤ (bget (ready.onLane 3 fun _ => laneFull 256).lanes.lane 3).grants ∧
    (bget (ready.onLane 3 fun _ => laneFull 255).lanes.lane 3).grants < 256 := by decide +kernel

def storing (st : LiveState) (offset : Nat) : State :=
  carrying 4 (.store 65543 offset 0 [1, 2]) (holding 65543 st { seg with inFlight := 1, reserve := 2000002 }
    { ready with coder := { Coder.blank with buffers := bset Coder.blank.buffers 0 (.inFlight 65543 offset [] 71 72 [1, 2]) } })
theorem witness_StoreCompletionAppends : Acts (storing .filling 2000000) ∧
    (bget (storing .filling 2000000).lanes.lane 4).inProgress = some (.store 65543 2000000 0 [1, 2]) ∧
    bget (storing .filling 2000000).coder.buffers 0 = .inFlight 65543 2000000 [] 71 72 [1, 2] ∧
    (storing .filling 2000000).live? 65543 = some (.filling, { seg with inFlight := 1, reserve := 2000002 }) ∧ seg.bytes = 2000000 ∧
    (storing .closed 2000001).live? 65543 = some (.closed, { seg with inFlight := 1, reserve := 2000002 }) ∧
    Memory.wf Config.mediaFill (storing .filling 2000000).media = true := by unfold Acts; decide +kernel
/-- The coder's other block in hand, and the stored block's one record in a SEALED page. -/
def storingHeld : State :=
  let s := storing .filling 2000000
  { s with pool := { pages := [{ pageOf 1 with owner := none, sealedUp := true, committed := 1 }], serial := 4 },
           coder := { s.coder with buffers := bset (bset s.coder.buffers 1 (.forming theKey [])) 0 (.inFlight 65543 2000000 [(3, 0)] 71 72 [1, 2]) } }
theorem witness_StoreCompletionAppends_places : Acts storingHeld ∧ CoderHolds storingHeld ∧ storingHeld.feed.stalled = [] ∧
    bget storingHeld.coder.buffers 0 = .inFlight 65543 2000000 [(3, 0)] 71 72 [1, 2] ∧
    storingHeld.live? 65543 = some (.filling, { seg with inFlight := 1, reserve := 2000002 }) ∧
    (bget storingHeld.lanes.lane 4).inProgress = some (.store 65543 2000000 0 [1, 2]) := by unfold Acts CoderHolds; decide +kernel
theorem witness_LaneGoesOffline : ready.laneActs = true ∧ recovering.laneActs = true ∧ 3 ≤ ({ Lane.start true with errorRun := 3 } : Lane).errorRun ∧
    (bget (ready.onLane 3 fun l => { l with errorRun := 3 }).lanes.lane 3).online = true ∧
    (bget (ready.onLane 3 fun l => { l with errorRun := 3 }).lanes.lane 3).inProgress = none ∧
    (bget (ready.onLane 3 fun l => { l with errorRun := 2 }).lanes.lane 3).errorRun < 3 ∧ ready.engine ≠ .formatting := by
  decide +kernel

def visit0 (asked : Nat) : Visit := { (State.newVisit 65543 seg) with asked := asked, waiting := true }
def scrubbing (asked : Nat) : State :=
  carrying 4 (.fetch 65543 0 1048576 .scrub) (busy (holding 65543 .closed { seg with pins := 1 }
    { ready with scrub := { Scrub.blank with enable := true, state := .stepping, cursor := 65543, visit := some (visit0 asked) } }))
/-- A VERIFY and an EXTRACT at the same place, alone or with a more urgent operation waiting to preempt. -/
def reader (b : OpBody) (preempted : Bool) : State :=
  carrying 4 (.fetch 65543 0 1048576 (.op 9)) (stepping b (holding 65543 .closed { seg with pins := 1 } ready)) |>.onExec fun e =>
    if preempted then { e with waiting := [{ op (.expire Pass.start) with adm := 10 }], preempt := some 10 } else e
def verifies (asked : Nat) : OpBody := .verify everything 65543 { checked := 0, passed := 0, failed := 0, skipped := 0 } (some (visit0 asked))
def extracts (asked : Nat) : OpBody :=
  .extract { switch := 5, day := 90, mask := 0x0F, range := none, resume := none, buffer := 0x40000, capacity := 1 }
    { ExtractState.start with visit := some (visit0 asked) }
/-- What is asked of a reader's state: an engine that acts, the fetch in progress, the visit and the pinned segment. -/
def reads (b : OpBody) (preempted : Bool) (asked : Nat) : Bool :=
  let s := reader b preempted
  decide (s.powered = true ∧ s.engine ≠ .recovering ∧
    (bget s.lanes.lane 4).inProgress = some (.fetch 65543 0 1048576 (.op 9)) ∧
    s.live? 65543 = some (.closed, { seg with pins := 1 }) ∧ b.visit = some (visit0 asked) ∧
    s.exec.running = some { op b with begun := true } ∧ (op b).stopping = false ∧ (op b).adm = 9 ∧
    (visit0 asked).waiting = true ∧ (visit0 asked).seg = 65543 ∧ s.isOnline (laneOf 65543) = true ∧
    (s.exec.preempt = some 10 ↔ preempted = true) ∧ ((s.exec.waiting.find? fun x => x.adm == 10).isSome = preempted))
/-- The same of the scrub. -/
def scrubs (asked : Nat) : Bool :=
  let s := scrubbing asked
  decide (s.powered = true ∧ s.engine ≠ .recovering ∧
    (bget s.lanes.lane 4).inProgress = some (.fetch 65543 0 1048576 .scrub) ∧ s.scrub.visit = some (visit0 asked) ∧
    s.live? 65543 = some (.closed, { seg with pins := 1 }) ∧ s.isOnline (laneOf 65543) = true ∧ s.exec.running.isSome = true)
theorem witness_FetchErrorEndsTheReading : scrubs 1048576 = true ∧ reads (verifies 1048576) false 1048576 = true ∧
    reads (verifies 1048576) true 1048576 = true ∧ reads (extracts 1048576) false 1048576 = true ∧
    reads (extracts 1048576) true 1048576 = true ∧ 65543 + 1 < 262144 ∧ ready.engine = .ready := by decide +kernel
theorem witness_FetchBringsTheReaderOn : scrubs 1999999 = true ∧ reads (verifies 1999999) false 1999999 = true ∧
    reads (verifies 1999999) true 1999999 = true ∧ reads (extracts 1999999) false 1999999 = true ∧
    reads (extracts 2000000) false 2000000 = true ∧
    (visit0 1999999).asked < (visit0 1999999).length ∧ (visit0 2000000).length ≤ (visit0 2000000).asked ∧
    (reader (extracts 2000000) false).exec.suspended = [] ∧ (reader (extracts 2000000) false).exec.waiting = [] := by decide +kernel
theorem witness_LastFetchGivesTheVerdict : scrubs 2000000 = true ∧ reads (verifies 2000000) false 2000000 = true ∧
    (visit0 2000000).length ≤ (visit0 2000000).asked ∧ 65543 + 1 < 262144 ∧ ready.engine = .ready := by decide +kernel

/-- R158 to R161 at the last of no bytes: the digest of no bytes is 0, so a segment of no block with digest 0 passes. -/
def emptySeg : Segment :=
  { seg with records := 0, blocks := 0, bytes := 0, firstSeq := none, lastSeq := none, digest := 0, link := 0 }
def standing (g : Segment) : Option (AuditMark × Option Nat × Nat) :=
  ((nextOf .scrubStep (holding 65543 .closed g
    { ready with scrub := { Scrub.blank with enable := true, state := .walking, cursor := 65543 } })).live? 65543).map
    fun x => (x.2.mark, x.2.verified, x.2.fails)
theorem test_verdicts : standing emptySeg = some (.verified, some 100, 0) ∧
    standing { emptySeg with digest := 1 } = some (.suspect, none, 1) ∧ standing { emptySeg with link := 1, fails := 15 } = some (.suspect, none, 15) := by
  decide +kernel
/-- Lane 4 with an error run of 3 after a fetch, and one request queued. -/
def thirdError (r : List Request) (s : State) : State :=
  s.onLane 4 fun l => { l with errorRun := 3, foreQ := r, lastError := some (.fetch 65543 0 1 .scrub) }
def failing : State := (scrubbing 1048576).onLane 4 fun l => { l with inProgress := none }
theorem witness_LaneGoesOffline_fates : (thirdError [] ready).laneActs = true ∧ NoChoice (thirdError [] ready) ∧
    (bget (thirdError [] ready).lanes.lane 4).lastError = some (.fetch 65543 0 1 .scrub) ∧
    (holding 65543 .erasing seg ready).extent? 65543 = some { content := .live .erasing seg, erases := 3, fault := false } ∧
    EntriesFit 2 (thirdError [.erase 65543] (holding 65543 .erasing seg ready)) ∧
    (storing .filling 2000000).live? 65543 = some (.filling, { seg with inFlight := 1, reserve := 2000002 }) ∧
    failing.live? 65543 = some (.closed, { seg with pins := 1 }) ∧ (failing.extent? 65543).isSome = true ∧
    failing.scrub.visit = some (visit0 1048576) ∧ NoChoice failing ∧ NoChoice (reader (verifies 1048576) false) ∧
    (visit0 1048576).seg = 65543 ∧ (visit0 1048576).waiting = true ∧ (reader (extracts 1048576) false).exec.preempt = none ∧
    ({ ready with jnl := { Journal.blank with head := 2, buffer := [{ seq := 1, day := 1, second := false, body := EntryBody.mk0 .formatted .none 0 0 0 }], out := some { lane := 4, first := 1, count := 1 } } } : State).jnl.buffer ≠ [] := by
  unfold NoChoice EntriesFit; decide +kernel
def erasing : State := carrying 4 (.erase 65543) (holding 65543 .erasing seg ready)
theorem witness_EraseCompletionFreesOrRetires : erasing.laneActs = true ∧ erasing.engine = .ready ∧
    (bget erasing.lanes.lane 4).inProgress = some (.erase 65543) ∧
    erasing.extent? 65543 = some { content := .live .erasing seg, erases := 3, fault := false } ∧ erasing.jnl.line = [] ∧
    erasing.jnl.buffer.length < 4096 ∧ 0 < erasing.room := by decide +kernel
def writing : State :=
  carrying 2 (.journalWrite 32768 0 [7]) { ready with jnl := { Journal.blank with head := 2, out := some { lane := 2, first := 1, count := 1 } } }
theorem witness_JournalRunSettles : writing.laneActs = true ∧
    (bget writing.lanes.lane 2).inProgress = some (.journalWrite 32768 0 [7]) ∧
    writing.jnl.out = some { lane := 2, first := 1, count := 1 } ∧ Memory.wf Config.mediaFill writing.media = true ∧
    ({ writing with jnl := { writing.jnl with buffer := [{ seq := 1, day := 1, second := false, body := EntryBody.mk0 .formatted .none 0 0 0 }] } } : State).jnl.buffer ≠ [] ∧
    writing.nextOnline (2 + 1) = some 3 ∧ ({ writing with lanes := Lanes.blank } : State).nextOnline (2 + 1) = none := by decide +kernel
theorem witness_SubmissionsWaitInLine : ready.engine = .ready ∧ ready.jnl.line = [] ∧ ready.jnl.buffer.length < 4096 ∧ 0 < ready.room ∧
    State.reset.engine = .blank ∧ ({ ready with jnl := { Journal.blank with head := 1048577 } } : State).room = 0 ∧
    ({ ready with jnl := { Journal.blank with head := 1048576 } } : State).room = 1 := by decide +kernel

def holdParams : List Byte := [9, 0, 0, 0, 0, 0, 1, 0x0F, 0, 0, 0xFF, 0xFF]
def queued : State :=
  quickly [slip .hold holdParams] ((holding 65543 .erasing seg ready).onLane 4 fun l => { l with backQ := [.erase 65543] })
theorem witness_WithdrawalOfAnErase : Request.erase 65543 ∈ (bget queued.lanes.lane (laneOf 65543)).backQ ∧
    (bget erasing.lanes.lane (laneOf 65543)).inProgress = some (.erase 65543) ∧
    Request.erase 65543 ∉ (bget erasing.lanes.lane (laneOf 65543)).backQ ∧
    Front .hold (slip .hold holdParams) queued ∧ GoodSwitch (readHold holdParams).2.all (readHold holdParams).2.switch ∧
    GoodSelection (readHold holdParams).2 ∧ (∀ h ∈ queued.ret.holds, h.id ≠ (readHold holdParams).1) ∧
    queued.ret.holds.length < 64 ∧ queued.live? 65543 = some (.erasing, seg) ∧ (readHold holdParams).2.covers seg.key = true ∧
    queued.withdrawal 65543 = .withdrawn ∧ erasing.withdrawal 65543 = .started := by
  unfold Front GoodSwitch GoodSelection Acts; decide +kernel

theorem witness_StepCodeAndZigzag : (4294967295 : Nat) < 4294967296 ∧ (15 : Nat) ≤ 15 ∧ (16 : Nat) ≤ 16 ∧ (4096 : Nat) ≤ 4096 := by decide
theorem witness_CodedBlocksDecode : itsEdition.routes.length ≤ 256 ∧ itsEdition.sites.length ≤ 256 ∧ itsEdition.prefixes.length ≤ 256 ∧
    1 ≤ threeRecords.length ∧ threeRecords.length ≤ 64 ∧
    ∀ r ∈ threeRecords, r.cls ≤ 7 ∧ r.cause < 256 ∧ r.start ≤ 863999 ∧ r.duration ≤ 16777215 ∧ r.route < 65536 ∧
      r.site < 4294967296 ∧ r.charge < 4294967296 ∧ r.calling.length ≤ 18 ∧ r.called.length ≤ 18 ∧
      (∀ d ∈ r.calling, d ≤ 11) ∧ ∀ d ∈ r.called, d ≤ 11 := by decide +kernel
/-- A full prefix tally whose counts are all 3. -/
def fullTally : Tally (List Nat) := (List.range 512).map fun i => (i, ([i, 0], 3))
theorem witness_TallyUpdate : rising routeTally = true ∧ routeTally.length ≤ 512 ∧
    (routeTally.find? fun p => decide (p.2.1 = 18)) = some (5, (18, 1)) ∧ (∀ p ∈ routeTally, p.2.1 ≠ 19) ∧ routeTally.length < 512 ∧
    fullTally.length = 512 ∧ rising fullTally = true ∧ ∀ p ∈ fullTally, p.2.1 ≠ [1, 2, 3, 4, 5, 6] := by decide +kernel
/-- R86: among equal least counts the lowest-numbered slot is replaced, with its old count plus 1. -/
theorem test_tally_replaces_the_least : tfind 0 (tallyUpdate [7] fullTally) = some ([7], 4) ∧ tfind 1 (tallyUpdate [7] fullTally) = some ([1, 0], 3) := by
  decide +kernel

/-! The long operations. -/

/-- Three operations that wait or are suspended, an urgent one handed over to a running VERIFY, and one without a fetch. -/
def waitingOp (adm prio : Nat) : Op := { op (.expire Pass.start) with adm := adm, prio := prio }
def choosing : State := { ready with exec := { Exec.blank with suspended := [waitingOp 4 1], waiting := [waitingOp 5 0, waitingOp 6 0] } }
theorem witness_ChoiceAndPreemption : choosing.exec.running = none ∧ choosing.pick = some (waitingOp 5 0) ∧ (waitingOp 5 0).body.visit = none ∧
    choosing.engine ≠ .recovering ∧ recovering.engine = .recovering ∧
    ready.pick = none ∧ (reader (verifies 5) false).exec.running = some { op (verifies 5) with begun := true } ∧
    (op (verifies 5)).prio = 1 ∧ (reader (verifies 5) false).exec.suspended.length < 2 ∧ (reader (verifies 5) false).exec.preempt = none ∧
    (op (verifies 5)).fetching = true ∧ (verifies 5).fetches = true ∧
    (stepping (.verify everything 3 { checked := 0, passed := 0, failed := 0, skipped := 0 } none) ready).exec.waiting = [] ∧
    (op (.verify everything 3 { checked := 0, passed := 0, failed := 0, skipped := 0 } none)).fetching = false := by decide +kernel
/-- R190, R191: equal priorities go in admission order after the suspended; an urgent operation of priority 0 takes over at once from
a VERIFY of priority 1 without a fetch outstanding. -/
theorem test_choice : (choosing.nextOp.exec.running.map Op.adm) = some 5 ∧
    ((stepping (.verify everything 3 { checked := 0, passed := 0, failed := 0, skipped := 0 } none) ready).handOver
      { waitingOp 11 0 with urgent := true }).exec.running.map Op.adm = some 11 := by decide +kernel

theorem witness_AdvanceTakesTheNewDay :
    Fresh (op (.advance 120 0 0 .off Pass.start)) (fresh (.advance 120 0 0 .off Pass.start) (holding 65543 .filling seg ready)) ∧
    (fresh (.advance 120 0 0 .off Pass.start) (holding 65543 .filling seg ready)).live? 65543 = some (.filling, seg) ∧
    seg.key.day + ready.ret.lateWindow < 120 ∧ seg.reserve ≠ 0 ∧ ready.ret.autoCut = true ∧ ready.freeSlot.isSome = true ∧
    ready.fillings = [] ∧ ({ ready.ret with autoCut := false } : Retention).autoCut = false ∧
    ({ ready with eds := { Editions.blank with slots := Vector.replicate 32 { EditionSlot.freeSlot with state := .retained } } } : State).freeSlot = none := by
  unfold Fresh Acts; decide +kernel

/-- Log 35: a suspension requested before the first run of an ADVANCE is taken at its end, unless DAY-ADVANCED waits in the line. -/
theorem test_advance_suspended :
    let s (j : Journal) : State := { fresh (.advance 120 0 0 .off Pass.start) { ready with jnl := j } with
      exec := { Exec.blank with running := some (op (.advance 120 0 0 .off Pass.start)), waiting := [waitingOp 10 0], preempt := some 10 } }
    (nextOf (.advance quiet) (s Journal.blank)).exec.running.map Op.adm = some 10 ∧
    (nextOf (.advance quiet) (s fullJournal)).exec.running.map Op.adm = some 9 := by decide +kernel

def extracting : ExtractParams := { switch := 5, day := 90, mask := 0x0F, range := none, resume := none, buffer := 0x40000, capacity := 1 }
def resuming (n blk : Nat) : ExtractParams := { extracting with resume := some (n, blk, 0) }
def counts0 : VerifyCounts := { checked := 0, passed := 0, failed := 0, skipped := 0 }
theorem witness_LongOperationsBegin : Fresh (op (.expire Pass.start)) (fresh (.expire Pass.start) ready) ∧
    (op (.expire Pass.start)).stopping = false ∧ Fresh (op (.walk 3 0 0)) (fresh (.walk 3 0 0) ready) ∧ ready.frontQuick .retain = none ∧
    Fresh (op (.verify everything 0 counts0 none)) (fresh (.verify everything 0 counts0 none) ready) ∧
    GoodSwitch everything.all everything.switch ∧ GoodSelection everything ∧ extracting.resume = none ∧ extracting.switch ≤ 1023 ∧
    (∃ g, g < 4 ∧ extracting.mask.getLsbD g = true) ∧ extracting.capacity ≠ 0 ∧ extracting.range = none ∧ (262143 : Nat) < 262144 ∧ (1 : Nat) ≤ ({ ready with jnl := { Journal.blank with head := 3, settled := 2 } } : State).jnl.head ∧
    (resuming 65543 0).resume = some (65543, 0, 0) ∧ (holding 65543 .closed seg ready).live? 65543 = some (.closed, seg) ∧
    seg.key.switch = extracting.switch ∧ seg.key.day = extracting.day ∧ maskHas extracting.mask seg.key.group = true ∧ 0 < seg.blocks ∧
    seg.bytes ≠ 0 ∧ ready.isOnline (laneOf 65543) = true := by unfold Fresh GoodSwitch GoodSelection Acts; decide +kernel
theorem witness_LongOperationsAreRefused : Fresh (op (.format goodFormat)) (fresh (.format goodFormat) ready) ∧
    (fresh (.format goodFormat) ready).exec.suspended = [] ∧ (fresh (.format goodFormat) ready).exec.waiting = [] ∧
    ready.engine ≠ .blank ∧ State.reset.onlineMask = 0 ∧ ¬ GoodFormat { goodFormat with horizon := 367 } ∧
    ¬ GoodSwitch false 1024 ∧ ¬ GoodSelection { everything with mask := 0xF0 } ∧
    (resuming 65543 1).resume = some (65543, 1, 0) ∧
    seg.blocks ≤ 1 ∧ ready.live? 65543 = none ∧ ready.jnl.head < 2 ∧
    ({ ready with jnl := { Journal.blank with head := 3, settled := 3, release := 2 } } : State).jnl.release = 2 ∧ ready.jnl.settled ≤ 1 := by
  unfold Fresh GoodFormat GoodSwitch GoodSelection Acts; decide +kernel

def passing (n : Nat) (st : LiveState) (g : Segment) : State := stepping (.expire { Pass.start with cursor := n }) (holding n st g ready)
theorem witness_ExpiryPassJudges : Stepping { op (.expire { Pass.start with cursor := 262142 }) with begun := true } (passing 262142 .closed seg) ∧
    (op (.expire { Pass.start with cursor := 262142 })).body.pass = some { Pass.start with cursor := 262142 } ∧
    (passing 262142 .closed seg).waits (.op 9) = false ∧ (262142 + 1 < 262144) ∧
    (passing 262142 .closed seg).live? 262142 = some (.closed, seg) ∧ seg.expiry ≤ ready.ret.day ∧
    ready.ret.day < ({ seg with expiry := 101 } : Segment).expiry ∧ 65536 ≤ ready.room ∧
    ({ ready with jnl := { Journal.blank with head := 983042 } } : State).room < 65536 ∧ ready.isOnline (laneOf 262142) = true := by
  unfold Stepping Acts; decide +kernel
theorem witness_RetentionWalkRaises : Stepping { op (.walk 1 65543 0) with begun := true } (stepping (.walk 1 65543 0) (holding 65543 .closed { seg with expiry := 99 } ready)) ∧
    (holding 65543 .closed { seg with expiry := 99 } ready).live? 65543 = some (.closed, { seg with expiry := 99 }) ∧
    (99 : Nat) < min (seg.key.day + ready.walkCount 1) 65535 ∧ min (seg.key.day + ready.walkCount 1) 65535 ≤ seg.expiry ∧ seg.key.group = (1 : GroupNo).val := by
  unfold Stepping Acts; decide +kernel
def verifying (st : LiveState) : State := stepping (.verify everything 65543 counts0 none) (holding 65543 st seg ready)
theorem witness_VerifyCursorJudges : Stepping { op (.verify everything 65543 counts0 none) with begun := true } (verifying .closed) ∧
    (verifying .closed).live? 65543 = some (.closed, seg) ∧ everything.covers seg.key = true ∧ seg.inFlight = 0 ∧
    (verifying .closed).isOnline (laneOf 65543) = true ∧ seg.bytes ≠ 0 ∧ (verifying .filling).live? 65543 = some (.filling, seg) ∧
    (verifying .erasing).live? 65543 = some (.erasing, seg) := by unfold Stepping Acts; decide +kernel
def parts : ExtractState := { ExtractState.start with key := some (1, 1, 2) }
def reading (st : ExtractState) : State := stepping (.extract extracting st) (holding 65543 .closed seg ready)
theorem witness_ExtractGoesToTheNextPart : Stepping { op (.extract extracting parts) with begun := true } (reading parts) ∧ parts.visit = none ∧
    (reading parts).nextPart extracting parts.key parts.groups = some (1, 1, 2, []) ∧
    (reading parts).partOf (State.extractKey extracting 1) 1 = some (65543, .closed, seg) ∧
    (reading parts).partOf (State.extractKey extracting 1) 2 = none ∧ seg.bytes ≠ 0 ∧ (reading parts).isOnline (laneOf 65543) = true ∧
    (reading ExtractState.start).nextPart extracting none [] = none ∧ (reading parts).exec.suspended = [] ∧ (reading parts).exec.waiting = [] := by
  unfold Stepping Acts; decide +kernel
def entry0 : Entry := { seq := 1, day := 100, second := false, body := EntryBody.mk0 .formatted .none 1 0 1 }
def logged : State := stepping (.journalRead 1 2 0x30000 3 1) { ready with jnl := { Journal.blank with store := [entry0, entry0], head := 3, settled := 3 } }
def listing : State := stepping (.catalogRead everything 0x30000 1 65543 0) (holding 65543 .closed seg ready)
theorem witness_ReadsWriteTheirEntries : Stepping { op (.catalogRead everything 0x30000 1 65543 0) with begun := true } listing ∧
    Memory.wf Config.hostFill listing.mem = true ∧ (∀ j, j < 64 → OffDesk listing (0x30000 + 64 * 0 + j)) ∧
    listing.extent? 65543 = some { content := .live .closed seg, erases := 3, fault := false } ∧ everything.covers seg.key = true ∧
    Stepping { op (.journalRead 1 2 0x30000 3 1) with begun := true } logged ∧ logged.storedEntry 1 = some entry0 ∧
    (∀ j, j < 32 → OffDesk logged (0x30000 + 32 * (1 - 1) + j)) := by
  unfold Stepping Acts OffDesk; decide +kernel

/-! The quick slips and the scrub. -/

theorem witness_RetentionSlipsSetTheRetentionUnit : Front .retain (slip .retain [3, 0, 5, 0]) (quickly [slip .retain [3, 0, 5, 0]] ready) ∧
    field [3, 0, 5, 0] 0 1 = (3 : GroupNo).val ∧ Front .classmap (slip .classmap (List.replicate 8 3)) (quickly [slip .classmap (List.replicate 8 3)] ready) ∧
    ready.anyOpen = false ∧ (∀ c : Fin 8, ((List.replicate 8 (3 : Byte)).getD c.val 0).toNat ≤ 3) ∧ owing.anyOpen = true ∧
    (∃ c : Fin 8, 3 < ((List.replicate 8 (4 : Byte)).getD c.val 0).toNat) ∧
    Front .hold (slip .hold holdParams) (quickly [slip .hold holdParams] ready) ∧ ready.ret.holds.length < 64 ∧
    Front .release (slip .release [9, 0, 0, 0]) (quickly [slip .release [9, 0, 0, 0]] ready) ∧
    Front .settings (slip .settings [32, 1, 111, 1]) (quickly [slip .settings [32, 1, 111, 1]] ready) := by
  unfold Front Acts; decide +kernel
theorem witness_CutAndLoadInstallAnEdition : Front .cut (slip .cut []) (quickly [slip .cut []] ready) ∧ ready.freeSlot = some 0 ∧
    ({ ready with eds := { Editions.blank with slots := Vector.replicate 32 { EditionSlot.freeSlot with state := .retained } } } : State).freeSlot = none ∧
    Front .editionLoad (slip .editionLoad []) (quickly [slip .editionLoad []] ready) ∧
    (at_ quiet ready).failedTable [] = none ∧ badEntry [] [] [] = none ∧ badEntry [7, 7] [] [] = some (1, 1, .duplicate) := by
  unfold Front Acts at_; decide +kernel
def contextWrite (act : Byte) : Admitted := slip .contextWrite [5, 0, act, 0, 1, 0, 0, 0]
def written (a : Admitted) (s : State) : State := quickly [a, slip .cut []] { s with mem := [(0x10000 + 128 * 6, 2)] }
def lastOf (a : Admitted) : State := quickly [a] { ready with mem := [(0x10000 + 128 * 6, 2)] }
theorem witness_ContextSlipsReadAndWrite : Acts (written (contextWrite 1) ready) ∧
    (written (contextWrite 1) ready).exec.running.isSome = true ∧ (written (contextWrite 1) ready).feed.stalled = [] ∧
    DeskFits (written (contextWrite 1) ready) ∧ ready.desk.place ≠ 0 ∧
    Memory.wf Config.hostFill (written (contextWrite 1) ready).mem = true ∧ canonical SwitchCtx.unseen ready.recon.switches = true ∧
    (at_ quiet (written (slip .contextRead [0xFF, 3]) ready)).dropsAnswer 5 = false ∧ field [0xFF, 3] 0 2 ≤ 1023 ∧
    ((written (contextWrite 1) (feeding ready)).switchCtx 5).state = .feeding ∧ ((written (contextWrite 2) ready).switchCtx 5).state ≠ .feeding ∧
    (lastOf (contextWrite 1)).desk.sweep = some { quick := [contextWrite 1], long := [] } ∧ Acts (lastOf (contextWrite 1)) ∧
    (lastOf (contextWrite 1)).desk.baseWritten = false ∧ (lastOf (contextWrite 1)).exec.running.isSome = true := by
  unfold DeskFits at_ Acts; decide +kernel
def closing : State := quickly [slip .close [5, 0, 0, 0, 90, 0]] (holding 65543 .filling seg ready)
theorem witness_CloseResolveAndJournalRelease : GoodSwitch false 5 ∧ rising closing.cat.table = true ∧ Front .close (slip .close [5, 0, 0, 0, 90, 0]) closing ∧
    closing.live? 65543 = some (.filling, seg) ∧ seg.key.day = field [5, 0, 0, 0, 90, 0] 4 2 ∧ seg.key.switch = field [5, 0, 0, 0, 90, 0] 0 2 ∧ seg.reserve ≠ 0 ∧
    Front .resolve (slip .resolve [7, 0, 1, 0]) (quickly [slip .resolve [7, 0, 1, 0]] (holding 65543 .closed { seg with mark := .suspect } ready)) ∧
    field [7, 0, 1, 0] 0 4 = 65543 := by unfold Front GoodSwitch Acts; decide +kernel
theorem witness_CloseResolveAndJournalRelease_release : Front .journalRelease (slip .journalRelease [1]) (quickly [slip .journalRelease [1]] ready) ∧
    ready.jnl.head ≤ 1 := by unfold Front Acts; decide +kernel
def walking (g : Segment) : State :=
  holding 262142 .closed g { ready with scrub := { Scrub.blank with enable := true, state := .walking, cursor := 262142 } }
def lastNumber : State := { ready with scrub := { Scrub.blank with enable := true, state := .walking, cursor := 262143 } }
theorem witness_ScrubJudgesItsCursor : (walking seg).powered = true ∧ (walking seg).scrubActive = true ∧ (walking seg).scrub.state = .walking ∧
    (walking seg).waits .scrub = false ∧ (walking seg).scrub.cursor + 1 < 262144 ∧ (walking seg).live? 262142 = some (.closed, seg) ∧
    (walking seg).dueForScrub 262142 .closed seg = true ∧ 65536 ≤ (walking seg).room ∧ seg.bytes ≠ 0 ∧
    (walking { seg with mark := .suspect }).dueForScrub 262142 .closed { seg with mark := .suspect } = false ∧ ready.scrubActive = false ∧
    EntryFits lastNumber ∧ 262144 ≤ lastNumber.scrub.cursor + 1 ∧ lastNumber.live? 262143 = none ∧
    ¬ EntryFits { lastNumber with jnl := fullJournal } ∧ ({ lastNumber with jnl := fullJournal } : State).waits .scrub = false := by
  unfold EntryFits; decide +kernel

/-! The marks at a sweep: one state for each clause. -/

def first (s : State) : State := { s with desk := { s.desk with first := true } }
def itsMarks (s : State) : RingMarks := readMarks ((at_ quiet s).hostBytes (s.paramsAt 5) 56)
/-- The filled mark, the final flag and the total length of slip 5. -/
def filled (n fin total : Byte) (s : State) : State :=
  { s with mem := Memory.writeCells 0 s.mem [(slipAt5 + 48, n), (slipAt5 + 56, fin), (slipAt5 + 64, total)] }
def inHeader (mark : Byte) : State := swept mark 2 0 0 .held (headed 0x48)
def expireOp : Op := op (.expire Pass.start)
def admits (kind prio p0 : Byte) : State := swept 1 kind prio p0 .notHeld ready
def oneSlips : List State :=
  [admits 2 0 0, admits 2 1 0, admits 21 0 0, admits 1 0 0, admits 10 0 0, admits 9 0 0, admits 5 0 3, swept 3 2 0 0 .notHeld ready,
   swept 2 2 0 0 .notHeld ready, swept 0 2 0 0 .held { ready with desk := { ready.desk with list := [slip .ingest []] } },
   byExec [slipOp verifyNone] [] expireOp (swept 1 6 0 0 .held ready), byExec [slipOp (.expire Pass.start)] [] expireOp (swept 0 4 0 0 .held ready),
   byExec [] [slipOp (verifies 5)] expireOp (holding 65543 .closed { seg with pins := 1 } (swept 0 6 0 0 .held ready)),
   byExec [] [] (slipOp verifyNone) (swept 0 6 0 0 .held ready), byExec [] [] (slipOp (verifies 5)) (swept 0 6 0 0 .held ready),
   inHeader 0, swept 0 2 0 0 .held owing, swept 0 2 0 0 .held ending, filled 128 0 0 (inHeader 2), filled 63 0 0 (inHeader 2),
   filled 64 1 64 (inHeader 2), filled 0 1 63 (swept 2 2 0 0 .held (channel (chanIn .header none 0 0) ready)), swept 2 2 0 0 .held owing,
   first (swept 2 2 0 0 .notHeld ready), first (swept 3 2 0 0 .notHeld ready)]
theorem witness_SweepDealsWithTheMarks : ∀ s ∈ oneSlips, OneSlip quiet 5 s := by
  unfold OneSlip DeskFits Steady NoChoice NoneResumes byteAt at_; decide +kernel
/-- An admitted kind of each class, one that admission refuses, and one that names no kind; a priority at the threshold. -/
theorem witness_SweepDealsWithTheMarks_admits : enters5 (admits 2 0 0) = true ∧ enters5 (admits 2 1 0) = false ∧
    Kind.ofCode 21 = none ∧ Kind.ofCode 2 = some .ingest ∧ (admits 2 0 0).admissionRefusal .ingest ((admits 2 0 0).readParams .ingest 5) = none ∧
    (admits 1 0 0).admissionRefusal .format [] = some .wrongState ∧ Kind.ofCode 10 = some .close ∧ Kind.close.cls = .quick ∧
    (admits 10 0 0).admissionRefusal .close [] = none ∧ (Kind.catalogRead.body []).isSome = true ∧
    (admits 9 0 0).admissionRefusal .catalogRead [] = none ∧ field [3, 0, 10, 0] 0 1 = (3 : GroupNo).val ∧
    field [3, 0, 10, 0] 2 2 ≤ (bget ready.ret.groups 3).days ∧ (bget ready.ret.groups 3).days < field [3, 0, 11, 0] 2 2 ∧
    ready.admissionRefusal .retain [3, 0, 10, 0] = none ∧ ready.admissionRefusal .retain [3, 0, 11, 0] = none := by
  unfold enters5 itsHead at_; decide +kernel
/-- Where a withdrawn slip stands, and what a read of a ring's marks finds. -/
theorem witness_SweepDealsWithTheMarks_held : (byExec [slipOp verifyNone] [] expireOp ready).chanOfSlip 5 = none ∧
    (([slipOp verifyNone] ++ []).find? fun o => o.slip == some 5) = some (slipOp verifyNone) ∧ (slipOp verifyNone).body.cancellable = true ∧
    (slipOp (.expire Pass.start)).body.cancellable = false ∧ (slipOp (verifies 5)).body.visit = some (visit0 5) ∧
    verifyNone.fetches = true ∧ (slipOp verifyNone).fetching = false ∧ (slipOp (verifies 5)).fetching = true ∧
    (inHeader 0).chanOfSlip 5 = some 2 ∧ ((inHeader 0).chan 2).file = none ∧ ((inHeader 0).chan 2).closing = .none ∧
    (swept 0 2 0 0 .held owing).chanOfSlip 5 = some 2 ∧ (owing.chan 2).file = some (file0 [.new 990 3] true) ∧ EntriesFit 3 owing ∧
    (swept 0 2 0 0 .held ending).chanOfSlip 5 = some 2 ∧ (ending.chan 2).state = .ending ∧
    marksFault ((inHeader 2).chan 2) (itsMarks (filled 128 0 0 (inHeader 2))) = false ∧
    (itsMarks (filled 128 0 0 (inHeader 2))).final = false ∧
    marksFault ((inHeader 2).chan 2) (itsMarks (filled 63 0 0 (inHeader 2))) = true ∧
    marksFault ((inHeader 2).chan 2) (itsMarks (filled 64 1 64 (inHeader 2))) = false ∧
    (itsMarks (filled 64 1 64 (inHeader 2))).final = true ∧ (itsMarks (filled 64 1 64 (inHeader 2))).total = 64 ∧
    marksFault (chanIn .header none 0 0) (itsMarks (filled 0 1 63 (inHeader 2))) = false ∧
    (itsMarks (filled 0 1 63 (inHeader 2))).total < 64 ∧ marksFault (owing.chan 2) (itsMarks (swept 2 2 0 0 .held owing)) = true := by
  unfold EntriesFit itsMarks at_; decide +kernel

/-! Further clauses: the refusals, the ends of the walks and the boundary values. -/

theorem goesOnLater_waiting (adm prio : Nat) : GoesOnLater (waitingOp adm prio) :=
  ⟨rfl, by intro _ _ _ _ h; simp [waitingOp, op] at h⟩
/-- An executor with no other operation, and one with a later one, leave a quiet choice. -/
theorem quietChoice_alone (o : Op) (s : State) (h : s.exec.suspended ++ s.exec.waiting = []) : QuietChoice o s := by
  simp [QuietChoice, h]
theorem quietChoice_waiting (o : Op) (s : State) (h : s.exec.suspended ++ s.exec.waiting = [waitingOp 10 0]) (ho : o.adm = 9) :
    QuietChoice o s := by
  intro q hq
  rw [h] at hq
  obtain rfl := List.mem_singleton.mp hq
  exact ⟨by rw [ho]; decide, goesOnLater_waiting 10 0⟩
/-- A sweep whose last slip is in hand is calm: with an operation running, or with a later one that is chosen at its end. -/
theorem calm_running (s : State) (h : s.desk.baseWritten = false) (hr : s.exec.running.isSome = true) : Calm s := ⟨h, .inl hr⟩
theorem calm_waiting (s : State) (h : s.desk.baseWritten = false) (hr : s.exec.suspended ++ s.exec.waiting = [waitingOp 10 0])
    (hl : ((s.desk.sweep.map Sweep.long).getD []) = []) : Calm s := by
  refine ⟨h, .inr fun q hq => ?_⟩
  rw [hr, hl] at hq
  obtain rfl := List.mem_singleton.mp hq
  exact goesOnLater_waiting 10 0
def queueing (s : State) : State := s.onExec fun e => { e with waiting := [waitingOp 10 0] }

theorem witness_PowerOnWithStampRecovers_restart : ready.stamp = true ∧ 1 ≤ (part 1).made.val ∧ ready.jnl.buffer.length < 4096 ∧
    0 < ready.room ∧ ({ ready with jnl := fullJournal } : State).room = 0 := by decide +kernel
/-- The catalog's restoration of an ERASING segment on an OFFLINE lane, and each count of the restorations made. -/
def restoringOffline (j : Journal) : State :=
  ({ restoring .erasing 2000000 with jnl := j } : State).onLane 4 fun l => { l with online := false }
theorem witness_RecoveryRestoresTheBlocks_offline : (restoringOffline Journal.blank).engine = .recovering ∧
    rising (restoringOffline Journal.blank).cat.table = true ∧ (restoringOffline Journal.blank).isOnline (laneOf 65543) = false ∧
    (restoringOffline Journal.blank).extent? 65543 = some { content := .live .erasing seg, erases := 3, fault := false } ∧
    EntryFits (restoringOffline Journal.blank) ∧ ¬ EntryFits (restoringOffline fullJournal) ∧
    ∀ k : Fin 8, ({ recovering with recovery := { cause := .powerOn, made := k.val } } : State).recovery.made = k.val := by
  unfold EntryFits; decide +kernel

/-- R141, R151, R153 at their bounds: groups 3 and 4, counts 0, 1, 16,383 and 16,384; new days D, D + 1, D + 366, D + 367, and
65,535 and 65,536; a walk, a shortening and a pass under way. -/
def onDay (d : Nat) : State := { ready with ret := { ready.ret with day := d } }
theorem witness_AdmissionByThresholdAndOrder_retain : ready.takesKind .retain = true ∧ 65536 ≤ ready.room ∧
    [[3, 0, 1, 0], [3, 0, 255, 63]].all (fun p => field p 0 1 == 3 && decide (1 ≤ field p 2 2 ∧ field p 2 2 ≤ 16383)) = true ∧
    3 < field [4, 0, 1, 0] 0 1 ∧ field [3, 0, 0, 0] 2 2 < 1 ∧ 16383 < field [3, 0, 0, 64] 2 2 ∧
    (∃ x : GroupNo, x.val = 3 ∧
      (bget ({ ready.ret with groups := Vector.replicate 4 { days := 10, walk := some (5, 10) } } : Retention).groups x).walk.isSome = true) ∧
    (quickly [slip .retain [3, 0, 5, 0]] ready).desk.sweep = some { quick := [slip .retain [3, 0, 5, 0]], long := [] } ∧
    (slip .retain [3, 0, 5, 0]).kind = .retain ∧ (∀ x : GroupNo, (bget ready.ret.groups x).walk = none) ∧ ready.desk.sweep = none :=
  ⟨by decide +kernel, by decide +kernel, by decide +kernel, by decide, by decide, by decide, ⟨3, rfl, by decide +kernel⟩, rfl, rfl,
   by decide +kernel, rfl⟩
theorem witness_AdmissionByThresholdAndOrder_days : ready.takesKind .advance = true ∧ ready.takesKind .expire = true ∧
    field [100, 0, 0, 0] 0 4 ≤ ready.ret.day ∧ field [101, 0, 0, 0] 0 4 = ready.ret.day + 1 ∧
    field [210, 1, 0, 0] 0 4 = ready.ret.day + 366 ∧ ready.ret.day + 366 < field [211, 1, 0, 0] 0 4 ∧
    field [255, 255, 0, 0] 0 4 = 65535 ∧ 65535 < field [0, 0, 1, 0] 0 4 ∧ (onDay 65300).ret.day + 366 = 65666 ∧
    (stepping (.expire Pass.start) ready).exec.running = some { op (.expire Pass.start) with begun := true } ∧
    (op (.expire Pass.start)).body.pass = some Pass.start ∧ (op (.expire Pass.start)).ended = false ∧
    ({ op (.expire Pass.start) with ended := true } : Op).ended = true ∧
    ready.exec.running.toList ++ ready.exec.suspended ++ ready.exec.waiting = [] ∧ ready.desk.sweep = none := by decide +kernel

/-- A first read with the filled mark above the ring, and with the final flag and a total below it, below 64 or from 64 on. -/
def ringParams : Nat := 0x10000 + 128 * 6 + 32
def listedWith (cells : List (Nat × Byte)) : State := { listed 16 with mem := Memory.writeCells 0 (listed 16).mem cells }
def firstRead (cells : List (Nat × Byte)) : Nat × Nat × Bool × Nat :=
  let p := (at_ quiet (listedWith cells)).hostBytes ((listedWith cells).paramsAt 5) 56
  (field p 8 4, field p 16 8, flagSet (p.getD 24 0), field p 32 8)
theorem witness_IngestTakesTheFirstSlip_firstRead : Acts (listedWith []) ∧ (listedWith []).desk.list = slip .ingest [] :: [] ∧
    (listedWith []).freeChan = some 0 ∧ (listedWith []).feed.stalled = [] ∧
    firstRead [] = (4096, 4096, false, 0) ∧
    firstRead [(ringParams + 16, 1)] = (4096, 4097, false, 0) ∧
    firstRead [(ringParams + 24, 1), (ringParams + 32, 255), (ringParams + 33, 15)] = (4096, 4096, true, 4095) ∧
    firstRead [(ringParams + 24, 1), (ringParams + 33, 16)] = (4096, 4096, true, 4096) ∧
    firstRead [(ringParams + 17, 0), (ringParams + 24, 1), (ringParams + 32, 63)] = (4096, 0, true, 63) ∧
    firstRead [(ringParams + 17, 0), (ringParams + 24, 1), (ringParams + 32, 64)] = (4096, 0, true, 64) := by
  unfold firstRead at_ Acts; decide +kernel
theorem witness_HeaderIsJudged_unread : Acts (headed 0x48) ∧ (headed 0x48).headerReady 2 = true ∧ (headed 0x48).feed.stalled = [] ∧
    ((headed 0x48).chan 2).closing = .none ∧ ((headed 0x48).chan 2).slip = some 5 ∧
    (at_ { writes := [], fails := [(0x20000, 1)] } (headed 0x48)).readFails ((headed 0x48).ringAt 2 0) 64 = true ∧
    (at_ quiet (headed 0x49)).readFails ((headed 0x49).ringAt 2 0) 64 = false ∧
    (headed 0x49).headerRefusal (itsHeader 0x49) = some .badHeader := by unfold itsHeader at_ Acts; decide +kernel

/-- Classes 7 and 8, start times 863,999 and 864,000, digits 11 and 12, lengths 18 and 19, and durations 2²⁴ - 1 and 2²⁴. -/
def raw0 : Raw :=
  { marker := 0x52, cls := 7, cause := 16, callingLen := 18, seq := 1000, start := 863999, duration := 16777215, route := 1,
    calledLen := 2, site := 3, charge := 4, callingDigits := List.replicate 18 11, calledDigits := [1, 11] ++ List.replicate 16 12 }
theorem witness_RecordFieldsAreJudged :
    [raw0, { raw0 with marker := 0x51 }, { raw0 with cls := 8 }, { raw0 with start := 864000 }, { raw0 with calledLen := 3 },
      { raw0 with callingLen := 19, callingDigits := List.replicate 18 11 }].map (fun r => (r.rejected, r.clamped)) =
      [(false, false), (true, false), (true, false), (true, false), (true, false), (false, true)] ∧
    { raw0 with duration := 16777216 }.clamped = true ∧ ({ raw0 with calledDigits := List.replicate 18 0, calledLen := 19 } : Raw).clamped = true ∧
    (List.replicate 64 (0x12 : Byte)).length = 64 ∧ ({ switch := 5, day := 90, group := 3 } : StreamKey).group = (3 : GroupNo).val ∧
    min (90 + (bget ready.ret.groups 3).days) 65535 ≤ ready.ret.day ∧
    ready.ret.day < min (91 + (bget ready.ret.groups 3).days) 65535 := by decide +kernel

/-- A record that is the 1,024th or not, with a final total of none or at the bounds of the bytes left, and one that stalls. -/
def sized (total : Option Nat) (seen : Nat) (ps : List Page) (marker : Byte) : State :=
  let s : State := { recorded marker 7 100 232 with pool := { pages := ps, serial := 4 } }
  (s.onChan 2 fun c => { c with finalTotal := total }).onFile 2 fun f =>
    { f with account := { f.account with counts := { f.account.counts with seen := seen } } }
def emptyPages : List Page := List.replicate 8192 { pageOf 0 with owner := none }
def seenOf (s : State) : Option Nat := ((s.chan 2).file).map fun f => f.account.counts.seen
theorem witness_RecordReachesItsEnd : Acts (sized none 1023 [] 0x52) ∧ (sized none 1023 [] 0x52).recordReady 2 = true ∧
    (sized none 1023 [] 0x52).feed.stalled = [] ∧ seenOf (sized none 1023 [] 0x52) = some 1023 ∧ (1023 + 1) % 1024 = 0 ∧
    (sized (some 191) 1022 [] 0x52).recordReady 2 = true ∧ seenOf (sized (some 191) 1022 [] 0x52) = some 1022 ∧
    ((sized (some 191) 1022 [] 0x52).chan 2).drained = 64 ∧
    [128, 191, 192].map (fun m => ((sized (some m) 1022 [] 0x52).chan 2).finalTotal) = [some 128, some 191, some 192] ∧
    (itsRecord 0x51 7 100 232).rejected = true ∧ (sized none 1022 [] 0x52).poolHasPage = true ∧
    (at_ quiet (sized none 1022 [] 0x52)).readFails ((sized none 1022 [] 0x52).ringAt 2 64) 64 = false := by
  unfold itsRecord at_ Acts; decide +kernel
theorem witness_RecordReachesItsEnd_stalls : Acts (sized none 1023 emptyPages 0x52) ∧
    (sized none 1023 emptyPages 0x52).recordReady 2 = true ∧ (sized none 1023 emptyPages 0x52).openPage 2 0 = none ∧
    (sized none 1023 emptyPages 0x52).poolHasPage = false ∧ (itsRecord 0x52 7 100 232).rejected = false ∧
    (classify [] (some 1000) [] (itsRecord 0x52 7 100 232).corrected.seq).verdict = .accepted := by
  unfold itsRecord at_ Acts; decide +kernel
theorem witness_RecordReachesItsEnd_unread :
    (at_ { writes := [], fails := [(0x20040, 1)] } (recorded 0x52 7 100 232)).readFails ((recorded 0x52 7 100 232).ringAt 2 64) 64 = true ∧
    (recorded 0x52 7 100 232).engine = .ready ∧ EntriesFit 3 (recorded 0x52 7 100 232) ∧
    ((recorded 0x52 7 100 232).chan 2).slip = some 5 := by unfold at_ EntriesFit; decide +kernel

/-- A run at a range's two ends, inside it, and in none; a table below 4,096 ranges and full ones, the range split first or later. -/
def fullGaps : List Range := (List.range 4096).map fun i => { switch := 1, first := BitVec.ofNat 32 (100 * i), count := 10, day := 1 }
theorem witness_MergeByNumber_full : fullGaps.length = 4096 := by simp [fullGaps]
theorem witness_MergeByNumber :
    [4100, 4104, 4107, 4110].map (fun x => decide (((BitVec.ofNat 32 x : SeqNo) - rangeG1.first).toNat < rangeG1.count)) =
      [true, true, true, false] ∧
    (0 + 3 ≤ rangeG1.count) ∧ (4 + 3 ≤ rangeG1.count) ∧ 7 + 3 = rangeG1.count ∧ rangeG1.count ≤ 1048575 ∧
    [rangeG1] = [] ++ rangeG1 :: [] ∧ fullGaps[0]? = some { switch := 1, first := 0, count := 10, day := 1 } ∧
    fullGaps[5]? = some { switch := 1, first := 500, count := 10, day := 1 } ∧
    ((505 : SeqNo) - 500).toNat + 2 ≠ 10 ∧ ((505 : SeqNo) - 500).toNat ≠ 0 ∧
    (∀ q ∈ fullGaps.take 5, ¬ (q.switch = 1 ∧ ((505 : SeqNo) - q.first).toNat < q.count)) ∧
    (∀ q ∈ [rangeG1], q.switch ≠ 212 ∨ q.first ≠ 4101) ∧ rangeG1.switch = 212 ∧ rangeG1.first = 4100 := by decide +kernel

/-- Final totals at the bounds of the bytes left at an interval's commit point, its entries taken and not. -/
def owingTotal (m : Nat) (j : Journal) : State := { owing.onChan 2 (fun c => { c with finalTotal := some m }) with jnl := j }
theorem witness_CommitPointMergesAndCommits_total : Acts (owingTotal 65600 Journal.blank) ∧
    ((owingTotal 65600 Journal.blank).chan 2).state = .running ∧ ((owingTotal 65600 Journal.blank).chan 2).drained = 65600 ∧
    [65600, 65663, 65664].map (fun m => ((owingTotal m Journal.blank).chan 2).finalTotal) = [some 65600, some 65663, some 65664] ∧
    (owingTotal 65600 fullJournal).waits (.chan 2) = false ∧
    ((at_ quiet (owingTotal 65600 Journal.blank)).mergeFile 2 (file0 [.new 990 3] true)).2 = true ∧
    ((at_ quiet (owingTotal 65600 fullJournal)).mergeFile 2 (file0 [.new 990 3] true)).2 = false := by
  unfold at_ Acts; decide +kernel

/-- The key has a directory entry, and an edition is CURRENT. -/
def openingNext : State :=
  let s := opening.setDir theKey { highest := 1, digest := 7, filling := none, count := 1, limited := false }
  { s with eds := { s.eds with slots := bset s.eds.slots 3 { state := .current, serial := 4, refs := 2, edition := Edition.empty } } }
theorem witness_OpenGrantsTheNextExtent_next : Acts openingNext ∧ openingNext.cat.openReq = some { key := theKey, arrived := true } ∧
    openingNext.grantExtent = some (0, 4) ∧
    openingNext.dirEntry theKey = some { highest := 1, digest := 7, filling := none, count := 1, limited := false } ∧
    openingNext.currentRef = some { slot := 3, serial := 4 } ∧ opening.dirEntry theKey = none ∧ opening.currentRef = none ∧
    theKey.group = (1 : GroupNo).val ∧ openingNext.fillings.length < 256 := by unfold Acts; decide +kernel

/-- A fetch of the last segment number, for a VERIFY that has come to it, alone or with another operation waiting. -/
def lastFetch (g : Segment) : State :=
  carrying 15 (.fetch 262143 0 100 (.op 9)) (stepping (.verify everything 262143 counts0 (some { (State.newVisit 262143 g) with asked := 1048576, waiting := true }))
    (holding 262143 .closed { g with pins := 1 } ready))
theorem witness_FetchErrorEndsTheReading_last : Acts (lastFetch seg) ∧
    (bget (lastFetch seg).lanes.lane 15).inProgress = some (.fetch 262143 0 100 (.op 9)) ∧
    (lastFetch seg).live? 262143 = some (.closed, { seg with pins := 1 }) ∧ (lastFetch seg).exec.preempt = none ∧
    (lastFetch seg).exec.suspended ++ (lastFetch seg).exec.waiting = [] ∧
    (queueing (lastFetch seg)).exec.suspended ++ (queueing (lastFetch seg)).exec.waiting = [waitingOp 10 0] ∧
    262144 ≤ 262143 + 1 ∧ (State.newVisit 262143 { seg with bytes := 1000 }).length ≤ 1048576 := by
  unfold Acts; decide +kernel
theorem witness_LastFetchGivesTheVerdict_last : Acts (lastFetch { seg with bytes := 1000 }) ∧
    (lastFetch { seg with bytes := 1000 }).live? 262143 = some (.closed, { seg with bytes := 1000, pins := 1 }) ∧
    QuietChoice (op (verifies 0)) (lastFetch { seg with bytes := 1000 }) ∧
    QuietChoice (op (verifies 0)) (queueing (lastFetch { seg with bytes := 1000 })) :=
  ⟨by unfold Acts; decide +kernel, by decide +kernel, quietChoice_alone _ _ rfl, quietChoice_waiting _ _ rfl rfl⟩
/-- The same fetch, queued at lane 15 when its third error takes it OFFLINE. -/
def lastFailing : State :=
  (lastFetch seg).onLane 15 fun l => { l with inProgress := none, errorRun := 3, foreQ := [.fetch 262143 0 100 (.op 9)], lastError := some (.erase 262140) }
theorem witness_LaneGoesOffline_last : lastFailing.laneActs = true ∧ (bget lastFailing.lanes.lane 15).online = true ∧
    (bget lastFailing.lanes.lane 15).journalQ ++ (bget lastFailing.lanes.lane 15).foreQ ++ (bget lastFailing.lanes.lane 15).backQ =
      [.fetch 262143 0 100 (.op 9)] ∧ (lastFailing.extent? 262143).isSome = true ∧ lastFailing.exec.running.isSome = true ∧
    lastFailing.exec.suspended ++ lastFailing.exec.waiting = [] := by decide +kernel

/-- The kinds of subject, and a summary with and without an edition, a sequence and a verified day. -/
theorem witness_EntryAndSummaryBytes :
    [(.none : Subject), .key { switch := 1023, day := 65535, group := 3 }, .segment 262143, .switch 1023, .hold 9].map
      (fun x => (EntryBody.mk0 .balanceMismatch x (-5) 0 0).subject) =
      [.none, .key { switch := 1023, day := 65535, group := 3 }, .segment 262143, .switch 1023, .hold 9] ∧
    EntryKind.balanceMismatch ≠ EntryKind.restart ∧ seg.edition = none ∧
    ({ seg with edition := some { slot := 31, serial := 4 } } : Segment).edition = some { slot := 31, serial := 4 } := by decide +kernel

theorem witness_TallyUpdate_halves : rising routeTally = true ∧ tfind 5 routeTally = some (18, 1) ∧ (1 : Nat) / 2 = 0 ∧
    (55 : Nat) / 2 ≠ 0 := by decide +kernel

/-- A pass, a walk and a VERIFY at the last number; the journal takes the entry or has one before it. -/
def lastPass : Pass := { Pass.start with cursor := 262143 }
def passLast (b : OpBody) (j : Journal) (g : Segment) : State := { stepping b (holding 262143 .closed g ready) with jnl := j }
theorem witness_ExpiryPassJudges_last :
    Stepping { op (.expire lastPass) with begun := true } (passLast (.expire lastPass) Journal.blank seg) ∧
    Stepping { op (.advance 120 1 2 .full lastPass) with begun := true } (passLast (.advance 120 1 2 .full lastPass) Journal.blank seg) ∧
    (op (.advance 120 1 2 .full lastPass)).body.pass = some lastPass ∧ EntriesFit 2 (passLast (.expire lastPass) Journal.blank seg) ∧
    ¬ EntriesFit 2 (passLast (.expire lastPass) linedJournal seg) ∧ (passLast (.expire lastPass) linedJournal seg).waits (.op 9) = false ∧
    65536 ≤ (passLast (.expire lastPass) linedJournal seg).room ∧
    (passLast (.expire lastPass) Journal.blank seg).live? 262143 = some (.closed, seg) ∧ seg.expiry ≤ ready.ret.day ∧
    ready.ret.holds = [] ∧ seg.pins = 0 ∧ seg.inFlight = 0 ∧ ready.isOnline (laneOf 262143) = true := by
  unfold Stepping Acts EntriesFit; decide +kernel
theorem witness_ExpiryPassJudges_choice : QuietChoice (op (.expire lastPass)) (passLast (.expire lastPass) Journal.blank seg) ∧
    QuietChoice (op (.expire lastPass)) (queueing (passLast (.expire lastPass) Journal.blank seg)) :=
  ⟨quietChoice_alone _ _ rfl, quietChoice_waiting _ _ rfl rfl⟩
def walkLast (j : Journal) (e : Nat) : State :=
  { stepping (.walk 1 262143 7) (holding 262143 .closed { seg with expiry := e }
      { ready with ret := { ready.ret with groups := Vector.replicate 4 { days := 10, walk := some (5, 10) } } }) with jnl := j }
theorem witness_RetentionWalkRaises_last : Stepping { op (.walk 1 262143 7) with begun := true } (walkLast Journal.blank 99) ∧
    (bget (walkLast Journal.blank 99).ret.groups 1).walk = some (5, 10) ∧ (walkLast Journal.blank 99).walkCount 1 = 10 ∧
    (walkLast Journal.blank 99).live? 262143 = some (.closed, { seg with expiry := 99 }) ∧ 99 < min (90 + 10) 65535 ∧
    min (90 + 10) 65535 ≤ seg.expiry ∧ EntriesFit 1 (walkLast Journal.blank 100) ∧ ¬ EntriesFit 1 (walkLast fullJournal 100) ∧
    (walkLast Journal.blank 99).exec.suspended ++ (walkLast Journal.blank 99).exec.waiting = [] := by
  unfold Stepping Acts EntriesFit; decide +kernel
/-- The first part of a stream, of another digest, and a VERIFY at its second part of no bytes. -/
def verifyLast (j : Journal) (g : Segment) (off : Bool) : State :=
  let s : State := { stepping (.verify everything 262143 counts0 none) ready with jnl := j }
  let s : State := { s with cat := { s.cat with table := [(262142, { content := .live .closed seg, erases := 3, fault := false }),
                                                         (262143, { content := .live .closed g, erases := 3, fault := false })] } }
  if off then s.onLane 15 fun l => { l with online := false } else s
theorem witness_VerifyCursorJudges_last : Stepping { op (.verify everything 262143 counts0 none) with begun := true } (verifyLast Journal.blank seg true) ∧
    (verifyLast Journal.blank seg true).isOnline (laneOf 262143) = false ∧ seg.bytes ≠ 0 ∧
    (verifyLast Journal.blank seg true).live? 262143 = some (.closed, seg) ∧ everything.covers emptySeg.key = true ∧
    (verifyLast Journal.blank emptySeg false).live? 262143 = some (.closed, emptySeg) ∧ emptySeg.digest = 0 ∧ emptySeg.part ≤ 1 ∧
    emptySeg.link = 0 ∧ { emptySeg with digest := 1 }.digest ≠ 0 ∧ { emptySeg with records := 1 }.records ≠ 0 ∧
    { emptySeg with link := 1 }.link ≠ 0 ∧
    (verifyLast Journal.blank { emptySeg with part := 2 } false).partOf seg.key 1 = some (262142, .closed, seg) ∧
    (0 : Word32) ≠ seg.digest ∧ EntriesFit 1 (verifyLast Journal.blank emptySeg false) ∧
    ¬ EntriesFit 1 (verifyLast fullJournal emptySeg false) ∧
    (verifyLast Journal.blank seg true).exec.suspended ++ (verifyLast Journal.blank seg true).exec.waiting = [] := by
  unfold Stepping Acts EntriesFit; decide +kernel
/-- An EXTRACT with no part left, having skipped a segment or not; a part on an OFFLINE lane, and one of no bytes. -/
def extractLast (w k cap : Nat) : State :=
  stepping (.extract { extracting with capacity := cap } { ExtractState.start with written := w, skipped := k }) ready
theorem witness_ExtractGoesToTheNextPart_ends : (extractLast 1 1 2).nextPart { extracting with capacity := 2 } none [] = none ∧
    Stepping { op (.extract { extracting with capacity := 2 } { ExtractState.start with written := 1, skipped := 1 }) with begun := true } (extractLast 1 1 2) ∧
    QuietChoice { op (.extract extracting ExtractState.start) with begun := true } (extractLast 1 1 2) ∧
    QuietChoice { op (.extract extracting ExtractState.start) with begun := true } (queueing (extractLast 1 1 1)) :=
  ⟨by decide +kernel, by unfold Stepping Acts; decide +kernel, quietChoice_alone _ _ rfl, quietChoice_waiting _ _ rfl rfl⟩
theorem witness_ExtractGoesToTheNextPart_unread :
    ((reading parts).onLane 4 fun l => { l with online := false }).isOnline (laneOf 65543) = false ∧
    ((reading parts).onLane 4 fun l => { l with online := false }).partOf (State.extractKey extracting 1) 1 = some (65543, .closed, seg) ∧
    (stepping (.extract extracting parts) (holding 65543 .closed emptySeg ready)).partOf (State.extractKey extracting 1) 1 =
      some (65543, .closed, emptySeg) ∧ emptySeg.bytes = 0 ∧
    (reading parts).nextPart extracting (some (1, 3, 2)) [2, 3] = none := by decide +kernel
/-- A catalog walk at the last number, at a match with room and without, and at no match; a journal read at its end and of an entry
that is released. -/
def listingLast (cap : Nat) : State := stepping (.catalogRead everything 0x30000 cap 262143 0) (holding 262143 .closed seg ready)
theorem witness_ReadsWriteTheirEntries_ends : Stepping { op (.catalogRead everything 0x30000 1 262143 0) with begun := true } (listingLast 1) ∧
    (listingLast 1).live? 262143 = some (.closed, seg) ∧ (listingLast 0).live? 262143 = some (.closed, seg) ∧
    ready.live? 262143 = none ∧ QuietChoice { op (.catalogRead everything 0x30000 1 262143 0) with begun := true } (listingLast 1) ∧
    QuietChoice { op (.catalogRead everything 0x30000 1 262143 0) with begun := true } (queueing (listingLast 1)) ∧
    Stepping { op (.journalRead 1 2 0x30000 2 1) with begun := true } (stepping (.journalRead 1 2 0x30000 2 1) { ready with jnl := logged.jnl }) ∧
    (logged.jnl.store[1 - logged.jnl.release]? = some entry0) ∧ (2 : Nat) ≤ 1 + 1 ∧
    1 < ({ logged.jnl with release := 2, store := [entry0] } : Journal).release :=
  ⟨by unfold Stepping Acts; decide +kernel, by decide +kernel, by decide +kernel, by decide +kernel, quietChoice_alone _ _ rfl,
   quietChoice_waiting _ _ rfl rfl, by unfold Stepping Acts; decide +kernel, by decide +kernel, by decide, by decide⟩

/-- HOLD at 63 and 64 holds, of an id in use, with a wrong switch, range and mask; erases queued, started and neither. -/
def holdOf (id all mask first last : Byte) (sw : List Byte) : List Byte := [id, 0, 0, 0] ++ sw ++ [all, mask, first, 0, last, 0]
def holding64 (n : Nat) : State :=
  { ready with ret := { ready.ret with holds := (List.range n).map fun i => { id := BitVec.ofNat 32 (i + 8), cover := everything, placed := 7 } } }
def threeErases : State :=
  let e : Extent := { content := .live .erasing seg, erases := 3, fault := false }
  (quickly [slip .hold holdParams] { ready with cat := { ready.cat with table := [(65543, e), (65544, e), (65545, e)] } }).onLane 4 fun l =>
    { l with backQ := [.erase 65543, .erase 65545], inProgress := some (.erase 65544) }
theorem witness_RetentionSlipsSetTheRetentionUnit_refusals :
    Front .hold (slip .hold (holdOf 9 0 15 0 9 [5, 0])) (quickly [slip .hold (holdOf 9 0 15 0 9 [5, 0])] (holding64 64)) ∧
    (readHold (holdOf 9 0 15 0 9 [0, 4])).2.all = false ∧ 1023 < (readHold (holdOf 9 0 15 0 9 [0, 4])).2.switch ∧
    (readHold (holdOf 9 0 15 9 8 [5, 0])).2.last < (readHold (holdOf 9 0 15 9 8 [5, 0])).2.first ∧
    (∀ g, g < 4 → maskHas (readHold (holdOf 9 0 240 0 9 [5, 0])).2.mask g = false) ∧
    (∃ h ∈ (holding64 63).ret.holds, h.id = (readHold (holdOf 9 0 15 0 9 [5, 0])).1) ∧
    (∀ h ∈ (holding64 64).ret.holds, h.id ≠ (readHold (holdOf 7 0 15 0 9 [5, 0])).1) ∧
    (holding64 64).ret.holds.length = 64 ∧ (holding64 63).ret.holds.length < 64 ∧ rising threeErases.cat.table = true ∧
    [65543, 65544, 65545].map (fun n => decide (threeErases.withdrawal n = .withdrawn)) = [true, false, true] ∧
    (holding64 3).ret.holds = (holding64 1).ret.holds ++ { id := 9, cover := everything, placed := 7 } :: ((holding64 3).ret.holds.drop 2) := by
  unfold Front Acts; decide +kernel
theorem witness_RetentionSlipsSetTheRetentionUnit_calm : Calm (quickly [slip .settings [32, 1, 111, 1]] ready) ∧
    Calm (queueing (quickly [slip .settings [0, 0, 0, 0]] ready)) ∧
    Calm { queueing (quickly [slip .settings [0, 0, 0, 0]] ready) with exec := { Exec.blank with waiting := [waitingOp 10 0] } } ∧
    ready.engine = .ready :=
  ⟨calm_running _ rfl rfl, calm_running _ rfl rfl, calm_waiting _ rfl rfl rfl, rfl⟩
/-- An engine with a CURRENT slot, its references 0 or 1, a FREE slot or none; tables that are too long, unreadable or break a rule. -/
def currentIs (refs : Nat) (others : SlotState) : State :=
  let slots : Vector EditionSlot 32 := Vector.replicate 32 { EditionSlot.freeSlot with state := others }
  let current : EditionSlot := { state := .current, serial := 4, refs := refs, edition := Edition.empty }
  { ready with eds := { Editions.blank with serial := 4, slots := bset slots 3 current } }
def tableParams (n : List Byte) (m : List Byte) (k : List Byte) : List Byte :=
  [0, 0, 3, 0, 0, 0, 0, 0] ++ n ++ [0, 0, 0, 0, 0, 0, 0, 1, 3, 0, 0, 0, 0, 0] ++ m ++ [0, 0, 0, 0, 0, 0, 0, 2, 3, 0, 0, 0, 0, 0] ++ k
theorem witness_CutAndLoadInstallAnEdition_refusals :
    (currentIs 0 .free).freeSlot = some 0 ∧ (currentIs 0 .retained).freeSlot = none ∧ (currentIs 0 .free).currentSlot = some 3 ∧
    ready.currentSlot = none ∧ (bget (currentIs 0 .free).eds.slots 3).refs = 0 ∧ 1 ≤ (bget (currentIs 1 .free).eds.slots 3).refs ∧
    Front .editionLoad (slip .editionLoad (tableParams [0, 1] [0, 1] [0, 1])) (quickly [slip .editionLoad (tableParams [0, 1] [0, 1] [0, 1])] (currentIs 0 .free)) ∧
    field (tableParams [0, 1] [0, 1] [0, 1]) 8 2 = 256 ∧ field (tableParams [0, 1] [0, 1] [0, 1]) 24 2 = 256 ∧
    field (tableParams [0, 1] [0, 1] [0, 1]) 40 2 = 256 ∧ 256 < field (tableParams [1, 1] [0, 1] [0, 1]) 8 2 ∧
    (at_ { writes := [], fails := [(0x30002, 1)] } ready).failedTable (tableParams [2, 0] [1, 0] [1, 0]) = some (1, 1) ∧
    (at_ { writes := [], fails := [(0x30200, 1)] } ready).failedTable (tableParams [2, 0] [1, 0] [1, 0]) = some (3, 0) ∧
    (at_ quiet ready).failedTable (tableParams [2, 0] [1, 0] [1, 0]) = none := by
  unfold Front Acts at_; decide +kernel
theorem witness_CutAndLoadInstallAnEdition_entries : badEntry [7, 8] [7] [(3, [1, 2, 11])] = none ∧
    badEntry [7, 8, 7] [] [] = some (1, 2, .duplicate) ∧ badEntry [7] [4, 4] [] = some (2, 1, .duplicate) ∧
    badEntry [7] [4] [(2, [1, 2])] = some (3, 0, .length) ∧ badEntry [] [] [(3, [1, 2, 12])] = some (3, 0, .digit) ∧
    badEntry [] [] [(3, [1, 2, 3]), (3, [1, 2, 3])] = some (3, 1, .duplicate) ∧ badEntry [] [] [(9, [])] = some (3, 0, .length) ∧
    Calm (quickly [slip .cut []] ready) := by
  exact ⟨by decide, by decide, by decide, by decide, by decide, by decide, by decide, calm_running _ rfl rfl⟩
theorem witness_CloseResolveAndJournalRelease_refusals :
    ¬ GoodSwitch (flagSet (([0, 4, 0, 0, 90, 0] : List Byte).getD 2 0)) (field [0, 4, 0, 0, 90, 0] 0 2) ∧
    Front .close (slip .close [0, 4, 0, 0, 90, 0]) (quickly [slip .close [0, 4, 0, 0, 90, 0]] ready) ∧
    (holding 65543 .closed seg ready).live? 65543 = some (.closed, seg) ∧ seg.mark ≠ .suspect ∧ { seg with reserve := 0 }.reserve = 0 ∧
    (holding 65543 .filling { seg with reserve := 0 } ready).live? 65543 = some (.filling, { seg with reserve := 0 }) ∧
    ready.jnl.line = [] ∧ linedJournal.line ≠ [] := by unfold Front GoodSwitch Acts; decide +kernel
theorem witness_CloseResolveAndJournalRelease_calm : Calm (quickly [slip .journalRelease [2]] { ready with jnl := logged.jnl }) ∧
    logged.jnl.release < min (field [2] 0 8) logged.jnl.head ∧ min (field [4] 0 8) logged.jnl.head = 3 :=
  ⟨calm_running _ rfl rfl, by decide +kernel, by decide +kernel⟩

/-- A scrub at the last number whose segment has no bytes, sound or not; VERIFIED exactly the scrub period ago, and a day less. -/
def scrubLast (g : Segment) : State := holding 262143 .closed g lastNumber
theorem witness_ScrubJudgesItsCursor_last : (scrubLast emptySeg).powered = true ∧ (scrubLast emptySeg).engine = .ready ∧
    (scrubLast emptySeg).scrub.enable = true ∧ (scrubLast emptySeg).scrub.state = .walking ∧ (scrubLast emptySeg).waits .scrub = false ∧
    (scrubLast emptySeg).live? 262143 = some (.closed, emptySeg) ∧ emptySeg.bytes = 0 ∧ emptySeg.mark = .unverified ∧
    (scrubLast emptySeg).isOnline (laneOf 262143) = true ∧ 65536 ≤ (scrubLast emptySeg).room ∧
    emptySeg.digest = 0 ∧ emptySeg.part ≤ 1 ∧ emptySeg.link = 0 ∧ { emptySeg with digest := 1 }.digest ≠ 0 ∧
    (({ seg with mark := .verified, verified := some 99 } : Segment).verified.getD 0) + lastNumber.scrub.period ≤ ready.ret.day ∧
    ready.ret.day < (({ seg with mark := .verified, verified := some 100 } : Segment).verified.getD 0) + lastNumber.scrub.period := by
  decide +kernel

/-- A first sweep that finds a POSTED slip let in or not; a withdrawn slip with each mark; a file whose final total is found with 64
bytes left, with fewer, and at a commit point that is due. -/
def readingFile (due : Bool) : State :=
  ((recorded 0x52 7 100 232).onChan 2 fun c => { c with drained := 128 }).onFile 2 fun f => { f with commitDue := due }
def otherSlips : List State :=
  [first (admits 10 0 0), first (admits 10 1 0), first (admits 21 0 0), swept 0 2 0 0 .withdrawn ready, swept 1 2 0 0 .withdrawn ready,
   swept 2 2 0 0 .withdrawn ready, swept 3 2 0 0 .withdrawn ready, first (swept 3 2 0 0 .withdrawn ready),
   filled 200 0 0 (swept 2 2 0 0 .held (recorded 0x52 7 100 232)), filled 200 1 230 (swept 2 2 0 0 .held (recorded 0x52 7 100 232)),
   filled 128 1 128 (swept 2 2 0 0 .held (readingFile false)), filled 128 1 191 (swept 2 2 0 0 .held (readingFile false)),
   filled 128 1 192 (swept 2 2 0 0 .held (readingFile false)), filled 128 1 140 (swept 2 2 0 0 .held (readingFile true))]
theorem witness_SweepFindsTheOtherSlips : ∀ s ∈ otherSlips, OneSlip quiet 5 s := by
  unfold OneSlip DeskFits Steady NoChoice NoneResumes byteAt at_; decide +kernel
theorem witness_SweepFindsTheOtherSlips_reads : enters5 (first (admits 10 0 0)) = true ∧ enters5 (first (admits 10 1 0)) = false ∧
    (first (admits 10 0 0)).desk.first = true ∧ (readingFile false).chanOfSlip 5 = some 2 ∧ ((readingFile false).chan 2).state = .running ∧
    ((readingFile false).chan 2).closing = .none ∧ ((readingFile false).chan 2).drained = 128 ∧ (readingFile false).waits (.chan 2) = false ∧
    [(128, 0, 0), (200, 1, 230), (128, 1, 128), (128, 1, 191), (128, 1, 192)].map (fun x =>
      marksFault ((readingFile false).chan 2) (itsMarks (filled x.1 x.2.1 x.2.2 (swept 2 2 0 0 .held (readingFile false))))) =
      [false, false, false, false, false] ∧
    (itsMarks (filled 128 1 191 (swept 2 2 0 0 .held (readingFile false)))).total < 128 + 64 ∧
    (itsMarks (filled 128 1 192 (swept 2 2 0 0 .held (readingFile false)))).total = 128 + 64 := by
  unfold enters5 itsHead itsMarks at_; decide +kernel

/-! Waits for journal room, and the coder's selection at each erase of one command. -/

/-- A journal with room for 65,535 entries, one below the reserve. -/
def lowJournal : Journal := { Journal.blank with head := 983042 }
def lowRoom (s : State) : State := { s with jnl := lowJournal }
def laneGone (s : State) : State := s.onLane 15 fun l => { l with online := false }
def released (s : State) : State :=
  nextOf (.journalRelease quiet) { s with desk := { s.desk with sweep := some { quick := [slip .journalRelease [2]], long := [] } } }
/-- R165: a scrub that waits for room stays at its cursor though the segment there is due no more, until a JOURNAL-RELEASE. -/
theorem test_scrub_waits :
    let s := nextOf .scrubStep (lowRoom (walking seg))
    s.scrub.awaitsRoom = true ∧ (nextOf .scrubStep (laneGone s)).scrub.cursor = 262142 ∧
    (nextOf .scrubStep (laneGone (lowRoom (walking seg)))).scrub.cursor = 262143 ∧
    (released (laneGone s)).scrub.awaitsRoom = false ∧ (nextOf .scrubStep (released (laneGone s))).scrub.cursor = 262143 := by
  decide +kernel
/-- R146: the same of a pass whose segment a walk has made not due. -/
theorem test_pass_waits :
    let s := nextOf (.expiryPassStep quiet) (lowRoom (passing 262142 .closed seg))
    let t := s.onSegment 262142 fun g => { g with expiry := 101 }
    let cursor (u : State) := u.exec.running.bind fun o => o.body.pass.map Pass.cursor
    cursor (nextOf (.expiryPassStep quiet) t) = some 262142 ∧ cursor (nextOf (.expiryPassStep quiet) (released t)) = some 262143 := by
  decide +kernel
theorem witness_ScrubJudgesItsCursor_waits : (nextOf .scrubStep (lowRoom (walking seg))).scrub.awaitsRoom = true ∧
    (nextOf .scrubStep (lowRoom (walking seg))).room < 65536 ∧ (nextOf .scrubStep (lowRoom (walking seg))).powered = true ∧
    (released (nextOf .scrubStep (lowRoom (walking seg)))).room = 65536 := by decide +kernel
theorem witness_ExpiryPassJudges_waits :
    let p : Pass := { Pass.start with cursor := 262142, awaitsRoom := true }
    Stepping { op (.expire p) with begun := true } (lowRoom (stepping (.expire p) ready)) ∧ (op (.expire p)).body.pass = some p ∧
    (lowRoom (stepping (.expire p) ready)).room < 65536 ∧ 65536 ≤ (stepping (.expire p) ready).room := by
  unfold Stepping Acts; decide +kernel
theorem witness_CloseResolveAndJournalRelease_room : Front .journalRelease (slip .journalRelease [2]) (lowRoom (quickly [slip .journalRelease [2]] ready)) ∧
    (lowRoom ready).jnl.line = [] ∧ ((lowRoom ready).releaseTo (field [2] 0 8)).room = 65536 ∧ ((lowRoom ready).releaseTo (field [1] 0 8)).room = 65535 ∧
    (quickly [slip .journalRelease [2]] ready).exec.running = some { op (.expire Pass.start) with begun := true } := by
  unfold Front Acts; decide +kernel
/-- R105: with both erases of two limited keys failed in one command, the key freed first is selected, though the other's place has the
lower serial. -/
def limitedKeys : State :=
  let k (n : Nat) : StreamKey := { switch := n, day := 90, group := 1 }
  let e (n : Nat) : Extent := { content := .live .erasing { seg with key := k n, part := 65535 }, erases := 3, fault := false }
  let d : DirEntry := { highest := 65535, digest := 0, filling := none, count := 1, limited := true }
  let page (n serial : Nat) : Page := { pageOf 1 with key := k n, owner := none, serial := serial, sealedUp := true, committed := 1 }
  let s : State := (ready.setDir (k 5) d).setDir (k 6) d
  thirdError [.erase 65543, .erase 65544]
    { s with cat := { s.cat with table := [(65543, e 5), (65544, e 6)] }, pool := { pages := [page 6 3, page 5 4], serial := 5 } }
theorem test_selection_at_each_erase :
    ((nextOf (.laneOffline 4 quiet) limitedKeys).inHand.map fun x => (x.2.1.switch, x.2.2)) = some (5, [(4, 0)]) := by decide +kernel

/-! The coder's selection, and the bounds of the statements that take in what a commit, an ADVANCE, a CONTEXT-WRITE or a verdict submits. -/

/-- A SEALED page of a key with n committed places, all HELD, without an owner. -/
def heldPage (k : StreamKey) (n serial : Nat) : Page :=
  { pageOf n with key := k, owner := none, serial := serial, sealedUp := true, committed := n }
def limitEntry (highest : Nat) (filling : Option Nat) : DirEntry :=
  { highest := highest, digest := 0, filling := filling, count := 1, limited := false }
/-- Two keys' pages, of which the one of `theKey` has the lower serial, and an entry for `theKey` with a segment that has a store in
flight or none. -/
def selecting (d : Option DirEntry) (inFlight : Nat) (s : State) : State :=
  let t := holding 65543 .filling { seg with part := 7, inFlight := inFlight } s
  let u : State := { t with pool := { pages := [heldPage theKey 65 3, heldPage { theKey with switch := 6 } 1 4], serial := 5 } }
  (d.map fun x => u.setDir theKey x).getD u
def flying : Buffer := .inFlight 65543 0 [] 0 0 []
def buffered (a b : Buffer) (o : Option OpenRequest) (s : State) : State :=
  { s with coder := { s.coder with buffers := bset (bset s.coder.buffers 0 a) 1 b }, cat := { s.cat with openReq := o } }
def asking (arrived : Bool) : Option OpenRequest := some { key := theKey, arrived := arrived }
def inHandOf : Buffer := .forming theKey [(3, 0)]
def coderStates : List State :=
  [selecting none 0 ready, selecting (some (limitEntry 7 (some 65543))) 1 ready, selecting (some (limitEntry 7 none)) 1 ready,
   selecting (some (limitEntry 65535 none)) 0 ready, buffered flying flying none ready, buffered flying .free none ready,
   buffered flying inHandOf (asking true) ready, buffered inHandOf .free (asking false) (selecting (some (limitEntry 7 none)) 1 ready),
   buffered inHandOf .free (asking false) (selecting (some (limitEntry 7 none)) 0 ready),
   buffered inHandOf .free (asking false) (selecting (some (limitEntry 65535 none)) 0 ready)]
theorem witness_CoderSelectsTheOldestReadyKey :
    (∀ s ∈ coderStates, Acts s ∧ s.scrub.enable = false ∧ s.feed.stalled = [] ∧ s.pool.legal = true ∧ s.engine = .ready) ∧
    coderStates.map State.readyKey = [some theKey, some theKey, some theKey, some theKey, none, none, none, some theKey, some theKey, some theKey] ∧
    coderStates.map (fun s => s.fillingOf theKey) = [none, some 65543, none, none, none, none, none, none, none, none] ∧
    coderStates.map (fun s => s.partBusy theKey) = [false, true, true, false, false, false, false, true, false, false] ∧
    coderStates.map (fun s => s.atPartLimit theKey) = [false, false, false, true, false, false, false, false, false, true] ∧
    coderStates.map State.freeBuffer = [some 0, some 0, some 0, some 0, none, some 1, none, some 1, some 1, some 1] ∧
    coderStates.map (fun s => s.inHand.isSome) = [false, false, false, false, false, false, true, true, true, true] ∧
    (selecting none 0 ready).keyReady theKey = true ∧ ((selecting none 0 ready).availableOf theKey).length = 65 ∧
    ((selecting none 0 ready).availableOf theKey).head? = some (3, 0) ∧
    ((selecting none 0 ready).availableOf { theKey with switch := 6 }).head? = some (4, 0) ∧
    (selecting none 0 (recorded 0x52 7 100 232)).switchBound 5 = true := by unfold Acts; decide +kernel
/-- R105, R113, R117: the first 64 places of the oldest ready key; at the part limit the key of the next page. -/
theorem test_coder_selects :
    let next := State.runCoder
    coderStates.map (fun s => ((next s).inHand.map fun x => (x.2.1.switch, x.2.2.length), (next s).coder.target, (next s).coder.state)) =
      [(some (5, 64), none, .waitingExtent), (some (5, 64), some 65543, .coding), (some (5, 64), none, .waitingExtent),
       (some (6, 1), none, .waitingExtent), (none, none, .waitingLane), (none, none, .idle), (some (5, 1), none, .idle),
       (some (5, 1), none, .idle), (some (5, 1), none, .idle), (some (6, 1), none, .waitingExtent)] ∧
    coderStates.map (fun s => (next s).cat.openReq.map OpenRequest.arrived) =
      [some true, none, some false, some true, none, none, some true, some false, some true, some true] := by decide +kernel

/-- A block for an ONLINE or an OFFLINE lane, the other buffer FREE, IN-FLIGHT or with a ready key to select, and the target's key at
the part limit or not. -/
def codingOn (online : Bool) (other : Buffer) (d : Option DirEntry) (reserve : Nat) (st : LiveState) : State :=
  let s := buffered other inHandOf none (selecting d 0 (coding reserve st))
  (holding 65543 st { seg with bytes := 0, reserve := reserve } s).onLane 4 fun l => { l with online := online }
def codingStates : List State :=
  [codingOn true .free none 0 .filling, codingOn true flying none 0 .filling, codingOn false .free none 0 .filling,
   codingOn true .free (some (limitEntry 65535 (some 65543))) 67108864 .filling, codingOn true .free (some (limitEntry 65535 none)) 0 .closed,
   codingOn true .free (some (limitEntry 7 none)) 0 .closed]
theorem witness_CodingCompletesByItsTarget_more :
    (∀ s ∈ codingStates, Acts s ∧ s.inHand = some (1, theKey, [(3, 0)]) ∧ s.coder.target = some 65543 ∧ s.cat.openReq = none ∧
      s.feed.stalled = [] ∧ s.engine = .ready) := by unfold Acts; decide +kernel
theorem witness_CodingCompletesByItsTarget_targets :
    codingStates.map (fun s => ((s.live? 65543).map fun x => (x.1, x.2.reserve), s.isOnline 4)) =
      [(some (.filling, 0), true), (some (.filling, 0), true), (some (.filling, 0), false), (some (.filling, 67108864), true),
       (some (.closed, 0), true), (some (.closed, 0), true)] ∧
    codingStates.map (fun s => s.atPartLimit theKey) = [false, false, false, true, true, false] ∧
    codingStates.map State.readyKey = List.replicate 6 (some theKey) ∧ (codingOn true flying none 0 .filling).freeBuffer = none := by
  decide +kernel
/-- R105, R114, R117, R134: what the coder holds next, and what is submitted. -/
theorem test_coding_completes :
    let next (s : State) := nextOf .codingComplete s
    codingStates.map (fun s => ((next s).coder.state, (next s).coder.target, (next s).inHand.map fun x => (x.1, x.2.1.switch, x.2.2.length))) =
      [(.waitingExtent, none, some (0, 5, 64)), (.waitingLane, none, none), (.waitingExtent, none, some (0, 5, 64)),
       (.waitingExtent, none, some (0, 6, 1)), (.waitingExtent, none, some (0, 6, 1)), (.waitingExtent, none, some (1, 5, 1))] ∧
    codingStates.map (fun s => (next s).jnl.store.map fun e => e.body.kind) =
      [[], [], [.storeFailed, .segmentClosed], [.segmentClosed, .streamLimit], [.streamLimit], []] ∧
    codingStates.map (fun s => (bget (next s).lanes.lane 4).inProgress.isSome) = [true, true, false, false, false, false] := by
  decide +kernel

theorem witness_FormatBegins_lanes : (bget blankOn.lanes.lane 3).online = true ∧ (bget blankOn.lanes.lane 3).backQ = [] ∧
    (bget blankOn.lanes.lane 3).inProgress = none ∧
    (bget (blankOn.onLane 3 fun l => { l with online := false }).lanes.lane 3).online = false := by decide +kernel
theorem witness_GrantOrder_can : (Lane.start true).canGrant = true ∧ ({ Lane.start true with errorRun := 2 } : Lane).canGrant = true ∧
    ({ Lane.start true with errorRun := 3 } : Lane).canGrant = false ∧ (Lane.start false).canGrant = false := by decide +kernel
theorem witness_DeskChangeLetsEverySlipGo_ready : owing.engine = .ready ∧
    abortedPair 5 (owing.committed 2) .deskChange ≠ [] := by decide +kernel
/-- A late segment without a store, one of the last day in time, and a range at and beyond the horizon. -/
theorem witness_AdvanceTakesTheNewDay_late :
    (fresh (.advance 98 0 0 .off Pass.start) (holding 65543 .filling { seg with reserve := 0 } ready)).live? 65543 =
      some (.filling, { seg with reserve := 0 }) ∧ seg.key.day + ready.ret.lateWindow < 98 ∧ ¬ (seg.key.day + ready.ret.lateWindow < 97) ∧
    rising (holding 65543 .filling seg ready).cat.table = true ∧ ready.engine = .ready ∧
    ({ rangeG1 with day := 57 } : Range).day + ready.ret.gapHorizon < 120 ∧ ¬ (({ rangeG1 with day := 58 } : Range).day + ready.ret.gapHorizon < 120) := by
  decide +kernel
/-- R31, R33, R80, R152: the entries of the first four steps, in their order, and the extent of a segment without a store. -/
theorem test_advance_entries :
    let s : State := fresh (.advance 120 0 0 .off Pass.start) (holding 65543 .filling { seg with reserve := 0 }
      { ready with recon := { Recon.blank with gaps := [{ rangeG1 with day := 57 }, { rangeG1 with day := 58 }] } })
    let t := nextOf (.advance quiet) s
    t.jnl.store.map (fun e => (e.body.kind, e.body.v1)) = [(.dayAdvanced, 100), (.segmentClosed, 3), (.gapAbandoned, 4100), (.editionCut, 1)] ∧
    (t.extent? 65543).map Extent.content = some .free := by decide +kernel
theorem witness_ContextSlipsReadAndWrite_refusals :
    1023 < field (slip .contextRead [0, 4]).params 0 2 ∧ 1023 < field (slip .contextWrite [0, 4, 1, 0]).params 0 2 ∧
    ((written (contextWrite 3) ready).switchCtx 5).state ≠ .feeding ∧ field (contextWrite 3).params 2 1 = 3 ∧
    field (contextWrite 1).params 2 1 = 1 ∧ runHas 1 1 (BitVec.ofNat 32 (field (contextWrite 1).params 4 4)) = true ∧
    (({ ready with recon := { Recon.blank with gaps := [{ rangeG1 with switch := 5, first := 1, count := 1 }] } } : State).rangesOf 5).length = 1 ∧
    ready.engine = .ready := by decide +kernel
/-- R83: the answers of CONTEXT-WRITE, in the order of its refusals. -/
theorem test_context_write_answers :
    let answer (a : Admitted) (s : State) := bget (nextOf (.contextWrite quiet) (written a s)).desk.map 5
    let gapped : State := { ready with recon := { Recon.blank with gaps := [{ rangeG1 with switch := 5, first := 1, count := 1 }] } }
    [answer (slip .contextWrite [0, 4, 1, 0]) ready, answer (contextWrite 1) (feeding gapped), answer (contextWrite 1) gapped,
      answer (contextWrite 3) ready, answer (contextWrite 2) gapped] = [6, 4, 5, 5, 1] := by decide +kernel
/-- The merges of a commit point and of a file's end submit entries; a page of the channel, SEALED or OPEN. -/
theorem witness_EndOfFileReleasesTheSwitch_merge : (mergeGaps 5 100 (file0 [.new 990 3] false).pendingGaps ending.recon.gaps).2.length = 1 ∧
    ending.engine = .ready ∧ owing.engine = .ready ∧
    ∃ p ∈ (ending.newPage 2 { switch := 5, day := 100, group := 0 }).pool.pages, p.owner = some 2 := by decide +kernel
/-- A record at which the file ends. -/
theorem witness_RecordIsSeenAndCounted_total : let s := (recorded 0x52 7 100 232).onChan 2 fun c => { c with finalTotal := some 130 }
    Acts s ∧ s.recordReady 2 = true ∧ (s.chan 2).finalTotal = some 130 ∧ (s.chan 2).file = some (file0 [] false) := by
  unfold Acts; decide +kernel
/-- The scrub's last fetch at the last number, and a journal that takes none, one or two entries. -/
def scrubEnds (g : Segment) (j : Journal) : State :=
  carrying 15 (.fetch 262143 0 100 .scrub) (busy (holding 262143 .closed { g with pins := 1 }
    { ready with jnl := j, scrub := { Scrub.blank with enable := true, state := .stepping, cursor := 262143,
                                                       visit := some { (State.newVisit 262143 g) with asked := g.bytes, waiting := true } } }))
/-- A journal with room for so many entries. -/
def roomFor (n : Nat) : Journal := { Journal.blank with head := 1048577 - n }
theorem witness_ScrubMovesOn : let g : Segment := { seg with bytes := 100 }
    Acts (scrubEnds g (roomFor 2)) ∧ (scrubEnds g (roomFor 2)).scrub.visit = some { (State.newVisit 262143 g) with asked := 100, waiting := true } ∧
    (scrubEnds g (roomFor 2)).live? 262143 = some (.closed, { g with pins := 1 }) ∧ EntriesFit 2 (scrubEnds g (roomFor 2)) ∧
    EntryFits (scrubEnds g (roomFor 1)) ∧ ¬ EntriesFit 2 (scrubEnds g (roomFor 1)) ∧ ¬ EntryFits (scrubEnds g (roomFor 0)) := by
  unfold EntriesFit EntryFits Acts; decide +kernel
/-- R161, R165, R166: after the verdict of the last number the lap ends, waits with SCRUB-LAP, or waits with VERIFY-FAIL. -/
theorem test_scrub_ends_its_lap :
    let t (n : Nat) := nextOf (.fetchCompletion 15 .mediaError quiet) (scrubEnds { seg with bytes := 100 } (roomFor n))
    [2, 1, 0].map (fun n => ((t n).scrub.cursor, (t n).scrub.state, (t n).scrub.checked, (t n).scrub.visit.isSome)) =
      [(0, .resting, 1, false), (262143, .walking, 1, false), (262143, .stepping, 1, true)] ∧
    (t 2).jnl.store.map (fun e => (e.body.kind, e.body.v3)) = [(.verifyFail, 0), (.scrubLap, 0)] := by decide +kernel

/-! The idle executor, STALLED channels, and the clauses on queues, answers and entries. -/

def idle (s : State) : State := { s with exec := Exec.blank }
/-- A channel that waits for a page, every page in use. -/
def fullPool (s : State) : State :=
  { s with pool := { pages := emptyPages, serial := 4 }, feed := { s.feed with stalled := [7] } }
/-- A channel being closed, its slip withdrawn or still TAKEN. -/
def closingChan (mark : Byte) : State := (swept mark 2 0 0 .held owing).onChan 2 fun c => { c with closing := .silent }
def idleSlips : List State :=
  [admits 2 0 0, admits 21 0 0, admits 10 0 0, admits 9 0 0, admits 5 0 3, swept 0 2 0 0 .held owing, swept 2 2 0 0 .held owing].map idle
def fullSlips : List State := [admits 2 0 0, swept 0 2 0 0 .held owing, swept 2 2 0 0 .held owing].map fullPool
theorem witness_SweepDealsWithTheMarks_idle : (∀ s ∈ idleSlips ++ [closingChan 0, closingChan 2], OneSlip quiet 5 s) ∧
    (closingChan 0).chanOfSlip 5 = some 2 ∧ ((closingChan 0).chan 2).state ≠ .ending ∧ ((closingChan 0).chan 2).closing = .silent ∧
    (idle (admits 9 0 0)).exec.running = none := by
  unfold OneSlip DeskFits Steady NoChoice NoneResumes byteAt at_; decide +kernel
theorem witness_SweepDealsWithTheMarks_full : ∀ s ∈ fullSlips, OneSlip quiet 5 s := by
  unfold OneSlip DeskFits Steady NoChoice NoneResumes byteAt at_; decide +kernel
theorem witness_SweepOfAQuietDesk_idle : Steady (idle asked) ∧ NoneResumes (fullPool asked) ∧ (fullPool asked).feed.stalled = [7] ∧
    (fullPool asked).coderNext = none ∧ (idle asked).exec.running = none := by
  unfold Steady NoChoice NoneResumes; decide +kernel
/-- R190: a CATALOG-READ that a sweep admits runs at once on an idle executor. -/
theorem test_sweep_idle : ((nextOf (.sweep quiet) (idle (admits 9 0 0))).exec.running.map fun o => (o.slip, o.prio, o.begun)) =
    some (some 5, 0, false) := by decide +kernel

def record0 : Rec :=
  { cls := 0, cause := 0, seq := 0, start := 0, duration := 0, route := 0, site := 0, charge := 0, calling := [], called := [] }
/-- So many pages, of which channel 2 owns the first. -/
def poolOf (n : Nat) : Pool :=
  { pages := (List.range n).map fun i => { pageOf 0 with owner := if i = 0 then some 2 else none, serial := i }, serial := n }
theorem poolOf_legal (n : Nat) (h : n ≤ 8192) : (poolOf n).legal = true := by
  refine (Bool.and_eq_true _ _).mpr ⟨(Bool.and_eq_true _ _).mpr ⟨decide_eq_true ?_, List.all_eq_true.mpr ?_⟩, decide_eq_true ?_⟩
  · exact List.pairwise_map.mpr List.pairwise_lt_range
  · intro q hq
    obtain ⟨i, hi, rfl⟩ := List.mem_map.mp hq
    exact decide_eq_true (List.mem_range.mp hi)
  · simpa [poolOf, Config.poolPages] using h
/-- The channel of slip 5 has the one page that holds no committed place; channel 7 waits, with a record held. -/
def freesPage : State :=
  let s : State := swept 0 2 0 0 .held owing
  { s with pool := poolOf 8192, feed := { s.feed with stalled := [7] } }.onChan 7 fun _ =>
    { chanIn .stalled (some { file0 [] false with switch := 6, held := some (record0, 0) }) 64 128 with slip := some 6 }
theorem witness_RecordReachesItsEnd_freed : OneSlip quiet 5 freesPage ∧ freesPage.openPage 7 0 = none ∧
    (∃ p ∈ freesPage.pool.pages, p.owner = some 2 ∧ p.committed = 0) ∧ freesPage.feed.stalled = [7] ∧
    ((freesPage.chan 7).file.bind File.held).isSome = true := by
  unfold OneSlip DeskFits Steady NoChoice NoneResumes byteAt at_; decide +kernel
/-- R54: the page that the sweep's withdrawal frees goes to the channel that waits. -/
theorem test_sweep_frees_a_page : let t := nextOf (.sweep quiet) freesPage
    t.feed.stalled = [] ∧ (t.chan 7).state = .running ∧ (t.pool.pages.getLast?.map fun p => (p.owner, p.serial, p.places.length)) = some (some 7, 8192, 1) := by
  decide +kernel
theorem witness_RecordReachesItsEnd_legal : freesPage.pool.legal = true := poolOf_legal 8192 (Nat.le_refl _)

/-- The answer's bounds: a slip withdrawn or not, its mark TAKEN or another; a counter's advance without a desk; a read to the last
host byte and beyond. -/
theorem witness_AnswersAndNotices_drops : ready.desk.place ≠ 0 ∧ DeskFits ready ∧
    ({ ready with mem := [(0x10000 + 8192, 2)], desk := { ready.desk with held := bset ready.desk.held 63 .withdrawn } } : State).dropsAnswer 63 = true ∧
    ready.readFails (ready.slipAt 63) 1 = false ∧ byteAt ready (ready.slipAt 63) ≠ 2 ∧ State.reset.desk.place = 0 ∧
    ready.readFails (2 ^ 64 - 8) 8 = false ∧ ready.readFails (2 ^ 64 - 7) 8 = true ∧
    (at_ { writes := [], fails := [(100, 4)] } ready).readFails 96 4 = false ∧ (at_ { writes := [], fails := [(100, 4)] } ready).readFails 103 1 = true := by
  unfold DeskFits byteAt at_; decide +kernel
/-- The bounds of R32, R38, R39, R149, R162 and R168. -/
theorem witness_LongOperationsAreRefused_bounds : GoodSwitch false 1023 ∧ ¬ GoodSwitch false 1024 ∧ GoodSwitch true 1024 ∧
    GoodSelection { everything with first := 7, last := 7 } ∧ ¬ GoodSelection { everything with first := 8, last := 7 } ∧
    GoodSelection { everything with mask := 0xF8 } ∧ ¬ GoodSelection { everything with mask := 0xF0 } ∧
    GoodFormat { goodFormat with days := [1, 1, 1, 16383], window := 1, horizon := 1 } ∧ ¬ GoodFormat { goodFormat with days := [1, 1, 1, 16384] } ∧
    ¬ GoodFormat { goodFormat with days := [0, 1, 1, 1] } ∧ ¬ GoodFormat { goodFormat with window := 0 } ∧ ¬ GoodFormat { goodFormat with horizon := 0 } := by
  unfold GoodSwitch GoodSelection GoodFormat; decide +kernel
theorem witness_LongOperationsAreRefused_extract : GoodExtract extracting ∧ GoodExtract { extracting with range := some (7, 7) } ∧
    ¬ GoodExtract { extracting with range := some (8, 7) } ∧ ¬ GoodExtract { extracting with capacity := 0 } ∧
    ¬ GoodExtract { extracting with mask := 0xF0 } := by
  refine ⟨⟨⟨0, by decide +kernel⟩, by decide, by simp [extracting]⟩, ⟨⟨0, by decide +kernel⟩, by decide, ?_⟩, fun h => ?_, fun h => h.2.1 rfl, fun h => ?_⟩
  · rintro a b ⟨⟩; decide
  · exact absurd (h.2.2 8 7 rfl) (by decide)
  · exact absurd h.1 (by decide +kernel)

/-- R40, R65, R173: the answer of a FORMAT of all lanes ONLINE, without and with a retired extent, and the blocks as built. -/
def lastErase (ok : Bool) : State := nextOf (.formatEraseCompletion 2 ok quiet) { formatting 1 with mem := [(0x10000 + 128 * 4, 2)] }
theorem witness_FormatEraseCompletes_answer : (at_ quiet { formatting 1 with mem := [(0x10000 + 128 * 4, 2)] }).dropsAnswer 3 = false ∧
    (op (.format goodFormat)).slip = some 3 ∧ (formatting 1).exec.suspended ++ (formatting 1).exec.waiting = [] := by
  unfold at_; decide +kernel
theorem test_format_answers :
    [true, false].map (fun ok => ((lastErase ok).hostBytes (ready.answerAt 3) 40, bget (lastErase ok).desk.map 3)) =
      [(answerBytes .done (fours [262080, 0]), Status.done.code), (answerBytes .mediaError (fours [262080, 1]), Status.mediaError.code)] ∧
    (lastErase true).feed = Feed.blank ∧ (lastErase true).coder = Coder.blank ∧ (lastErase false).exec = Exec.blank ∧
    (lastErase false).pool = Pool.blank := by decide +kernel

/-- A rejected and a duplicate record while the coder holds a block, and a ready key waits behind it. -/
def passedBy (m seq : Byte) : State :=
  let s := { recorded m 7 100 seq with pool := { pages := [heldPage theKey 65 3], serial := 5 } }
  { s with coder := { Coder.blank with buffers := bset Coder.blank.buffers 1 (.forming theKey []) } }
theorem witness_RecordIsSeenAndCounted_passed : CoderHolds (passedBy 0x51 232) ∧ CoderHolds (passedBy 0x52 231) ∧ ¬ CoderHolds (recorded 0x51 7 100 232) ∧
    (passedBy 0x51 232).recordReady 2 = true ∧ (passedBy 0x52 231).recordReady 2 = true ∧ (passedBy 0x52 231).feed.stalled = [] := by
  unfold CoderHolds; decide +kernel

/-- A stored block whose stream has an entry, of which the segment is the highest part or not. -/
def storingIn (st : LiveState) (highest reserve : Nat) (f : Option Nat) : State :=
  (holding 65543 st { seg with inFlight := 1, reserve := reserve } (storing st 2000000)).setDir theKey
    { highest := highest, digest := 9, filling := f, count := 2, limited := false }
theorem witness_StoreCompletionAppends_entry : (storingIn .filling 1 2000002 (some 65543)).dirEntry seg.key =
      some { highest := seg.part, digest := 9, filling := some 65543, count := 2, limited := false } ∧
    (storingIn .filling 2 0 (some 65543)).dirEntry seg.key = some { highest := 2, digest := 9, filling := some 65543, count := 2, limited := false } ∧
    (storingIn .filling 2 0 (some 65543)).live? 65543 = some (.filling, { seg with inFlight := 1, reserve := 0 }) ∧
    (storingIn .closed 2 2000002 (some 65540)).live? 65543 = some (.closed, { seg with inFlight := 1, reserve := 2000002 }) ∧
    (storingIn .closed 2 2000002 (some 65540)).engine = .ready ∧ Acts (storingIn .filling 1 2000002 (some 65543)) := by
  unfold Acts; decide +kernel
/-- R29, R30, R31: the highest digest at an append; the entries of a media error. -/
theorem test_store_completion :
    let t (ok : Bool) (s : State) := nextOf (.storeCompletion 4 ok) s
    [1, 2].map (fun h => ((t true (storingIn .filling h 2000002 (some 65543))).dirEntry theKey).map DirEntry.digest) =
      [some (foldDigest 1 [1, 2]), some 9] ∧
    (t false (storingIn .filling 1 2000002 (some 65543))).jnl.store.map (fun e => e.body) =
      [EntryBody.mk0 .storeFailed (.segment 65543) 1 2000000 0, EntryBody.mk0 .segmentClosed (.segment 65543) 5 1 2] ∧
    (t false (storingIn .closed 2 2000002 (some 65540))).jnl.store.map (fun e => e.body) = [EntryBody.mk0 .storeFailed (.segment 65543) 1 2000000 0] ∧
    (t false (storingIn .filling 1 0 (some 65543))).fillingOf theKey = none ∧
    (t false (storingIn .closed 2 2000002 (some 65540))).fillingOf theKey = some 65540 := by decide +kernel

/-- The quick slips of an idle executor, for which an operation waits. -/
theorem witness_WithdrawalOfAnErase_calm : Calm queued ∧ Calm (queueing (idle queued)) ∧
    (bget (queueing (idle queued)).lanes.lane (laneOf 65543)).inProgress ≠ some (.erase 65543) :=
  ⟨calm_running _ rfl rfl, calm_waiting _ rfl rfl rfl, by decide +kernel⟩
theorem witness_ContextSlipsReadAndWrite_calm : Calm (written (contextWrite 1) ready) ∧ Calm (queueing (idle (lastOf (contextWrite 1)))) ∧
    Calm (fullPool (lastOf (contextWrite 2))) ∧ (fullPool (lastOf (contextWrite 2))).feed.stalled = [7] :=
  ⟨calm_running _ rfl rfl, calm_waiting _ rfl rfl rfl, calm_running _ rfl rfl, rfl⟩
theorem witness_CloseResolveAndJournalRelease_idle : Calm closing ∧ Calm (queueing (idle closing)) ∧
    Calm (queueing (idle (quickly [slip .resolve [7, 0, 1, 0]] (holding 65543 .closed { seg with mark := .suspect } ready)))) :=
  ⟨calm_running _ rfl rfl, calm_waiting _ rfl rfl rfl, calm_waiting _ rfl rfl rfl⟩
/-- R135, R149: HOLD withdraws the queued erase, and the request behind it in the queue is granted. -/
theorem test_hold_withdraws :
    let s := (queueing (idle queued)).onLane 4 fun l => { l with backQ := [.erase 65543, .fetch 65543 0 1 .scrub] }
    let t := nextOf (.hold quiet) s
    (t.live? 65543).map Prod.fst = some .closed ∧ (bget t.lanes.lane 4).backQ = [] ∧
    (bget t.lanes.lane 4).inProgress = some (.fetch 65543 0 1 .scrub) ∧ t.exec.running.map Op.adm = some 10 := by decide +kernel

/-- The scrub's fetches while nothing runs and nothing waits; a lane that is busy, has a queue, or is free for a request at once. -/
theorem witness_FetchBringsTheReaderOn_idle : NoChoice (idle (scrubbing 1999999)) ∧ NoChoice (idle (scrubbing 2000000)) ∧
    (idle (scrubbing 1999999)).scrub.visit = some (visit0 1999999) ∧ (idle (scrubbing 1999999)).exec.running = none := by
  unfold NoChoice; decide +kernel
def laneOnce (f : Lane → Lane) (s : State) : State := (s.onLane 4 f).onLane 15 f
def laneBusy (l : Lane) : Lane := { l with inProgress := some (.erase 9), foreQ := [.erase 7], backQ := [.erase 5] }
/-- R124, R126, R157: the fetch is in progress at once on a free lane, and last in its queue on a busy one. -/
theorem test_fetch_is_asked :
    let at4 (s : State) := let l := bget (nextOf (.verifyCursorStep quiet) s).lanes.lane 4; (l.inProgress, l.foreQ, l.backQ)
    let at15 (s : State) := let l := bget (nextOf .scrubStep s).lanes.lane 15; (l.inProgress, l.foreQ, l.backQ)
    at4 (verifying .closed) = (some (fetchOf 65543 0 2000000 (.op 9)), [], []) ∧
    at4 (laneOnce laneBusy (verifying .closed)) = (some (.erase 9), [.erase 7, fetchOf 65543 0 2000000 (.op 9)], [.erase 5]) ∧
    at15 (walking seg) = (some (fetchOf 262142 0 2000000 .scrub), [], []) ∧
    at15 (laneOnce laneBusy (walking seg)) = (some (.erase 9), [.erase 7], [.erase 5, fetchOf 262142 0 2000000 .scrub]) := by decide +kernel

end Sys2Proof.Tests
end

section
/-! SUPPORT. How the bytes of a header and of a record are read: a field is its bytes, lowest first, and a digit place is half a byte
(Day-file header and record). -/

namespace Sys2Proof.Machine

/-! ## Fields and digit places -/

theorem field_succ (b : List Byte) (i n : Nat) : field b i (n + 1) = (b.getD i 0).toNat + 256 * field b (i + 1) n := by
  unfold field
  cases h : b.drop i with
  | nil =>
    have : b.length ≤ i := by simpa using h
    have h2 : b.drop (i + 1) = [] := by simp; omega
    simp [leValue, this, h2]
  | cons x xs =>
    have h1 : b[i]? = some x := by rw [← List.head?_drop, h]; rfl
    have h2 : b.drop (i + 1) = xs := by rw [← List.drop_drop, h]; rfl
    simp [leValue, h1, h2]

theorem field_one (b : List Byte) (i : Nat) : field b i 1 = (b.getD i 0).toNat := field_succ b i 0

theorem field_two (b : List Byte) (i : Nat) : field b i 2 = (b.getD i 0).toNat + 256 * (b.getD (i + 1) 0).toNat := by
  rw [field_succ, field_one]

theorem field_four (b : List Byte) (i : Nat) : field b i 4 =
    (b.getD i 0).toNat + 256 * (b.getD (i + 1) 0).toNat + 65536 * (b.getD (i + 2) 0).toNat
      + 16777216 * (b.getD (i + 3) 0).toNat := by
  simp only [field_succ _ _ 3, field_succ _ _ 2, field_two, Nat.add_assoc, Nat.reduceAdd]
  omega

theorem field_eight (b : List Byte) (i : Nat) : field b i 8 = field b i 4 + 4294967296 * field b (i + 4) 4 := by
  simp only [field_succ _ _ 7, field_succ _ _ 6, field_succ _ _ 5, field_succ _ _ 4, field_four, Nat.add_assoc, Nat.reduceAdd]
  omega

theorem field_four_lt (b : List Byte) (i : Nat) : field b i 4 < 4294967296 := by
  rw [field_four]
  omega

@[simp] theorem unpackDigits_length (bs : List Byte) : (unpackDigits bs).length = 2 * bs.length := by
  induction bs with
  | nil => rfl
  | cons b bs ih => simp [unpackDigits, ih]; omega

/-- The digit places of byte i: its low half stands first. -/
theorem unpackDigits_getElem? (bs : List Byte) (i : Nat) (h : i < bs.length) :
    (unpackDigits bs)[2 * i]? = some ((bs.getD i 0).toNat % 16) ∧
    (unpackDigits bs)[2 * i + 1]? = some ((bs.getD i 0).toNat / 16) := by
  induction bs generalizing i with
  | nil => cases h
  | cons b bs ih =>
    cases i with
    | zero => simp [unpackDigits]
    | succ i =>
      have := ih i (by simpa using h)
      simpa [unpackDigits, Nat.mul_add] using this

theorem unpackDigits_span (b : List Byte) (o i : Nat) (hb : o + 9 ≤ b.length) (h : i < 9) :
    (unpackDigits ((b.drop o).take 9))[2 * i]? = some ((b.getD (o + i) 0).toNat % 16) ∧
    (unpackDigits ((b.drop o).take 9))[2 * i + 1]? = some ((b.getD (o + i) 0).toNat / 16) := by
  have e : ((b.drop o).take 9).getD i 0 = b.getD (o + i) 0 := by
    simp [h]
  rw [← e]
  exact unpackDigits_getElem? _ i (by simp; omega)

/-! ## The judgement of a record (R7, R9) -/

theorem any_effectiveDigits_iff (len : Nat) (places : List Nat) :
    (effectiveDigits len places).any (fun d => decide (11 < d)) = true ↔
      ∃ i d, i < len ∧ i < 18 ∧ places[i]? = some d ∧ 11 < d := by
  simp only [effectiveDigits, effectiveLength, List.any_eq_true, decide_eq_true_eq, List.mem_iff_getElem?, List.getElem?_take]
  constructor
  · rintro ⟨d, ⟨i, hi⟩, hd⟩
    split at hi
    · exact ⟨i, d, by omega, by omega, hi, hd⟩
    · cases hi
  · rintro ⟨i, d, h1, h2, hi, hd⟩
    exact ⟨d, ⟨i, by rw [if_pos (by omega), hi]⟩, hd⟩

theorem rejected_iff (r : Raw) : r.rejected = true ↔ r.marker ≠ 0x52 ∨ 7 < r.cls ∨ 863999 < r.start ∨
    (∃ i d, i < r.callingLen ∧ i < 18 ∧ r.callingDigits[i]? = some d ∧ 11 < d) ∨
    ∃ i d, i < r.calledLen ∧ i < 18 ∧ r.calledDigits[i]? = some d ∧ 11 < d := by
  simp only [Raw.rejected, Bool.or_eq_true, any_effectiveDigits_iff, bne_iff_ne, decide_eq_true_eq, or_assoc]

end Sys2Proof.Machine
end

section
namespace Sys2Proof.Claims

open Sys2Proof.Machine

/-- Settles O22, field by field: the tests by R7, R9 and R10, the layouts by the offsets at which they are read, the day of expiry by
the retention table. -/
theorem recordFieldsAreJudged : Obligations.RecordFieldsAreJudged := by
  refine ⟨fun r => ?_, fun b hb => ?_, fun b _ => ?_, fun s => ⟨fun c => ?_, fun k g hk => ?_⟩⟩
  · refine ⟨rejected_iff r, by simp [Raw.clamped], rfl, rfl, rfl, rfl, rfl, rfl, rfl, fun h => ?_, fun h => ?_, fun h => ?_,
      fun h => ?_, fun h => ?_, fun h => ?_⟩
    · exact Nat.min_eq_left h
    · exact Nat.min_eq_right (by omega)
    all_goals simp only [Raw.corrected, effectiveDigits, effectiveLength]
    · rw [Nat.min_eq_left h]
    · rw [Nat.min_eq_right (by omega)]
    · rw [Nat.min_eq_left h]
    · rw [Nat.min_eq_right (by omega)]
  · have seq : (readRecord b).seq.toNat = field b 4 4 := by
      simpa [readRecord] using field_four_lt b 4
    refine ⟨rfl, field_one b 1, field_one b 2, field_one b 3, field_one b 18, seq.trans (field_four b 4), field_four b 8,
      field_four b 12, field_two b 16, field_four b 20, field_four b 24, ?_, ?_, fun i hi => ?_⟩
    · simp [readRecord, hb]
    · simp [readRecord, hb]
    · obtain ⟨h1, h2⟩ := unpackDigits_span b 28 i (by omega) hi
      obtain ⟨h3, h4⟩ := unpackDigits_span b 37 i (by omega) hi
      exact ⟨h1, h2, h3, h4⟩
  · exact ⟨rfl, field_one b 1, field_two b 2, field_two b 4, field_two b 6, field_four b 8, by
      rw [← field_four b 16, ← field_four b 20]; exact field_eight b 16⟩
  · have e : s.groupOf c.val = (bget s.ret.classMap c).val := by simp [State.groupOf]
    exact ⟨e, by rw [e]; omega⟩
  · simp [State.expiredOnArrival, State.expiryDay, State.groupDays, hk]

end Sys2Proof.Claims
end

section
/-! SUPPORT. Submissions to the journal (R175): what is submitted is taken or waits, and when all of it is taken at once. -/

namespace Sys2Proof.Machine.State

open Sys2Proof.Claims

variable {s t : State}

/-! ## What the taking of a submission leaves -/

/-- The journal after it has taken entries: they stand at the end of the store and of the buffer, and a run may have been formed. -/
def Took (es : List EntryBody) (j k : Journal) : Prop :=
  ∃ new out at', new.map Entry.body = es ∧
    k = { j with store := j.store ++ new, buffer := j.buffer ++ new, head := j.head + es.length, out := out, pointer := at' }

/-- The entry that the journal makes of what is submitted (R174). -/
def entryOf (s : State) (second : Bool) (b : EntryBody) : Entry :=
  { seq := s.jnl.head, day := s.ret.day, second := second, body := b }

theorem takeEntry_jnl (second : Bool) (b : EntryBody) (s : State) : (s.takeEntry second b).jnl =
    { s.jnl with store := s.jnl.store ++ [s.entryOf second b], buffer := s.jnl.buffer ++ [s.entryOf second b],
                 head := s.jnl.head + 1 } := by
  unfold takeEntry
  dsimp only
  split
  · exact notice_does (same_jnl.mono rfl) .findings rfl
  · rfl

theorem takeEntries_jnl (es : List EntryBody) (second : Bool) (s : State) : Took es s.jnl (takeEntries second es s).jnl := by
  induction es generalizing second s with
  | nil => exact ⟨[], s.jnl.out, s.jnl.pointer, rfl, by simp [takeEntries]⟩
  | cons e es ih =>
    obtain ⟨new, out, p, hb, hj⟩ := ih true (s.takeEntry second e)
    refine ⟨s.entryOf second e :: new, out, p, by simp [hb, entryOf], ?_⟩
    rw [takeEntries, hj, takeEntry_jnl]
    simp [Nat.add_assoc, Nat.add_comm 1]

theorem formRun_jnl (s : State) : ∃ out p, s.formRun.jnl = { s.jnl with out := out, pointer := p } := by
  unfold formRun
  split
  · exact ⟨s.jnl.out, s.jnl.pointer, rfl⟩
  · split
    · exact ⟨s.jnl.out, s.jnl.pointer, rfl⟩
    · exact ⟨_, _, rfl⟩

theorem takeSubmission_jnl (es : List EntryBody) (s : State) : Took es s.jnl (s.takeSubmission es).jnl := by
  obtain ⟨new, out, p, hb, hj⟩ := takeEntries_jnl es false s
  unfold takeSubmission
  dsimp only
  split
  · obtain ⟨out', p', hj'⟩ := formRun_jnl (takeEntries false es s)
    exact ⟨new, out', p', hb, by rw [hj', hj]⟩
  · exact ⟨new, out, p, hb, hj⟩

/-! ## A submission -/

/-- The journal takes a submission at once exactly where nothing waits and there is room (R175). -/
def takesAtOnce (s : State) (sub : Submission) : Bool := s.jnl.line.isEmpty && s.canTake sub

theorem journalOff_of_ready (h : s.engine = .ready) : s.journalOff = false := by simp [journalOff, h]

/-- A READY engine's submission: taken at once, or put at the back of the line. -/
theorem submit_of_ready (h : s.engine = .ready) (sub : Submission) :
    (s.takesAtOnce sub = true ∧ s.submit sub = (s.takeSubmission sub.entries, true)) ∨
    (s.takesAtOnce sub = false ∧ s.submit sub = (s.onJnl fun j => { j with line := j.line ++ [sub] }, false)) := by
  cases e : s.takesAtOnce sub
  · exact .inr ⟨rfl, by rw [submit, if_neg (by simp [journalOff_of_ready h]), if_neg (by simpa [takesAtOnce] using e)]⟩
  · exact .inl ⟨rfl, by rw [submit, if_neg (by simp [journalOff_of_ready h]), if_pos (by simpa [takesAtOnce] using e)]⟩

@[simp] theorem submit_engine (sub : Submission) (s : State) : (s.submit sub).1.engine = s.engine :=
  submit_does (same_engine.mono rfl) sub rfl
@[simp] theorem post_engine (who : Producer) (es : List EntryBody) (s : State) : (s.post who es).engine = s.engine :=
  submit_engine _ s

/-- The journal has room for n entries, one after another, exactly where it takes a submission of n at once. -/
theorem takesAtOnce_iff (s : State) (sub : Submission) :
    s.takesAtOnce sub = true ↔ s.jnl.line = [] ∧ s.jnl.buffer.length + sub.entries.length ≤ 4096 ∧
      s.windowSize + sub.entries.length ≤ 1048576 := by
  simp [takesAtOnce, canTake]

theorem entriesFit_iff (n : Nat) (s : State) : EntriesFit n s ↔
    s.jnl.line = [] ∧ s.jnl.buffer.length + n ≤ 4096 ∧ (n = 0 ∨ s.jnl.head - s.jnl.release + n ≤ 1048576) := by
  have room : n ≤ s.room ↔ n = 0 ∨ s.jnl.head - s.jnl.release + n ≤ 1048576 := by
    simp only [room, windowSize, Config.journalWindow]
    omega
  rw [EntriesFit, room]

theorem entriesFit_mono {n m : Nat} (h : EntriesFit n s) (hm : m ≤ n) : EntriesFit m s := by
  obtain ⟨h1, h2, h3⟩ := h
  exact ⟨h1, by omega, by omega⟩

theorem entriesFit_congr {n : Nat} (h : t.jnl = s.jnl) : EntriesFit n t ↔ EntriesFit n s := by
  rw [entriesFit_iff, entriesFit_iff, h]

/-- A submission that is not empty is taken at once exactly where its entries fit. -/
theorem takesAtOnce_iff_fits (sub : Submission) (h : sub.entries ≠ []) :
    s.takesAtOnce sub = true ↔ EntriesFit sub.entries.length s := by
  have : sub.entries.length ≠ 0 := by simpa using h
  rw [takesAtOnce_iff, entriesFit_iff, windowSize]
  simp [this]

/-- After the taking of entries there is room for what there was room for beside them. -/
theorem entriesFit_of_took {es : List EntryBody} (h : Took es s.jnl t.jnl) {n : Nat} (hs : EntriesFit (es.length + n) s) :
    EntriesFit n t := by
  obtain ⟨new, out, p, hb, hj⟩ := h
  have hl : new.length = es.length := by rw [← hb, List.length_map]
  rw [entriesFit_iff] at hs ⊢
  obtain ⟨h1, h2, h3⟩ := hs
  rw [hj]
  simp only [List.length_append]
  exact ⟨h1, by omega, by omega⟩

/-- And before the taking there was room for the entries and for what follows them. -/
theorem entriesFit_before_took {es : List EntryBody} (h : Took es s.jnl t.jnl) {n : Nat} (hn : n ≠ 0) (ht : EntriesFit n t) :
    EntriesFit (es.length + n) s := by
  obtain ⟨new, out, p, hb, hj⟩ := h
  have hl : new.length = es.length := by rw [← hb, List.length_map]
  rw [entriesFit_iff, hj] at ht
  simp only [List.length_append] at ht
  obtain ⟨h1, h2, h3⟩ := ht
  exact (entriesFit_iff _ _).mpr ⟨h1, by omega, by omega⟩

theorem took_nil (j : Journal) : Took [] j j := ⟨[], j.out, j.pointer, rfl, by simp⟩

theorem took_append {es fs : List EntryBody} {i j k : Journal} (h : Took es i j) (g : Took fs j k) : Took (es ++ fs) i k := by
  obtain ⟨new, _, _, hb, rfl⟩ := h
  obtain ⟨new', out, p, hb', rfl⟩ := g
  exact ⟨new ++ new', out, p, by simp [hb, hb'], by simp [Nat.add_assoc]⟩

/-- What has been taken stands in the store. -/
theorem stored_of_took {es : List EntryBody} (h : Took es s.jnl t.jnl) : ∀ b ∈ es, ∃ e ∈ t.jnl.store, e.body = b := by
  obtain ⟨new, out, p, hb, hj⟩ := h
  intro b hm
  rw [← hb, List.mem_map] at hm
  obtain ⟨e, he, rfl⟩ := hm
  exact ⟨e, by rw [hj]; exact List.mem_append_right _ he, rfl⟩

/-! ## One submission of a READY engine -/

theorem submit_of_fits (h : s.engine = .ready) (sub : Submission) (hf : s.takesAtOnce sub = true) :
    (s.submit sub).2 = true ∧ Took sub.entries s.jnl (s.submit sub).1.jnl := by
  obtain ⟨_, e⟩ | ⟨hn, _⟩ := submit_of_ready h sub
  · exact ⟨by rw [e], by rw [e]; exact takeSubmission_jnl sub.entries s⟩
  · rw [hf] at hn; cases hn

theorem submit_submitted (h : s.engine = .ready) (sub : Submission) : ∀ b ∈ sub.entries, Submitted b (s.submit sub).1 := by
  intro b hb
  obtain ⟨_, e⟩ | ⟨_, e⟩ := submit_of_ready h sub
  · rw [e]
    exact .inl (stored_of_took (takeSubmission_jnl sub.entries s) b hb)
  · rw [e]
    exact .inr ⟨sub, by simp, hb⟩

/-- A submission that is not taken at once stands in the line, and its producer waits (R175). -/
theorem submit_waits (sub : Submission) (h : (s.submit sub).2 = false) : (s.submit sub).1.waits sub.who = true := by
  unfold submit at h ⊢
  split at h
  · cases h
  · split at h
    · cases h
    · rename_i h1 h2
      simp [h1, h2, waits]

/-! ## Submissions one after another -/

/-- Entries that fit are all taken, one after another. -/
theorem submitAll_of_fits (h : s.engine = .ready) (who : Producer) (acts : List OnTake) (es : List EntryBody)
    (hf : EntriesFit es.length s) :
    (submitAll who acts es s).2 = true ∧ Took es s.jnl (submitAll who acts es s).1.jnl := by
  induction es generalizing s with
  | nil => exact ⟨rfl, took_nil _⟩
  | cons e es ih =>
    cases es with
    | nil => exact submit_of_fits h _ ((takesAtOnce_iff_fits _ (by simp)).mpr hf)
    | cons e' es =>
      have first := (submit_of_fits h { entries := [e], who := who, acts := [] }
        ((takesAtOnce_iff_fits _ (by simp)).mpr (entriesFit_mono hf (by simp)))).2
      have later := ih (s := s.post who [e]) (by simpa using h) (entriesFit_of_took first (by simpa [Nat.add_comm] using hf))
      exact ⟨later.1, took_append first later.2⟩

/-- A READY engine's entries are all taken at once only where they fit. -/
theorem fits_of_submitAll (h : s.engine = .ready) (who : Producer) (acts : List OnTake) (es : List EntryBody) (hne : es ≠ [])
    (ht : (submitAll who acts es s).2 = true) : EntriesFit es.length s := by
  induction es generalizing s with
  | nil => exact absurd rfl hne
  | cons e es ih =>
    cases es with
    | nil =>
      obtain ⟨hf, _⟩ | ⟨_, he⟩ := submit_of_ready h { entries := [e], who := who, acts := acts }
      · exact (takesAtOnce_iff_fits _ (by simp)).mp hf
      · rw [submitAll, he] at ht
        cases ht
    | cons e' es =>
      have later : EntriesFit (es.length + 1) (s.post who [e]) := ih (by simpa using h) (by simp) ht
      obtain ⟨hf, _⟩ | ⟨_, he⟩ := submit_of_ready h { entries := [e], who := who, acts := [] }
      · simpa [Nat.add_comm] using entriesFit_before_took (submit_of_fits h _ hf).2 (by simp) later
      · have line : (s.post who [e]).jnl.line = [] := later.1
        simp [post, he] at line

end Sys2Proof.Machine.State
end

section
/-! SUPPORT. What goes on beside an operation (log 13): entries posted to the journal, the coder's selections, a run and the
grants. `Quiet` says once what these leave alone, in the terms of the feed unit. -/

namespace Sys2Proof.Machine

/-! ## Pages under the coder -/

/-- A place after the coder's work: the same record, RELEASED only where it was. -/
def PlaceKept (x y : Place) : Prop := y.data = x.data ∧ (y.standing = .released → x.standing = .released)

/-- A page after the coder's work: only the standings of its places have changed. -/
structure PageKept (p q : Page) : Prop where
  same : q = { p with places := q.places }
  places : List.Forall₂ PlaceKept p.places q.places

theorem forall₂_trans {α : Type} {R : α → α → Prop} (tr : ∀ a b c, R a b → R b c → R a c) {l m n : List α}
    (h : List.Forall₂ R l m) (g : List.Forall₂ R m n) : List.Forall₂ R l n := by
  induction h generalizing n with
  | nil => exact g
  | cons h _ ih =>
    cases g with
    | cons g gs => exact .cons (tr _ _ _ h g) (ih gs)

theorem PlaceKept.refl (x : Place) : PlaceKept x x := ⟨rfl, id⟩
theorem PlaceKept.trans {x y z : Place} (h : PlaceKept x y) (g : PlaceKept y z) : PlaceKept x z :=
  ⟨g.1.trans h.1, fun e => h.2 (g.2 e)⟩

theorem PageKept.refl (p : Page) : PageKept p p := ⟨rfl, List.forall₂_same.mpr fun x _ => .refl x⟩
theorem PageKept.trans {p q r : Page} (h : PageKept p q) (g : PageKept q r) : PageKept p r := by
  refine ⟨?_, forall₂_trans (fun _ _ _ => .trans) h.places g.places⟩
  rw [g.same, h.same]

theorem PageKept.staged {p q : Page} (h : PageKept p q) : Claims.staged q = Claims.staged p := by
  have places : ∀ {xs ys : List Place}, List.Forall₂ PlaceKept xs ys →
      ys.map (fun x => { x with standing := Standing.held }) = xs.map fun x => { x with standing := Standing.held } := by
    intro xs ys h
    induction h with
    | nil => rfl
    | cons h _ ih => simp [h.1, ih]
  rw [h.same]
  simp [Claims.staged, places h.places]

theorem PageKept.data {p q : Page} (h : PageKept p q) : q.places.map Place.data = p.places.map Place.data := by
  have := congrArg (fun r : Page => r.places.map Place.data) h.staged
  simpa [Claims.staged, Function.comp_def] using this

theorem PageKept.released {p q : Page} (h : PageKept p q) (hq : ∀ x ∈ q.places, x.standing = .released) :
    ∀ x ∈ p.places, x.standing = .released := by
  have places : ∀ {xs ys : List Place}, List.Forall₂ PlaceKept xs ys → (∀ y ∈ ys, y.standing = .released) →
      ∀ x ∈ xs, x.standing = .released := by
    intro xs ys h hy
    induction h with
    | nil => simp
    | cons h _ ih =>
      simp only [List.mem_cons, forall_eq_or_imp] at hy ⊢
      exact ⟨h.2 hy.1, ih hy.2⟩
  exact places h.places hq

theorem placesKept_setStanding (st : Standing) (h : st ≠ .released) (i : Nat) (xs : List Place) :
    List.Forall₂ PlaceKept xs (setStanding st i xs) := by
  induction xs generalizing i with
  | nil => cases i <;> exact .nil
  | cons x xs ih =>
    cases i with
    | zero => exact .cons ⟨rfl, fun e => absurd e h⟩ (List.forall₂_same.mpr fun x _ => .refl x)
    | succ i => exact .cons (.refl x) (ih i)

/-! ## The relation -/

/-- What entries, selections, a run and the grants leave alone: of the desk unit all but its notice fields, of the notice counters
all but FINDINGS, of host memory all but the counters in the desk header; of the pool all but the standings of places; and the
journal's store and line only grow at their ends. -/
structure Quiet (s t : State) : Prop where
  engine : t.engine = s.engine
  desk : t.desk = s.desk.withNotes t.desk
  fails : t.fails = s.fails
  feed : t.feed = s.feed
  recon : t.recon = s.recon
  serial : t.pool.serial = s.pool.serial
  pages : List.Forall₂ PageKept s.pool.pages t.pool.pages
  counters : ∀ k : Counter, k ≠ .findings → bget t.desk.counters k.index = bget s.desk.counters k.index
  store : s.jnl.store <+: t.jnl.store
  line : s.jnl.line <+: t.jnl.line
  outside : ∀ a, a < s.desk.place + 16 ∨ s.desk.place + 48 ≤ a →
    Memory.byte Config.hostFill t.mem a = Memory.byte Config.hostFill s.mem a
  wf : Memory.wf Config.hostFill s.mem = true → Memory.wf Config.hostFill t.mem = true

namespace Quiet

variable {s t u : State}

theorem refl (s : State) : Quiet s s :=
  ⟨rfl, rfl, rfl, rfl, rfl, rfl, List.forall₂_same.mpr fun p _ => .refl p, fun _ _ => rfl, List.prefix_rfl, List.prefix_rfl,
    fun _ _ => rfl, id⟩

theorem place (h : Quiet s t) : t.desk.place = s.desk.place := by rw [h.desk]; rfl
theorem held (h : Quiet s t) : t.desk.held = s.desk.held := by rw [h.desk]; rfl
theorem map (h : Quiet s t) : t.desk.map = s.desk.map := by rw [h.desk]; rfl

theorem trans (h : Quiet s t) (g : Quiet t u) : Quiet s u where
  engine := g.engine.trans h.engine
  desk := by rw [g.desk, h.desk]; rfl
  fails := g.fails.trans h.fails
  feed := g.feed.trans h.feed
  recon := g.recon.trans h.recon
  serial := g.serial.trans h.serial
  pages := forall₂_trans (fun _ _ _ => .trans) h.pages g.pages
  counters k hk := (g.counters k hk).trans (h.counters k hk)
  store := h.store.trans g.store
  line := h.line.trans g.line
  outside a ha := (g.outside a (by rw [h.place]; exact ha)).trans (h.outside a ha)
  wf e := g.wf (h.wf e)

/-- A change of the coder, the catalog or the lanes alone. -/
theorem of_same (engine : t.engine = s.engine) (desk : t.desk = s.desk) (fails : t.fails = s.fails) (feed : t.feed = s.feed)
    (recon : t.recon = s.recon) (pool : t.pool = s.pool) (store : t.jnl.store = s.jnl.store) (line : t.jnl.line = s.jnl.line)
    (mem : t.mem = s.mem) : Quiet s t where
  engine := engine
  desk := by rw [desk]; rfl
  fails := fails
  feed := feed
  recon := recon
  serial := by rw [pool]
  pages := by rw [pool]; exact List.forall₂_same.mpr fun p _ => .refl p
  counters _ _ := by rw [desk]
  store := by rw [store]
  line := by rw [line]
  outside _ _ := by rw [mem]
  wf := by rw [mem]; exact id

/-! ## What is kept, read off -/

theorem chan (h : Quiet s t) (c : ChanNo) : t.chan c = s.chan c := by unfold State.chan; rw [h.feed]
theorem switchCtx (h : Quiet s t) (n : Nat) : t.switchCtx n = s.switchCtx n := by unfold State.switchCtx; rw [h.recon]

theorem waits (h : Quiet s t) {p : Producer} (hw : s.waits p = true) : t.waits p = true := by
  obtain ⟨x, hx, hp⟩ := List.any_eq_true.mp hw
  exact List.any_eq_true.mpr ⟨x, h.line.subset hx, hp⟩

theorem submitted (h : Quiet s t) {b : EntryBody} (hb : Claims.Submitted b s) : Claims.Submitted b t :=
  hb.imp (fun ⟨e, he, hb⟩ => ⟨e, h.store.subset he, hb⟩) fun ⟨x, hx, hb⟩ => ⟨x, h.line.subset hx, hb⟩

theorem staged (h : Quiet s t) : t.pool.pages.map Claims.staged = s.pool.pages.map Claims.staged := by
  have pages : ∀ {ps qs : List Page}, List.Forall₂ PageKept ps qs → qs.map Claims.staged = ps.map Claims.staged := by
    intro ps qs h
    induction h with
    | nil => rfl
    | cons h _ ih => simp [h.staged, ih]
  exact pages h.pages

theorem page (h : Quiet s t) {p : Page} (hp : p ∈ s.pool.pages) : ∃ q ∈ t.pool.pages, PageKept p q := by
  obtain ⟨i, hi, rfl⟩ := List.mem_iff_getElem.mp hp
  have hl := h.pages.length_eq
  exact ⟨t.pool.pages[i], List.getElem_mem _, h.pages.get hi (hl ▸ hi)⟩

theorem page_back (h : Quiet s t) {q : Page} (hq : q ∈ t.pool.pages) : ∃ p ∈ s.pool.pages, PageKept p q := by
  obtain ⟨i, hi, rfl⟩ := List.mem_iff_getElem.mp hq
  have hl := h.pages.length_eq
  exact ⟨s.pool.pages[i], List.getElem_mem _, h.pages.get (hl ▸ hi) hi⟩

end Quiet

/-! ## What is quiet: submissions -/

namespace State

variable {s t : State}

/-- Every operation but a start-up, the desk unit's own and the registers' keeps the desk unit but for its notice fields. -/
theorem keeps_notes : Obeys (fun a b => b.desk = a.desk.withNotes b.desk)
    [.notes, .desk, .buf, .exec, .feed, .pool, .recon, .eds, .coder, .cat, .dir, .lanes, .ret, .holds, .scrub, .jnl, .marks] := by
  refine ⟨fun h g => by rw [g, h]; rfl, fun p hp => ?_⟩
  cases p <;> first
    | exact absurd hp (by decide)
    | (intro s f; rfl)
    | (intro s f hf; exact hf s.desk)
    | (intro s f hf; rfl)
    | (intro s a bs h1 h2; rw [hostWrite_desk]; rfl)
    | (intro s a bs; rw [hostWrite_desk]; rfl)

theorem notice_mem (c : Counter) (s : State) : (s.notice c).mem =
    ((s.onDesk fun d => { d with counters := bset d.counters c.index (bget d.counters c.index + 1) }).writeCounter c).mem := by
  unfold notice
  dsimp only
  split <;> rfl

/-- An advance writes no byte outside the counters of the desk header (R195). -/
theorem notice_outside (c : Counter) (s : State) (a : Nat) (h : a < s.desk.place + 16 ∨ s.desk.place + 48 ≤ a) :
    Memory.byte Config.hostFill (s.notice c).mem a = Memory.byte Config.hostFill s.mem a := by
  rw [notice_mem, writeCounter]
  split
  · rfl
  · refine byte_hostWrite_outside _ _ _ _ ?_
    have : c.index.val < 8 := c.index.isLt
    simp only [counterAt, onDesk_desk, leBytes_length]
    omega

theorem notice_wf (c : Counter) (h : Memory.wf Config.hostFill s.mem = true) :
    Memory.wf Config.hostFill (s.notice c).mem = true := by
  rw [notice_mem, writeCounter]
  split
  · exact h
  · exact wf_hostWrite _ _ h

theorem notice_counters (c : Counter) (s : State) :
    (s.notice c).desk.counters = bset s.desk.counters c.index (bget s.desk.counters c.index + 1) := by
  have h : ∀ u : State, (u.writeCounter c).desk = u.desk := fun u => writeCounter_does (same_desk.mono rfl) c rfl
  unfold notice
  dsimp only
  split
  · exact congrArg Desk.counters (h _)
  · exact congrArg Desk.counters (h _)

theorem counter_index_injective {k l : Counter} (h : k ≠ l) : k.index ≠ l.index := by
  cases k <;> cases l <;> first | exact absurd rfl h | decide

theorem notice_counter_ne {c k : Counter} (h : k ≠ c) (s : State) :
    bget (s.notice c).desk.counters k.index = bget s.desk.counters k.index := by
  rw [notice_counters, bget_bset_ne _ _ _ _ (counter_index_injective h).symm]

theorem notice_findings_quiet (s : State) : Quiet s (s.notice .findings) where
  engine := notice_does (same_engine.mono rfl) _ rfl
  desk := notice_does (keeps_notes.mono rfl) _ rfl
  fails := notice_does (same_fails.mono rfl) _ rfl
  feed := notice_does (same_feed.mono rfl) _ rfl
  recon := notice_does (same_recon.mono rfl) _ rfl
  serial := congrArg Pool.serial (notice_does (same_pool.mono rfl) _ rfl)
  pages := by
    have : (s.notice .findings).pool = s.pool := notice_does (same_pool.mono rfl) _ rfl
    rw [this]
    exact (Quiet.refl s).pages
  counters _ hk := notice_counter_ne hk s
  store := by
    have : (s.notice .findings).jnl = s.jnl := notice_does (same_jnl.mono rfl) _ rfl
    rw [this]
  line := by
    have : (s.notice .findings).jnl = s.jnl := notice_does (same_jnl.mono rfl) _ rfl
    rw [this]
  outside := notice_outside _ s
  wf := notice_wf _

/-- A change of the journal that only adds to its store and its line. -/
theorem onJnl_quiet (f : Journal → Journal) (hs : s.jnl.store <+: (f s.jnl).store) (hl : s.jnl.line <+: (f s.jnl).line) :
    Quiet s (s.onJnl f) :=
  { Quiet.refl s with store := hs, line := hl }

theorem takeEntry_quiet (second : Bool) (b : EntryBody) (s : State) : Quiet s (s.takeEntry second b) := by
  have taken := onJnl_quiet (s := s) (fun j =>
    { j with store := j.store ++ [s.entryOf second b], buffer := j.buffer ++ [s.entryOf second b], head := j.head + 1 })
    (List.prefix_append _ _) List.prefix_rfl
  unfold takeEntry
  dsimp only
  split
  · exact taken.trans (notice_findings_quiet _)
  · exact taken

theorem takeEntries_quiet (es : List EntryBody) (second : Bool) (s : State) : Quiet s (takeEntries second es s) := by
  induction es generalizing second s with
  | nil => exact .refl s
  | cons e es ih => exact (takeEntry_quiet second e s).trans (ih true _)

theorem formRun_quiet (s : State) : Quiet s s.formRun := by
  obtain ⟨out, p, hj⟩ := formRun_jnl s
  exact .of_same (formRun_does (same_engine.mono rfl) rfl) (formRun_does (same_desk.mono rfl) rfl)
    (formRun_does (same_fails.mono rfl) rfl) (formRun_does (same_feed.mono rfl) rfl) (formRun_does (same_recon.mono rfl) rfl)
    (formRun_does (same_pool.mono rfl) rfl) (by rw [hj]) (by rw [hj]) (formRun_does (same_mem.mono rfl) rfl)

theorem takeSubmission_quiet (es : List EntryBody) (s : State) : Quiet s (s.takeSubmission es) := by
  unfold takeSubmission
  dsimp only
  split
  · exact (takeEntries_quiet es false s).trans (formRun_quiet _)
  · exact takeEntries_quiet es false s

theorem submit_quiet (sub : Submission) (s : State) : Quiet s (s.submit sub).1 := by
  unfold submit
  split
  · exact .refl s
  · split
    · exact takeSubmission_quiet sub.entries s
    · exact onJnl_quiet (fun j => { j with line := j.line ++ [sub] }) List.prefix_rfl (List.prefix_append _ _)

theorem post_quiet (who : Producer) (es : List EntryBody) (s : State) : Quiet s (s.post who es) := submit_quiet _ s

theorem submitAll_quiet (who : Producer) (acts : List OnTake) (es : List EntryBody) (s : State) :
    Quiet s (submitAll who acts es s).1 := by
  induction es generalizing s with
  | nil => exact .refl s
  | cons e es ih =>
    cases es with
    | nil => exact submit_quiet _ s
    | cons e' es => exact (post_quiet who [e] s).trans (ih _)

/-- A READY engine's entries are all submitted. -/
theorem submitAll_submitted (h : s.engine = .ready) (who : Producer) (acts : List OnTake) (es : List EntryBody) :
    ∀ b ∈ es, Claims.Submitted b (submitAll who acts es s).1 := by
  induction es generalizing s with
  | nil => simp
  | cons e es ih =>
    cases es with
    | nil => exact submit_submitted h { entries := [e], who := who, acts := acts }
    | cons e' es =>
      intro b hb
      obtain rfl | hb := List.mem_cons.mp hb
      · have first := submit_submitted h { entries := [b], who := who, acts := [] } b (by simp)
        exact (submitAll_quiet who acts (e' :: es) _).submitted first
      · exact ih (s := s.post who [e]) (by simpa using h) b hb

/-- A producer whose entries are not all taken at once waits (R175). -/
theorem submitAll_waits (who : Producer) (acts : List OnTake) (es : List EntryBody) (h : (submitAll who acts es s).2 = false) :
    (submitAll who acts es s).1.waits who = true := by
  induction es generalizing s with
  | nil => cases h
  | cons e es ih =>
    cases es with
    | nil => exact submit_waits { entries := [e], who := who, acts := acts } h
    | cons e' es => exact ih h

/-! ## What is quiet: the coder, a run and the grants -/

theorem setPlace_quiet (st : Standing) (h : st ≠ .released) (id : PlaceId) (s : State) : Quiet s (s.setPlace st id) :=
  { Quiet.refl s with
    pages := List.forall₂_map_right_iff.mpr (List.forall₂_same.mpr fun p _ => by
      split
      · exact ⟨rfl, placesKept_setStanding st h id.2 p.places⟩
      · exact .refl p) }

theorem setPlaces_quiet (st : Standing) (h : st ≠ .released) (ids : List PlaceId) (s : State) : Quiet s (setPlaces st ids s) := by
  induction ids generalizing s with
  | nil => exact .refl s
  | cons id ids ih => exact (setPlace_quiet st h id s).trans (ih _)

theorem onCoder_quiet (f : Coder → Coder) (s : State) : Quiet s (s.onCoder f) := .of_same rfl rfl rfl rfl rfl rfl rfl rfl rfl
theorem onCat_quiet (f : Catalog → Catalog) (s : State) : Quiet s (s.onCat f) := .of_same rfl rfl rfl rfl rfl rfl rfl rfl rfl

theorem refuseOpen_quiet (k : StreamKey) (s : State) : Quiet s (s.refuseOpen k) := by
  unfold refuseOpen
  split
  · split
    · exact .refl s
    · exact (onCat_quiet _ s).trans (post_quiet _ _ _)
  · exact .refl s

theorem openRefused_quiet (k : StreamKey) (s : State) : Quiet s (s.openRefused k) := by
  have refused := (refuseOpen_quiet k s).trans (onCat_quiet (fun c => { c with openReq := none }) _)
  unfold openRefused
  dsimp only
  split
  · exact (refused.trans (setPlaces_quiet .held (by decide) _ _)).trans (onCoder_quiet _ _)
  · exact refused

theorem selectBlock_quiet (i : Fin 2) (k : StreamKey) (s : State) : Quiet s (s.selectBlock i k) := by
  have selected (ps : List PlaceId) := (setPlaces_quiet .inFlight (by decide) ps s).trans
    (onCoder_quiet (fun c => { c with buffers := bset c.buffers i (.forming k ps) }) _)
  unfold selectBlock
  dsimp only
  split
  · exact (selected _).trans (onCoder_quiet _ _)
  · exact ((selected _).trans (onCat_quiet _ _)).trans (onCoder_quiet _ _)

theorem coderNext_quiet (h : s.coderNext = some t) : Quiet s t := by
  unfold coderNext at h
  split at h
  · split at h
    · cases h
    · split at h
      · cases h; exact openRefused_quiet _ s
      · cases h; exact onCat_quiet _ s
  · split at h
    · cases h
    · split at h
      · cases h; exact selectBlock_quiet _ _ s
      · cases h

theorem restCoder_quiet (s : State) : Quiet s s.restCoder := by
  unfold restCoder
  split
  · exact .refl s
  · exact onCoder_quiet _ s

theorem coderLoop_quiet (n : Nat) (s : State) : Quiet s (coderLoop n s) := by
  induction n generalizing s with
  | zero => exact .refl s
  | succ n ih =>
    unfold coderLoop
    split
    · rename_i h; exact (coderNext_quiet h).trans (ih _)
    · exact restCoder_quiet s

theorem runCoder_quiet (s : State) : Quiet s s.runCoder := by
  unfold runCoder
  split
  · exact .refl s
  · exact coderLoop_quiet _ s

/-- A coder that has a block in hand and asks for no segment does nothing. -/
theorem runCoder_of_holds (h : Claims.CoderHolds s) : s.runCoder = s := by
  obtain ⟨hi, ho⟩ := h
  obtain ⟨b, hb⟩ := Option.isSome_iff_exists.mp hi
  have next : s.coderNext = none := by simp [coderNext, ho, hb]
  have rest : s.restCoder = s := by simp [restCoder, hi]
  unfold runCoder
  split
  · rfl
  · simp [coderLoop, next, rest]

theorem pump_quiet (s : State) : Quiet s s.pump := by
  have lanes : ∀ (ls : List LaneNo) (u : State), Quiet u (ls.foldl (fun t l => t.onLane l (Lane.grant t.lanes.share)) u) := by
    intro ls
    induction ls with
    | nil => exact .refl
    | cons l ls ih =>
      intro u
      have grant : Quiet u (u.onLane l (Lane.grant u.lanes.share)) := .of_same rfl rfl rfl rfl rfl rfl rfl rfl rfl
      exact grant.trans (ih _)
  exact (formRun_quiet s).trans (lanes _ _)

theorem resumeStalled_of_noneResumes (h : Claims.NoneResumes s) : s.resumeStalled = s := by
  unfold resumeStalled
  obtain h | h := h
  · rw [h]; rfl
  · cases s.feed.stalled with
    | nil => rfl
    | cons c cs =>
      have : s.poolHasPage = false := by simpa [poolHasPage] using h
      simp [resumeAll, this]

theorem settle_eq (h : Claims.NoneResumes s) : s.settle = s.runCoder.pump := by
  rw [settle, resumeStalled_of_noneResumes h]

theorem settle_quiet (h : Claims.NoneResumes s) : Quiet s s.settle := by
  rw [settle_eq h]
  exact (runCoder_quiet s).trans (pump_quiet _)

end State

end Sys2Proof.Machine
end

section
/-! SUPPORT. Answers (R193): what the four writes leave in the desk, and that nothing quiet disturbs them. -/

namespace Sys2Proof.Machine

/-! ## Spans of host memory -/

theorem bytes_congr {fill : Byte} {m k : Memory} (a n : Nat)
    (h : ∀ i, a ≤ i → i < a + n → Memory.byte fill m i = Memory.byte fill k i) :
    Memory.bytes fill m a n = Memory.bytes fill k a n := by
  induction n generalizing a with
  | zero => rfl
  | succ n ih =>
    rw [Memory.bytes, Memory.bytes, h a (by omega) (by omega), ih (a + 1) fun i _ _ => h i (by omega) (by omega)]

namespace State

open Sys2Proof.Claims

variable {u s t : State}

theorem hostBytes_hostWrite (a : Nat) (bs : List Byte) (h : a + bs.length ≤ 2 ^ 64) (w : Memory.wf Config.hostFill s.mem = true) :
    (s.hostWrite a bs).hostBytes a bs.length = bs := by
  rw [hostBytes, hostWrite, if_pos h]
  exact bytes_writeAll a bs w

theorem byte_hostWrite_one (a : Nat) (b : Byte) (h : a + 1 ≤ 2 ^ 64) (w : Memory.wf Config.hostFill s.mem = true) :
    Memory.byte Config.hostFill (s.hostWrite a [b]).mem a = b := by
  simpa [hostBytes, Memory.bytes] using hostBytes_hostWrite a [b] h w

/-! ## The slips as an answer finds them -/

/-- Between two states nothing that decides an answer has changed: the place of the desk, what is held and mapped, the failing reads,
and the marks in host memory. -/
structure SlipsStand (u s : State) : Prop where
  place : s.desk.place = u.desk.place
  held : s.desk.held = u.desk.held
  map : s.desk.map = u.desk.map
  fails : s.fails = u.fails
  marks : ∀ i : SlipNo, s.markOf i = u.markOf i
  wf : Memory.wf Config.hostFill u.mem = true → Memory.wf Config.hostFill s.mem = true

namespace SlipsStand

theorem refl (s : State) : SlipsStand s s := ⟨rfl, rfl, rfl, rfl, fun _ => rfl, id⟩

theorem trans (h : SlipsStand u s) (g : SlipsStand s t) : SlipsStand u t :=
  ⟨g.place.trans h.place, g.held.trans h.held, g.map.trans h.map, g.fails.trans h.fails, fun i => (g.marks i).trans (h.marks i),
    fun w => g.wf (h.wf w)⟩

/-- A change that leaves the desk unit, the failing reads and host memory alone. -/
theorem of_same (desk : t.desk = s.desk) (fails : t.fails = s.fails) (mem : t.mem = s.mem) : SlipsStand s t :=
  ⟨by rw [desk], by rw [desk], by rw [desk], fails, fun i => by rw [markOf, markOf, slipAt, slipAt, desk, mem], by rw [mem]; exact id⟩

theorem dropsAnswer (h : SlipsStand u s) (i : SlipNo) : s.dropsAnswer i = u.dropsAnswer i := by
  have at' : s.slipAt i = u.slipAt i := by rw [slipAt, slipAt, h.place]
  have read : s.readFails (s.slipAt i) 1 = u.readFails (u.slipAt i) 1 := by rw [readFails, readFails, h.fails, at']
  rw [State.dropsAnswer, State.dropsAnswer, h.held, read, h.marks]

theorem of_quiet (h : Quiet s t) : SlipsStand s t where
  place := h.place
  held := h.held
  map := h.map
  fails := h.fails
  marks i := by
    rw [markOf, markOf, slipAt, slipAt, h.place]
    exact h.outside _ (by omega)
  wf := h.wf

end SlipsStand

/-! ## The four writes -/

theorem notice_desk (c : Counter) (s : State) : (s.notice c).desk = s.desk.withNotes (s.notice c).desk :=
  notice_does (keeps_notes.mono rfl) c rfl

/-- What the four writes leave. -/
structure Wrote (s : State) (i : SlipNo) (st : Status) (vs : List Byte) (t : State) : Prop where
  desk : ∃ n : Desk, t.desk = { s.desk.withNotes n with map := bset s.desk.map i st.code, held := bset s.desk.held i .notHeld }
  mark : s.desk.place + 8320 ≤ 2 ^ 64 → Memory.wf Config.hostFill s.mem = true →
    Memory.byte Config.hostFill t.mem (s.slipAt i) = markAnswered
  area : s.desk.place + 8320 ≤ 2 ^ 64 → Memory.wf Config.hostFill s.mem = true →
    t.hostBytes (s.answerAt i) 40 = answerBytes st vs

theorem writeAnswer_wrote (i : SlipNo) (st : Status) (vs : List Byte) (s : State) : Wrote s i st vs (s.writeAnswer i st vs) := by
  have hi : i.val < 64 := i.isLt
  let area := s.hostWrite (s.answerAt i) (answerBytes st vs)
  let mark := area.setMark i markAnswered
  let map := mark.setMap i st.code
  have slip : area.slipAt i = s.slipAt i := by simp [area, slipAt]
  have mapPlace : map.desk.place = s.desk.place := by simp [map, mark, area, setMap, setMark]
  have wfArea (w : Memory.wf Config.hostFill s.mem = true) : Memory.wf Config.hostFill area.mem = true := wf_hostWrite _ _ w
  /- The map entry and the counter lie outside the slips. -/
  have later (a : Nat) (ha : s.desk.place + 128 ≤ a) :
      Memory.byte Config.hostFill (s.writeAnswer i st vs).mem a = Memory.byte Config.hostFill mark.mem a := by
    have counter : Memory.byte Config.hostFill (map.notice .answers).mem a = Memory.byte Config.hostFill map.mem a :=
      notice_outside _ map a (by rw [mapPlace]; omega)
    refine counter.trans (byte_hostWrite_outside _ _ _ _ ?_)
    simp [mapAt, mark, setMark, area]
    omega
  refine ⟨⟨(map.notice .answers).desk, ?_⟩, fun fits w => ?_, fun fits w => ?_⟩
  · have : (s.writeAnswer i st vs).desk =
        { (map.notice .answers).desk with held := bset (map.notice .answers).desk.held i .notHeld } := rfl
    rw [this, notice_desk]
    simp [map, mark, area, setMap, setMark, Desk.withNotes]
  · rw [later _ (by rw [slipAt]; omega), ← slip]
    exact byte_hostWrite_one _ _ (by rw [slip, slipAt]; omega) (wfArea w)
  · have span : (s.writeAnswer i st vs).hostBytes (s.answerAt i) 40 = area.hostBytes (s.answerAt i) 40 :=
      bytes_congr _ _ fun a h1 h2 => by
        rw [answerAt, slipAt] at h1
        exact (later a (by omega)).trans (byte_hostWrite_outside _ _ _ _ (by rw [slip, slipAt, List.length_singleton]; omega))
    rw [span]
    have := hostBytes_hostWrite (s := s) (s.answerAt i) (answerBytes st vs)
      (by rw [answerBytes_length, answerAt, slipAt]; omega) w
    rwa [answerBytes_length] at this

/-- An answer given where the slips stand as they stood. -/
theorem answer_answered (h : SlipsStand u s) (slip : Option SlipNo) (st : Status) (vs : List Byte) :
    Answered u slip st vs (s.answer slip st vs) := by
  rintro i rfl
  have drops := h.dropsAnswer i
  cases e : u.dropsAnswer i
  · have wrote := writeAnswer_wrote i st vs s
    have hs : s.answer (some i) st vs = s.writeAnswer i st vs := by simp [answer, drops, e]
    rw [hs]
    obtain ⟨n, hd⟩ := wrote.desk
    refine ⟨by simp [hd], by simp, fun _ => ⟨by simp [hd], fun fits w _ => ?_⟩⟩
    rw [DeskFits, ← h.place] at fits
    have slip : u.slipAt i = s.slipAt i := by rw [slipAt, slipAt, h.place]
    rw [answerAt, slip]
    exact ⟨wrote.mark fits (h.wf w), wrote.area fits (h.wf w)⟩
  · have hs : s.answer (some i) st vs = s.releaseSlip i := by simp [answer, drops, e]
    rw [hs]
    exact ⟨by simp [releaseSlip, setHeld], fun _ => by simp [releaseSlip, setHeld, h.map], by simp⟩

/-- What comes after an answer and is quiet leaves it. -/
theorem answered_quiet {slip : Option SlipNo} {st : Status} {vs : List Byte} (ha : Answered u slip st vs s)
    (hp : s.desk.place = u.desk.place) (hq : Quiet s t) : Answered u slip st vs t := by
  intro i hi
  obtain ⟨held, dropped, given⟩ := ha i hi
  refine ⟨by rw [hq.held]; exact held, fun e => by rw [hq.map]; exact dropped e, fun e => ?_⟩
  obtain ⟨map, mem⟩ := given e
  refine ⟨by rw [hq.map]; exact map, fun fits w hc => ?_⟩
  obtain ⟨mark, area⟩ := mem fits w hc
  have far (a : Nat) (h : u.slipAt i ≤ a) : Memory.byte Config.hostFill t.mem a = Memory.byte Config.hostFill s.mem a :=
    hq.outside a (by rw [slipAt] at h; omega)
  refine ⟨(far _ le_rfl).trans mark, Eq.trans (bytes_congr _ _ fun a h _ => far a ?_) area⟩
  rw [answerAt] at h
  omega

end State

end Sys2Proof.Machine
end

section
/-! SUPPORT. The feed unit's channels: what an operation on one channel makes of it, and that it leaves the others alone (R44 to
R50, R58). -/

namespace Sys2Proof.Machine.State

open Sys2Proof.Claims

variable {u s t : State} {c d : ChanNo} {ch : Channel}

/-! ## One channel -/

@[simp] theorem onChan_chan_self (f : Channel → Channel) : (s.onChan c f).chan c = f (s.chan c) := bget_bmod_self _ _ _

theorem onChan_chan_ne (f : Channel → Channel) (h : d ≠ c) : (s.onChan c f).chan d = s.chan d := bget_bmod_ne _ _ _ _ h.symm

theorem chan_congr (h : t.feed = s.feed) (c : ChanNo) : t.chan c = s.chan c := by rw [chan, h]; rfl

theorem otherChans_trans (h : OtherChans c s t) (g : OtherChans c t u) : OtherChans c s u :=
  fun d hd => (g d hd).trans (h d hd)

theorem otherChans_of_feed (h : t.feed = s.feed) (c : ChanNo) : OtherChans c s t := fun d _ => chan_congr h d

/-- Of the feed unit, one channel alone has changed, and is now this. -/
def Becomes (c : ChanNo) (ch : Channel) (s t : State) : Prop := t.feed = (s.onChan c fun _ => ch).feed

namespace Becomes

theorem chan (h : Becomes c ch s t) : t.chan c = ch := (chan_congr h c).trans (onChan_chan_self _)
theorem others (h : Becomes c ch s t) : OtherChans c s t := fun d hd => (chan_congr h d).trans (onChan_chan_ne _ hd)
theorem stalled (h : Becomes c ch s t) : t.feed.stalled = s.feed.stalled := by unfold Becomes at h; rw [h]; rfl
theorem bindings (h : Becomes c ch s t) : t.feed.bindings = s.feed.bindings := by unfold Becomes at h; rw [h]; rfl

theorem of_feed (h : t.feed = s.feed) : Becomes c (s.chan c) s t := by
  rw [Becomes, h]
  simp [onChan, bmod, bset, State.chan, bget]

theorem trans {dh : Channel} (h : Becomes c ch s t) (g : Becomes c dh t u) : Becomes c dh s u := by
  rw [Becomes, g]
  simp only [Becomes, onChan, onFeed_feed, bmod] at h ⊢
  rw [h]
  simp [bset]

end Becomes

theorem onChan_becomes (f : Channel → Channel) : Becomes c (f (s.chan c)) s (s.onChan c f) := rfl

/-! ## The drained mark (R48) -/

theorem writeDrained_feed (c : ChanNo) (s : State) : (s.writeDrained c).feed = s.feed := writeDrained_does (same_feed.mono rfl) c rfl

theorem raiseDrained_becomes (n : Nat) : Becomes c { s.chan c with drained := n } s (s.raiseDrained c n) :=
  writeDrained_feed c _

/-- The drained mark is written into the answer area, away from every slip's mark. -/
theorem writeDrained_stands (c : ChanNo) (s : State) : SlipsStand s (s.writeDrained c) := by
  unfold writeDrained
  split
  · rename_i i _
    refine ⟨by simp, by simp, by simp, by simp, fun j => ?_, wf_hostWrite _ _⟩
    rw [markOf, markOf, slipAt, hostWrite_desk]
    refine byte_hostWrite_outside _ _ _ _ ?_
    have := i.isLt
    have := j.isLt
    simp only [answerAt, slipAt, leBytes_length]
    omega
  · exact .refl s

theorem raiseDrained_stands (c : ChanNo) (n : Nat) (s : State) : SlipsStand s (s.raiseDrained c n) :=
  have raised : SlipsStand s (s.onChan c fun ch => { ch with drained := n }) := .of_same rfl rfl rfl
  raised.trans (writeDrained_stands c _)

/-! ## The end test (R58) -/

theorem testEnd_of_no_total (h : (s.chan c).finalTotal = none) : s.testEnd c = s := by
  simp [testEnd, h]

theorem testEnd_of_far {m : Nat} (h : (s.chan c).finalTotal = some m) (hm : (s.chan c).drained + 64 ≤ m) : s.testEnd c = s := by
  unfold testEnd
  dsimp only
  split
  · rename_i f total _ ht
    obtain rfl : m = total := Option.some.inj (h.symm.trans ht)
    rw [if_neg (by omega)]
  · rfl

/-- The last bytes of a file are drained unread (R58). -/
theorem testEnd_ends {f : File} {m : Nat} (hf : (s.chan c).file = some f) (h : (s.chan c).finalTotal = some m)
    (run : (s.chan c).state = .running) (cl : (s.chan c).closing = .none) (due : f.commitDue = false)
    (w : s.waits (.chan c) = false) (le : (s.chan c).drained ≤ m) (lt : m < (s.chan c).drained + 64) :
    Becomes c { s.chan c with state := .ending, drained := m, file := some { f with trailing := m - (s.chan c).drained } } s
      (s.testEnd c) := by
  have ends : s.testEnd c =
      let t := s.onChan c fun x => { x with state := .ending, file := some { f with trailing := m - (s.chan c).drained } }
      if m - (s.chan c).drained = 0 then t else t.raiseDrained c m := by
    unfold testEnd
    simp only [hf, h]
    rw [if_pos ⟨run, cl, due, w, lt⟩]
  rw [ends]
  dsimp only
  split
  · have : (s.chan c).drained = m := by omega
    rw [← this]
    exact onChan_becomes _
  · simpa using (onChan_becomes _).trans (raiseDrained_becomes m)

/-! ## The end of a channel that has no file -/

theorem answer_feed (slip : Option SlipNo) (st : Status) (vs : List Byte) (s : State) : (s.answer slip st vs).feed = s.feed :=
  answer_does (same_feed.mono rfl) slip st vs rfl

theorem freeTheChan_chan (c : ChanNo) (s : State) : (s.freeTheChan c).chan c = Channel.idle := onChan_chan_self _
theorem freeTheChan_binding (c : ChanNo) (s : State) : bget (s.freeTheChan c).feed.bindings c = none := bget_bset_self _ _ _
theorem freeTheChan_others (c : ChanNo) (s : State) : OtherChans c s (s.freeTheChan c) := fun _ hd => onChan_chan_ne _ hd

/-- On the engine `u` channel c has ended: it is FREE without a binding, its slip answered, and the other channels go on. -/
structure Ended (u : State) (c : ChanNo) (slip : Option SlipNo) (st : Status) (vs : List Byte) (t : State) : Prop where
  chan : t.chan c = Channel.idle
  binding : bget t.feed.bindings c = none
  others : OtherChans c u t
  stalled : t.feed.stalled = u.feed.stalled
  place : t.desk.place = u.desk.place
  answered : Answered u slip st vs t

theorem Ended.quiet {slip : Option SlipNo} {st : Status} {vs : List Byte} (h : Ended u c slip st vs s) (q : Quiet s t) :
    Ended u c slip st vs t where
  chan := (q.chan c).trans h.chan
  binding := by rw [q.feed]; exact h.binding
  others := otherChans_trans h.others (otherChans_of_feed q.feed c)
  stalled := by rw [q.feed]; exact h.stalled
  place := q.place.trans h.place
  answered := answered_quiet h.answered h.place q

/-- A channel is answered and returns to FREE. -/
theorem ended_of_answer (h : SlipsStand u s) (o : OtherChans c u s) (l : s.feed.stalled = u.feed.stalled) (slip : Option SlipNo)
    (st : Status) (vs : List Byte) : Ended u c slip st vs ((s.answer slip st vs).freeTheChan c) where
  chan := freeTheChan_chan c _
  binding := freeTheChan_binding c _
  others := otherChans_trans (otherChans_trans o (otherChans_of_feed (answer_feed slip st vs s) c)) (freeTheChan_others c _)
  stalled := (congrArg Feed.stalled (answer_feed slip st vs s)).trans l
  place := (show _ = s.desk.place from answer_does (same_place.mono rfl) slip st vs rfl).trans h.place
  answered := answer_answered h slip st vs

theorem ringFault_no_file (cl : (s.chan c).closing = .none) (f : (s.chan c).file = none) :
    s.ringFault c = s.endNoFile c .ringFault := by
  simp [ringFault, abort, cl, f]

end Sys2Proof.Machine.State
end

section
/-! SUPPORT. The taking of a header (R3 to R5, R49, R50): what its tests read, and what an accepted file starts with. -/

namespace Sys2Proof.Machine.State

open Sys2Proof.Claims

variable {u s t : State} {c d : ChanNo}

/-! ## The frame of a command of the ingest path -/

theorem Kept.refl (s : State) : Kept s s := ⟨rfl, rfl, rfl, rfl, rfl, rfl, rfl⟩

/-- The blocks that carry work leave what lies outside them alone. -/
theorem keeps_kept : Obeys Kept [.notes, .book, .desk, .buf, .exec, .feed, .pool, .recon, .eds, .coder, .cat, .dir, .lanes, .scrub,
    .jnl, .bus] := by
  refine ⟨fun h g => ⟨g.1.trans h.1, g.2.trans h.2, g.3.trans h.3, g.4.trans h.4, g.5.trans h.5, g.6.trans h.6, g.7.trans h.7⟩,
    fun p hp => ?_⟩
  cases p <;> first
    | exact absurd hp (by decide)
    | exact fun s f => ⟨rfl, rfl, rfl, rfl, rfl, rfl, rfl⟩
    | exact fun s f hf => ⟨rfl, rfl, rfl, rfl, (hf s.desk).1, (hf s.desk).2.1, rfl⟩
    | exact fun s f hf => ⟨rfl, rfl, rfl, rfl, (congrArg Desk.base (hf s.desk) :), (congrArg Desk.period (hf s.desk) :), rfl⟩
    | exact fun s f hf => ⟨rfl, rfl, rfl, rfl, rfl, rfl, rfl⟩
    | exact fun s a bs _ _ => ⟨by simp, by simp, by simp, by simp, by simp, by simp, by simp⟩
    | exact fun s a bs => ⟨by simp, by simp, by simp, by simp, by simp, by simp, by simp⟩

/-! ## The tests (R3, R4, R5) -/

theorem switchBound_congr (h : ∀ d, (t.chan d).file = (s.chan d).file) (n : Nat) : t.switchBound n = s.switchBound n := by
  unfold switchBound
  congr 1
  funext d
  have := h d
  rw [chan, chan] at this
  rw [this]

theorem headerRefusal_congr (day : t.ret = s.ret) (h : ∀ d, (t.chan d).file = (s.chan d).file) (x : Header) :
    t.headerRefusal x = s.headerRefusal x := by
  rw [headerRefusal, headerRefusal, day, switchBound_congr h]

theorem headerEntries_congr (ret : t.ret = s.ret) (recon : t.recon = s.recon) (x : Header) :
    t.headerEntries x = s.headerEntries x := by
  rw [headerEntries, headerEntries, switchCtx, switchCtx, ret, recon]

theorem headerRefusal_marker (s : State) (h : Header) (bad : h.marker ≠ 0x48 ∨ h.version ≠ 1) :
    s.headerRefusal h = some .badHeader := if_pos bad

/-- The four tests that follow the marker and the version, in their order. -/
theorem headerRefusal_of_marker (s : State) (h : Header) (m : h.marker = 0x48) (v : h.version = 1) : s.headerRefusal h =
    if 1023 < h.switch then some .badSwitch
    else if 2147483648 ≤ h.declared then some .badHeader
    else if s.ret.day + 1 < h.day then some .futureDay
    else if s.switchBound h.switch then some .streamBusy
    else none := if_neg (by simp [m, v])

theorem isRepeat_iff (r : Option (Nat × Nat)) (day file : Nat) :
    isRepeat r day file = true ↔ file ≠ 0 ∧ ∃ f0, r = some (day, f0) ∧ file ≤ f0 := by
  cases r with
  | none => simp [isRepeat]
  | some p =>
    obtain ⟨d, f⟩ := p
    simp only [isRepeat, decide_eq_true_eq, Option.some.injEq, Prod.mk.injEq]
    constructor
    · rintro ⟨h, rfl, hf⟩; exact ⟨h, f, ⟨rfl, rfl⟩, hf⟩
    · rintro ⟨h, f0, ⟨rfl, rfl⟩, hf⟩; exact ⟨h, rfl, hf⟩

/-- LATE-FILE and REPEAT-FILE of a header. -/
def lateEntry (s : State) (h : Header) : EntryBody := EntryBody.mk0 .lateFile (.switch h.switch) h.day h.file s.ret.day
def repeatEntry (h : Header) : EntryBody := EntryBody.mk0 .repeatFile (.switch h.switch) h.day h.file 0

theorem late_ne_repeat (s : State) (h : Header) : s.lateEntry h ≠ repeatEntry h := by simp [lateEntry, repeatEntry, EntryBody.mk0]

theorem headerEntries_eq (s : State) (h : Header) : s.headerEntries h =
    (if h.day + s.ret.lateWindow < s.ret.day then [s.lateEntry h] else [])
      ++ if isRepeat (s.switchCtx h.switch).register h.day h.file then [repeatEntry h] else [] := rfl

theorem late_mem_headerEntries (s : State) (h : Header) :
    s.lateEntry h ∈ s.headerEntries h ↔ h.day + s.ret.lateWindow < s.ret.day := by
  rw [headerEntries_eq]
  split <;> split <;> simp_all [late_ne_repeat]

theorem repeat_mem_headerEntries (s : State) (h : Header) : repeatEntry h ∈ s.headerEntries h ↔
    h.file ≠ 0 ∧ ∃ f0, (s.switchCtx h.switch).register = some (h.day, f0) ∧ h.file ≤ f0 := by
  rw [headerEntries_eq, ← isRepeat_iff]
  split <;> split <;> simp_all [(late_ne_repeat s h).symm]

theorem mem_headerEntries (s : State) (h : Header) : ∀ b ∈ s.headerEntries h, b = s.lateEntry h ∨ b = repeatEntry h := by
  rw [headerEntries_eq]
  split <;> split <;> simp

/-! ## An accepted header (R50) -/

/-- The file of an accepted header. -/
def startFile (s : State) (h : Header) : File :=
  { switch := h.switch, bound := true, day := h.day, work := s.workingContext h, pendingGaps := [],
    account := startAccount h, filled := 0, commitDue := false, held := none, trailing := 0 }

theorem workingContext_eq (s : State) (h : Header) : s.workingContext h =
    let x := s.switchCtx h.switch
    { x with
      state := .feeding, highDay := some (max (x.highDay.getD 0) h.day),
      register := match x.register with
        | none => if h.file = 0 then none else some (h.day, h.file)
        | some (d, f) => if h.file ≠ 0 ∧ (d < h.day ∨ (d = h.day ∧ f < h.file)) then some (h.day, h.file) else some (d, f) } := by
  have high : ∀ o : Option Nat, (match o with | some d => max d h.day | none => h.day) = max (o.getD 0) h.day := by
    intro o; cases o <;> simp
  have reg : ∀ r : Option (Nat × Nat), nextRegister r h.day h.file = match r with
        | none => if h.file = 0 then none else some (h.day, h.file)
        | some (d, f) => if h.file ≠ 0 ∧ (d < h.day ∨ (d = h.day ∧ f < h.file)) then some (h.day, h.file) else some (d, f) := by
    intro r
    unfold nextRegister
    cases r with
    | none => rfl
    | some p =>
      by_cases e : h.file = 0
      · simp [e]
      · simp [e, eq_comm]
  simp only [workingContext, reg]
  congr 2
  exact high _

/-- The engine with the file of an accepted header bound to its channel, before the header's entries are submitted. -/
def bindFile (c : ChanNo) (h : Header) (s : State) : State :=
  ((s.onChan c fun ch => { ch with file := some (s.startFile h) }).setSwitch h.switch
    { s.switchCtx h.switch with state := .feeding }).setBinding c
      (some { slip := (s.chan c).slip, file := some (h.switch, startAccount h) })

theorem acceptHeader_eq (c : ChanNo) (h : Header) (s : State) :
    s.acceptHeader c h = (s.bindFile c h).submitAndGoOn c (s.headerEntries h) := rfl

theorem bindFile_chan (c : ChanNo) (h : Header) (s : State) :
    (s.bindFile c h).chan c = { s.chan c with file := some (s.startFile h) } := onChan_chan_self _
theorem bindFile_others (c : ChanNo) (h : Header) (s : State) : OtherChans c s (s.bindFile c h) := fun _ hd => onChan_chan_ne _ hd
theorem bindFile_binding (c : ChanNo) (h : Header) (s : State) : bget (s.bindFile c h).feed.bindings c =
    some { slip := (s.chan c).slip, file := some (h.switch, startAccount h) } := bget_bset_self _ _ _

/-- What a table holds at a key just written with something else than what an unlisted key holds. -/
theorem dfind_dput_of_ne {α : Type} [DecidableEq α] {x v : α} (h : v ≠ x) (k : Nat) (t : List (Nat × α)) :
    dfind x k (dput x k v t) = v := by
  simp [dfind, dput, h]

theorem setSwitch_switchCtx (n : Nat) {x : SwitchCtx} (h : x.state ≠ .unseen) (s : State) : (s.setSwitch n x).switchCtx n = x :=
  dfind_dput_of_ne (fun e => h (by rw [e]; rfl)) _ _

theorem bindFile_switch (c : ChanNo) (h : Header) (s : State) : ((s.bindFile c h).switchCtx h.switch).state = .feeding := by
  have : (s.bindFile c h).switchCtx h.switch = { s.switchCtx h.switch with state := .feeding } :=
    setSwitch_switchCtx h.switch (x := { s.switchCtx h.switch with state := .feeding }) (fun e => by cases e) _
  rw [this]

/-! ## Going on (R50) -/

theorem chanOn_of_header (cl : (s.chan c).closing = .none) (st : (s.chan c).state = .header) :
    s.chanOn c = (s.onChan c fun ch => { ch with state := .running }).testEnd c := by
  unfold chanOn
  simp [cl, st]

/-- The end test changes one channel, of its file no more than the trailing fragment; and nothing where no final total is held. -/
theorem testEnd_becomes (c : ChanNo) (s : State) : ∃ ch, Becomes c ch s (s.testEnd c) ∧
    (∃ n, ch.file = (s.chan c).file.map fun f => { f with trailing := n }) ∧
    ((s.chan c).finalTotal = none → ch = s.chan c) := by
  have stays : ∃ n, (s.chan c).file = (s.chan c).file.map fun f => { f with trailing := n } := by
    cases (s.chan c).file with
    | none => exact ⟨0, rfl⟩
    | some f => exact ⟨f.trailing, rfl⟩
  unfold testEnd
  dsimp only
  split
  · rename_i f total hf ht
    split
    · split
      · exact ⟨_, onChan_becomes _, ⟨_, by rw [hf]; rfl⟩, by rw [ht]; simp⟩
      · refine ⟨_, (onChan_becomes _).trans (raiseDrained_becomes _), ⟨total - (s.chan c).drained, ?_⟩, by rw [ht]; simp⟩
        rw [onChan_chan_self, hf]
        rfl
    · exact ⟨_, .of_feed rfl, stays, fun _ => rfl⟩
  · exact ⟨_, .of_feed rfl, stays, fun _ => rfl⟩

end Sys2Proof.Machine.State
end

section
/-! SUPPORT. The end of a file (R59, R60): the closing entries, the answer, and the pages and the switch let go. -/

namespace Sys2Proof.Machine.State

open Sys2Proof.Claims

variable {u s t : State} {c d : ChanNo}

/-! ## The closing entries -/

/-- Between two states entries have been submitted, and bindings have been cleared at most. -/
structure Posts (s t : State) : Prop where
  engine : t.engine = s.engine
  chans : ∀ d, t.chan d = s.chan d
  stalled : t.feed.stalled = s.feed.stalled
  stands : SlipsStand s t
  submitted : ∀ b, Submitted b s → Submitted b t

namespace Posts

theorem of_quiet (h : Quiet s t) : Posts s t :=
  ⟨h.engine, h.chan, by rw [h.feed], .of_quiet h, fun _ => h.submitted⟩

theorem setBinding (c : ChanNo) (b : Option Binding) (s : State) : Posts s (s.setBinding c b) :=
  ⟨rfl, fun _ => rfl, rfl, .of_same rfl rfl rfl, fun _ => id⟩

theorem trans (h : Posts s t) (g : Posts t u) : Posts s u :=
  ⟨g.engine.trans h.engine, fun d => (g.chans d).trans (h.chans d), g.stalled.trans h.stalled, h.stands.trans g.stands,
    fun b hb => g.submitted b (h.submitted b hb)⟩

end Posts

/-- The submission of a closing pair. -/
def pairSub (c : ChanNo) (pair later : List EntryBody) : Submission :=
  { entries := pair, who := .chan c, acts := .clearBinding c :: if later.isEmpty then [.chanDone c] else [] }

/-- The closing entries up to the pair, whose taking clears the binding; the flag says that the pair has been taken. -/
def submitPair (c : ChanNo) (before pair later : List EntryBody) (s : State) : State × Bool :=
  let r := (submitAll (.chan c) [] before s).1.submit (pairSub c pair later)
  (if r.2 then r.1.setBinding c none else r.1, r.2)

section pair
variable (c : ChanNo) (before pair later : List EntryBody) (s : State)

theorem submitPair_from : Posts ((submitAll (.chan c) [] before s).1.submit (pairSub c pair later)).1
    (submitPair c before pair later s).1 := by
  unfold submitPair
  dsimp only
  split
  · exact .setBinding c none _
  · exact .of_quiet (.refl _)

theorem submitPair_posts : Posts s (submitPair c before pair later s).1 :=
  (Posts.of_quiet ((submitAll_quiet _ _ _ _).trans (submit_quiet _ _))).trans (submitPair_from c before pair later s)

theorem submitPair_jnl : (submitPair c before pair later s).1.jnl =
    ((submitAll (.chan c) [] before s).1.submit (pairSub c pair later)).1.jnl := by
  unfold submitPair
  dsimp only
  split <;> rfl

variable {s}

theorem submitPair_submitted (ready : s.engine = .ready) : ∀ b ∈ before ++ pair, Submitted b (submitPair c before pair later s).1 := by
  have readyX : (submitAll (.chan c) [] before s).1.engine = .ready := (submitAll_quiet _ _ _ s).engine.trans ready
  intro b hb
  refine (submitPair_from c before pair later s).submitted b ?_
  obtain hb | hb := List.mem_append.mp hb
  · exact (submit_quiet _ _).submitted (submitAll_submitted ready _ _ before b hb)
  · exact submit_submitted readyX (pairSub c pair later) b hb

theorem submitPair_fits (hp : pair ≠ []) (ready : s.engine = .ready)
    (f : EntriesFit (before.length + (pair.length + later.length)) s) :
    (submitPair c before pair later s).2 = true ∧ EntriesFit later.length (submitPair c before pair later s).1 := by
  have readyX : (submitAll (.chan c) [] before s).1.engine = .ready := (submitAll_quiet _ _ _ s).engine.trans ready
  have fits : EntriesFit (pair.length + later.length) (submitAll (.chan c) [] before s).1 :=
    entriesFit_of_took (submitAll_of_fits ready (.chan c) [] before (entriesFit_mono f (by omega))).2 f
  obtain ⟨flag, took⟩ := submit_of_fits readyX (pairSub c pair later)
    ((takesAtOnce_iff_fits _ hp).mpr (entriesFit_mono fits (by simp [pairSub])))
  exact ⟨flag, (entriesFit_congr (submitPair_jnl c before pair later s)).mpr (entriesFit_of_took took fits)⟩

end pair

/-- The closing entries end the channel with the pair where none follow it, and else with the last of those. -/
theorem submitClosing_eq (c : ChanNo) (before pair later : List EntryBody) (s : State) :
    let z := submitPair c before pair later s
    let r := submitAll (.chan c) [.chanDone c] later z.1
    submitClosing c before pair later s = if later = [] then (if z.2 then z.1.chanDone c else z.1)
      else if r.2 then r.1.chanDone c else r.1 := by
  cases later <;> rfl

/-- The closing entries: all are submitted; the channel is done at once or left to its line, and it is done at once where all of them
fit (R59 step 4, R60 step 5). -/
theorem submitClosing_reaches (c : ChanNo) (before pair later : List EntryBody) (hp : pair ≠ []) (s : State) : ∃ y, Posts s y ∧
    (s.engine = .ready → ∀ b ∈ before ++ pair ++ later, Submitted b y) ∧
    (submitClosing c before pair later s = y ∨ submitClosing c before pair later s = y.chanDone c) ∧
    (s.engine = .ready → EntriesFit (before.length + (pair.length + later.length)) s →
      submitClosing c before pair later s = y.chanDone c) := by
  have posts := submitPair_posts c before pair later s
  have sent := submitPair_submitted c before pair later (s := s)
  have fits := submitPair_fits c before pair later (s := s) hp
  have eq := submitClosing_eq c before pair later s
  dsimp only at eq
  generalize submitPair c before pair later s = z at posts sent fits eq
  cases later with
  | nil =>
    rw [eq, if_pos rfl]
    refine ⟨z.1, posts, by simpa using sent, ?_, fun ready f => if_pos (fits ready f).1⟩
    split
    · exact .inr rfl
    · exact .inl rfl
  | cons e es =>
    rw [eq, if_neg (by simp)]
    have q := submitAll_quiet (.chan c) [.chanDone c] (e :: es) z.1
    refine ⟨_, posts.trans (.of_quiet q), fun ready b hb => ?_, ?_, fun ready f => if_pos ?_⟩
    · obtain hb | hb := List.mem_append.mp hb
      · exact q.submitted (sent ready b hb)
      · exact submitAll_submitted (posts.engine.trans ready) _ _ _ b hb
    · split
      · exact .inr rfl
      · exact .inl rfl
    · exact (submitAll_of_fits (posts.engine.trans ready) _ _ _ (fits ready f).2).1

theorem chanDone_others (c : ChanNo) (s : State) : OtherChans c s (s.chanDone c) ∧ (s.chanDone c).feed.stalled = s.feed.stalled := by
  have answered : ∀ t : State, t.feed = s.feed → OtherChans c s (t.freeTheChan c) ∧ (t.freeTheChan c).feed.stalled = s.feed.stalled :=
    fun t h => ⟨otherChans_trans (otherChans_of_feed h c) (freeTheChan_others c t), by rw [← h]; rfl⟩
  unfold chanDone
  dsimp only
  split
  · exact answered _ (answer_feed _ _ _ s)
  · exact answered _ (noAnswer_does (same_feed.mono rfl) _ rfl)

theorem chanDone_jnl (c : ChanNo) (s : State) : (s.chanDone c).jnl = s.jnl := chanDone_does (same_jnl.mono rfl) c rfl

theorem chanDone_ended {st : Status} {vs : List Byte} (h : SlipsStand u s) (o : OtherChans c u s)
    (l : s.feed.stalled = u.feed.stalled) (cl : (s.chan c).closing = .answer st vs) :
    Ended u c (s.chan c).slip st vs (s.chanDone c) := by
  have : s.chanDone c = (s.answer (s.chan c).slip st vs).freeTheChan c := by simp [chanDone, cl]
  rw [this]
  exact ended_of_answer h o l _ _ _

/-- Whatever the journal takes, the closing entries of a channel leave the others alone. -/
theorem submitClosing_others (c : ChanNo) (before pair later : List EntryBody) (hp : pair ≠ []) (s : State) :
    OtherChans c s (submitClosing c before pair later s) ∧ (submitClosing c before pair later s).feed.stalled = s.feed.stalled := by
  obtain ⟨y, posts, _, cases, _⟩ := submitClosing_reaches c before pair later hp s
  have oy : OtherChans c s y := fun d _ => posts.chans d
  obtain e | e := cases
  · rw [e]; exact ⟨oy, posts.stalled⟩
  · rw [e]
    obtain ⟨o, l⟩ := chanDone_others c y
    exact ⟨otherChans_trans oy o, l.trans posts.stalled⟩

/-- A READY engine submits every closing entry. -/
theorem submitClosing_submitted (c : ChanNo) (before pair later : List EntryBody) (hp : pair ≠ []) (ready : s.engine = .ready) :
    ∀ b ∈ before ++ pair ++ later, Submitted b (submitClosing c before pair later s) := by
  obtain ⟨y, _, sent, cases, _⟩ := submitClosing_reaches c before pair later hp s
  intro b hb
  have := sent ready b hb
  obtain e | e := cases
  · rw [e]; exact this
  · rw [e]
    unfold Submitted
    rw [chanDone_jnl]
    exact this

/-- Closing entries that fit end the channel with its answer. -/
theorem submitClosing_ended {st : Status} {vs : List Byte} (before pair later : List EntryBody) (hp : pair ≠ [])
    (ready : s.engine = .ready) (f : EntriesFit (before.length + (pair.length + later.length)) s) (h : SlipsStand u s)
    (o : OtherChans c u s) (l : s.feed.stalled = u.feed.stalled) (cl : (s.chan c).closing = .answer st vs) :
    Ended u c (s.chan c).slip st vs (submitClosing c before pair later s) := by
  obtain ⟨y, posts, _, _, done⟩ := submitClosing_reaches c before pair later hp s
  rw [done ready f, ← posts.chans c]
  exact chanDone_ended (h.trans posts.stands) (otherChans_trans o fun d _ => posts.chans d) (posts.stalled.trans l)
    (by rw [posts.chans]; exact cl)

/-! ## The rest of R59 -/

/-- A channel in ENDING with its pages and its switch let go, before its closing entries (R59 steps 2 and 3). -/
def letGo (c : ChanNo) (f : File) (s : State) : State :=
  ((s.letGoPages c).onChan c fun ch =>
    { ch with file := ch.file.map fun x => { x with bound := false },
              closing := .answer .done (ingestValues ch.drained f.account) }).releaseSwitch f.switch

def laterEntries (f : File) : List EntryBody :=
  restartEntries f.switch f.account.restarts f.work.expected ++ balanceEntries f.switch f.day f.account

theorem closeOn_eq {f : File} (hf : (s.chan c).file = some f) (l : s.feed.stalled = []) :
    s.closeOn c = ((s.letGo c f).submitClosing c (trailingEntries f.switch f.trailing)
      (closedPair f.switch f.account f.filled) (laterEntries f)).runCoder := by
  unfold closeOn
  simp only [hf]
  rw [resumeStalled_of_noneResumes (s := s.letGoPages c) (.inl l)]
  rfl

theorem releaseSwitch_feed (n : Nat) (s : State) : (s.releaseSwitch n).feed = s.feed := releaseSwitch_does (same_feed.mono rfl) n rfl

theorem letGo_becomes (c : ChanNo) (f : File) (s : State) : Becomes c
    { s.chan c with file := (s.chan c).file.map fun x => { x with bound := false },
                    closing := .answer .done (ingestValues (s.chan c).drained f.account) } s (s.letGo c f) :=
  releaseSwitch_feed f.switch _

theorem closedPair_ne_nil (n : Nat) (a : Account) (k : Nat) : closedPair n a k ≠ [] := by simp [closedPair]

theorem closeOn_others (l : s.feed.stalled = []) : OtherChans c s (s.closeOn c) ∧ (s.closeOn c).feed.stalled = [] := by
  cases hf : (s.chan c).file with
  | none =>
    have : s.closeOn c = s := by unfold closeOn; simp [hf]
    rw [this]
    exact ⟨fun _ _ => rfl, l⟩
  | some f =>
    obtain ⟨o, st⟩ := submitClosing_others c (trailingEntries f.switch f.trailing) (closedPair f.switch f.account f.filled)
      (laterEntries f) (closedPair_ne_nil _ _ _) (s.letGo c f)
    have b := letGo_becomes c f s
    have q := runCoder_quiet ((s.letGo c f).submitClosing c (trailingEntries f.switch f.trailing)
      (closedPair f.switch f.account f.filled) (laterEntries f))
    rw [closeOn_eq hf l]
    exact ⟨otherChans_trans (otherChans_trans b.others o) (otherChans_of_feed q.feed c),
      by rw [q.feed]; exact st.trans (b.stalled.trans l)⟩

/-- A channel that goes on leaves the others alone, where none waits for a page. -/
theorem chanOn_others (l : s.feed.stalled = []) : OtherChans c s (s.chanOn c) ∧ (s.chanOn c).feed.stalled = [] := by
  have tested : ∀ t : State, OtherChans c s t → t.feed.stalled = [] →
      OtherChans c s (t.testEnd c) ∧ (t.testEnd c).feed.stalled = [] := fun t o l => by
    obtain ⟨_, b, _⟩ := testEnd_becomes c t
    exact ⟨otherChans_trans o b.others, b.stalled.trans l⟩
  unfold chanOn
  split
  · exact closeOn_others l
  · exact tested _ (onChan_becomes _).others l
  · exact tested s (fun _ _ => rfl) l
  · exact ⟨fun _ _ => rfl, l⟩

theorem submitAndGoOn_others (es : List EntryBody) (l : s.feed.stalled = []) :
    OtherChans c s (s.submitAndGoOn c es) ∧ (s.submitAndGoOn c es).feed.stalled = [] := by
  have q := submitAll_quiet (.chan c) [.chanOn c] es s
  have o := otherChans_of_feed q.feed c
  unfold submitAndGoOn
  dsimp only
  split
  · obtain ⟨o', l'⟩ := chanOn_others (c := c) (by rw [q.feed]; exact l)
    exact ⟨otherChans_trans o o', l'⟩
  · exact ⟨o, by rw [q.feed]; exact l⟩

end Sys2Proof.Machine.State
end

section
/-! SUPPORT. HEADER_TAKE: the end of a refused header and the start of an accepted file (R49, R50), for O21. -/

namespace Sys2Proof.Machine.State

open Sys2Proof.Claims

variable {u s t : State} {c d : ChanNo}

theorem headerReady_iff : s.headerReady c = true ↔
    (s.chan c).state = .header ∧ (s.chan c).file = none ∧ 64 ≤ (s.chan c).filledSeen := by
  simp [headerReady, and_assoc]

/-- The header that stands in the ring. -/
def headerIn (s : State) (c : ChanNo) : Header := readHeader (s.hostBytes (s.ringAt c 0) 64)

theorem takeHeader_unread (r : s.headerReady c = true) (f : s.readFails (s.ringAt c 0) 64 = true) :
    s.takeHeader c = s.ringFault c := by
  simp [takeHeader, r, f]

theorem raiseDrained_file (n : Nat) (d : ChanNo) : ((s.raiseDrained c n).chan d).file = (s.chan d).file := by
  by_cases e : d = c
  · rw [e, (raiseDrained_becomes n).chan]
  · rw [(raiseDrained_becomes n).others d e]

theorem raiseDrained_ret (n : Nat) : (s.raiseDrained c n).ret = s.ret := raiseDrained_does (same_ret.mono rfl) c n rfl
theorem raiseDrained_recon (n : Nat) : (s.raiseDrained c n).recon = s.recon := raiseDrained_does (same_recon.mono rfl) c n rfl
theorem raiseDrained_pool (n : Nat) : (s.raiseDrained c n).pool = s.pool := raiseDrained_does (same_pool.mono rfl) c n rfl
theorem raiseDrained_jnl (n : Nat) : (s.raiseDrained c n).jnl = s.jnl := raiseDrained_does (same_jnl.mono rfl) c n rfl
theorem raiseDrained_engine (n : Nat) : (s.raiseDrained c n).engine = s.engine := raiseDrained_does (same_engine.mono rfl) c n rfl

/-- A header that is read is judged on the engine as it was, and the drained mark rises to 64. -/
theorem raiseDrained_refusal (h : Header) : (s.raiseDrained c 64).headerRefusal h = s.headerRefusal h :=
  headerRefusal_congr (raiseDrained_ret 64) (raiseDrained_file 64) h

theorem takeHeader_refused (r : s.headerReady c = true) (f : s.readFails (s.ringAt c 0) 64 = false) {st : Status}
    (h : s.headerRefusal (s.headerIn c) = some st) : s.takeHeader c = (s.raiseDrained c 64).endNoFile c st := by
  rw [← raiseDrained_refusal (c := c), headerIn] at h
  simp [takeHeader, r, f, h]

theorem takeHeader_accepted (r : s.headerReady c = true) (f : s.readFails (s.ringAt c 0) 64 = false)
    (h : s.headerRefusal (s.headerIn c) = none) : s.takeHeader c = (s.raiseDrained c 64).acceptHeader c (s.headerIn c) := by
  rw [headerIn] at h ⊢
  rw [← raiseDrained_refusal (c := c)] at h
  simp [takeHeader, r, f, h]

/-- What follows the taking of a header is quiet where no channel waits for a page. -/
theorem ended_settle {slip : Option SlipNo} {st : Status} {vs : List Byte} (h : Ended u c slip st vs s) (l : u.feed.stalled = []) :
    Ended u c slip st vs s.settle := h.quiet (settle_quiet (.inl (h.stalled.trans l)))

theorem endNoFile_ended (h : SlipsStand u s) (o : OtherChans c u s) (l : s.feed.stalled = u.feed.stalled) (st : Status) :
    Ended u c (s.chan c).slip st (leBytes 8 (s.chan c).drained) (s.endNoFile c st) := ended_of_answer h o l _ _ _

theorem endNoFile_recon (c : ChanNo) (st : Status) (s : State) : (s.endNoFile c st).recon = s.recon :=
  endNoFile_does (same_recon.mono rfl) c st rfl

theorem settle_recon (s : State) : s.settle.recon = s.recon := settle_does (same_recon.mono rfl) rfl

/-! ## An accepted header -/

section accepted
variable {h : Header}

/-- The channel that reads an accepted file. -/
theorem bindFile_quiet_chan (c : ChanNo) (h : Header) (q : Quiet (s.bindFile c h) t) :
    t.chan c = { s.chan c with file := some (s.startFile h) } := (q.chan c).trans (bindFile_chan c h s)

/-- The binding, the switch table and the gap table of an accepted file, whatever the journal takes. -/
theorem acceptHeader_bound (cl : (s.chan c).closing = .none) (st : (s.chan c).state = .header) :
    (s.acceptHeader c h).recon = (s.bindFile c h).recon ∧
      (s.acceptHeader c h).feed.bindings = (s.bindFile c h).feed.bindings := by
  have q := submitAll_quiet (.chan c) [.chanOn c] (s.headerEntries h) (s.bindFile c h)
  have ch := bindFile_quiet_chan c h q
  rw [acceptHeader_eq, submitAndGoOn]
  generalize submitAll (.chan c) [.chanOn c] (s.headerEntries h) (s.bindFile c h) = r at q ch
  split
  · rw [chanOn_of_header (by rw [ch]; exact cl) (by rw [ch]; exact st)]
    obtain ⟨_, hb, _⟩ := testEnd_becomes c (r.1.onChan c fun ch => { ch with state := .running })
    exact ⟨(testEnd_does (same_recon.mono rfl) c rfl).trans q.recon, hb.bindings.trans (by rw [← q.feed]; rfl)⟩
  · exact ⟨q.recon, by rw [q.feed]⟩

theorem acceptHeader_others (l : s.feed.stalled = []) :
    OtherChans c s (s.acceptHeader c h) ∧ (s.acceptHeader c h).feed.stalled = [] := by
  obtain ⟨o, l'⟩ := submitAndGoOn_others (c := c) (s := s.bindFile c h) (s.headerEntries h) l
  exact ⟨otherChans_trans (bindFile_others c h s) o, l'⟩

/-- An accepted header whose entries are all taken: the channel is RUNNING, and makes the end test (R50, R58). -/
theorem acceptHeader_on (cl : (s.chan c).closing = .none) (st : (s.chan c).state = .header)
    (all : s.headerEntries h = [] ∨ s.engine = .ready ∧ EntriesFit (s.headerEntries h).length s) :
    ∃ x : State, x.chan c = { s.chan c with state := .running, file := some (s.startFile h) } ∧
      Took (s.headerEntries h) s.jnl x.jnl ∧ s.acceptHeader c h = x.testEnd c := by
  have q := submitAll_quiet (.chan c) [.chanOn c] (s.headerEntries h) (s.bindFile c h)
  have ch := bindFile_quiet_chan c h q
  obtain ⟨flag, took⟩ : (submitAll (.chan c) [.chanOn c] (s.headerEntries h) (s.bindFile c h)).2 = true ∧
      Took (s.headerEntries h) s.jnl (submitAll (.chan c) [.chanOn c] (s.headerEntries h) (s.bindFile c h)).1.jnl := by
    obtain e | ⟨ready, fits⟩ := all
    · rw [e]
      exact ⟨rfl, took_nil s.jnl⟩
    · exact submitAll_of_fits (s := s.bindFile c h) ready _ _ _ fits
  refine ⟨(submitAll (.chan c) [.chanOn c] (s.headerEntries h) (s.bindFile c h)).1.onChan c fun ch => { ch with state := .running },
    ?_, took, ?_⟩
  · rw [onChan_chan_self, ch]
  · rw [acceptHeader_eq, submitAndGoOn, if_pos flag, chanOn_of_header (by rw [ch]; exact cl) (by rw [ch]; exact st)]

/-- And where a READY engine's journal does not take them all it waits, in HEADER with its file. -/
theorem acceptHeader_waits (ready : s.engine = .ready) (ne : s.headerEntries h ≠ [])
    (full : ¬ EntriesFit (s.headerEntries h).length s) : Quiet (s.bindFile c h) (s.acceptHeader c h) ∧
      (s.acceptHeader c h).waits (.chan c) = true ∧ ∀ b ∈ s.headerEntries h, Submitted b (s.acceptHeader c h) := by
  have flag : (submitAll (.chan c) [.chanOn c] (s.headerEntries h) (s.bindFile c h)).2 = false := by
    by_contra e
    exact full (fits_of_submitAll (s := s.bindFile c h) ready _ _ _ ne (by simpa using e))
  have eq : s.acceptHeader c h = (submitAll (.chan c) [.chanOn c] (s.headerEntries h) (s.bindFile c h)).1 := by
    rw [acceptHeader_eq, submitAndGoOn, if_neg (by rw [flag]; decide)]
  rw [eq]
  exact ⟨submitAll_quiet _ _ _ _, submitAll_waits _ _ _ flag, submitAll_submitted (s := s.bindFile c h) ready _ _ _⟩

end accepted

end Sys2Proof.Machine.State
end

section
namespace Sys2Proof.Claims

open Sys2Proof.Machine Sys2Proof.Machine.State

/-- HEADER_TAKE of an engine that acts is the taking of the header, and what follows of itself. -/
theorem exec_headerTake (bus : Bus) (c : ChanNo) {s : State} (a : Acts s) :
    Machine.exec (.headerTake c bus) s = .next ((at_ bus s).takeHeader c).settle :=
  congrArg Host.Outcome.next (s.commandedOn_on bus _ a.1 a.2)

/-- HEADER_TAKE touches neither the retention unit, nor the editions, nor what lies outside the blocks that carry work. -/
theorem headerTake_frame (bus : Bus) (c : ChanNo) (s : State) :
    let t := ((at_ bus s).takeHeader c).settle
    t.ret = s.ret ∧ t.eds = s.eds ∧ Kept s t :=
  ⟨settle_does (same_ret.mono rfl) (takeHeader_does (same_ret.mono rfl) c rfl),
   settle_does (same_eds.mono rfl) (takeHeader_does (same_eds.mono rfl) c rfl),
   settle_does (keeps_kept.mono rfl) (takeHeader_does (keeps_kept.mono rfl) c (onBus_does (keeps_kept.mono rfl) bus (Kept.refl s)))⟩

/-- The tests of a header in their order, and the entries it calls for (R3, R4, R5). -/
theorem header_tests (h : Header) (s : State) :
    (h.marker ≠ 0x48 ∨ h.version ≠ 1 → s.headerRefusal h = some .badHeader) ∧
    (h.marker = 0x48 → h.version = 1 →
      (1023 < h.switch → s.headerRefusal h = some .badSwitch) ∧
      (h.switch ≤ 1023 → 2147483648 ≤ h.declared → s.headerRefusal h = some .badHeader) ∧
      (h.switch ≤ 1023 → h.declared < 2147483648 → s.ret.day + 1 < h.day → s.headerRefusal h = some .futureDay) ∧
      (h.switch ≤ 1023 → h.declared < 2147483648 → h.day ≤ s.ret.day + 1 →
        s.headerRefusal h = if s.switchBound h.switch then some .streamBusy else none)) := by
  refine ⟨headerRefusal_marker s h, fun m v => ?_⟩
  rw [headerRefusal_of_marker s h m v]
  refine ⟨fun a => if_pos a, fun a b => ?_, fun a b d => ?_, fun a b d => ?_⟩
  · rw [if_neg (by omega), if_pos b]
  · rw [if_neg (by omega), if_neg (by omega), if_pos d]
  · rw [if_neg (by omega), if_neg (by omega), if_neg (by omega)]

variable {u : State} {c : ChanNo}

/-- A header that cannot be read ends its channel with RING-FAULT, the drained mark as it was (log 29). -/
theorem header_unread (r : u.headerReady c = true) (l : u.feed.stalled = []) (cl : (u.chan c).closing = .none)
    (f : u.readFails (u.ringAt c 0) 64 = true) :
    Ended u c (u.chan c).slip .ringFault (leBytes 8 (u.chan c).drained) (u.takeHeader c).settle ∧
      (u.takeHeader c).settle.recon = u.recon := by
  obtain ⟨_, file, _⟩ := headerReady_iff.mp r
  rw [takeHeader_unread r f, ringFault_no_file cl file]
  exact ⟨ended_settle (endNoFile_ended (.refl _) (fun _ _ => rfl) rfl _) l, (settle_recon _).trans (endNoFile_recon c _ _)⟩

/-- A refused header ends its channel, the drained mark at 64 (R49). -/
theorem header_refused (r : u.headerReady c = true) (l : u.feed.stalled = []) (f : u.readFails (u.ringAt c 0) 64 = false)
    {st : Status} (h : u.headerRefusal (u.headerIn c) = some st) :
    Ended u c (u.chan c).slip st (leBytes 8 64) (u.takeHeader c).settle ∧ (u.takeHeader c).settle.recon = u.recon := by
  have raised := raiseDrained_becomes (c := c) (s := u) 64
  have ended := endNoFile_ended (raiseDrained_stands c 64 u) raised.others raised.stalled st
  rw [raised.chan] at ended
  rw [takeHeader_refused r f h]
  exact ⟨ended_settle ended l, (settle_recon _).trans ((endNoFile_recon c _ _).trans (raiseDrained_recon 64))⟩

/-- An accepted header binds the channel to its switch, which is FEEDING (R50, R67). -/
theorem header_accepted (r : u.headerReady c = true) (l : u.feed.stalled = []) (cl : (u.chan c).closing = .none)
    (f : u.readFails (u.ringAt c 0) 64 = false) (h : u.headerRefusal (u.headerIn c) = none) :
    let t := (u.takeHeader c).settle
    (t.switchCtx (u.headerIn c).switch).state = .feeding ∧ t.recon.gaps = u.recon.gaps ∧
      bget t.feed.bindings c =
        some { slip := (u.chan c).slip, file := some ((u.headerIn c).switch, State.startAccount (u.headerIn c)) } := by
  obtain ⟨st, _, _⟩ := headerReady_iff.mp r
  have raised := raiseDrained_becomes (c := c) (s := u) 64
  have ch := raised.chan
  obtain ⟨recon, bindings⟩ := acceptHeader_bound (h := u.headerIn c) (by rw [ch]; exact cl) (by rw [ch]; exact st)
  obtain ⟨_, stalled⟩ := acceptHeader_others (c := c) (h := u.headerIn c) (raised.stalled.trans l)
  have q := settle_quiet (.inl stalled)
  rw [takeHeader_accepted r f h]
  refine ⟨?_, ?_, ?_⟩
  · rw [q.switchCtx, switchCtx, recon]
    exact bindFile_switch c _ _
  · have gaps : (u.raiseDrained c 64).recon.gaps = u.recon.gaps := by rw [raiseDrained_recon]
    rw [q.recon, recon]
    exact gaps
  · rw [q.feed, bindings, bindFile_binding, ch]

/-- Whatever becomes of the header, the other channels go on. -/
theorem header_others (r : u.headerReady c = true) (l : u.feed.stalled = []) (f : u.readFails (u.ringAt c 0) 64 = false) :
    OtherChans c u (u.takeHeader c).settle := by
  cases h : u.headerRefusal (u.headerIn c) with
  | some st => exact (header_refused r l f h).1.others
  | none =>
    have raised := raiseDrained_becomes (c := c) (s := u) 64
    obtain ⟨others, stalled⟩ := acceptHeader_others (c := c) (h := u.headerIn c) (raised.stalled.trans l)
    rw [takeHeader_accepted r f h]
    exact otherChans_trans raised.others (otherChans_trans others (otherChans_of_feed (settle_quiet (.inl stalled)).feed c))

theorem raiseDrained_entries (h : Header) : (u.raiseDrained c 64).headerEntries h = u.headerEntries h :=
  headerEntries_congr (raiseDrained_ret 64) (raiseDrained_recon 64) h

/-- The file of an accepted header, with its working context written out. -/
theorem startFile_eq (u : State) (h : Header) : (u.raiseDrained c 64).startFile h =
    let x := u.switchCtx h.switch
    { switch := h.switch, bound := true, day := h.day, pendingGaps := [], account := State.startAccount h, filled := 0,
      commitDue := false, held := none, trailing := 0,
      work := { x with
        state := .feeding, highDay := some (max (x.highDay.getD 0) h.day),
        register := match x.register with
          | none => if h.file = 0 then none else some (h.day, h.file)
          | some (d, f) => if h.file ≠ 0 ∧ (d < h.day ∨ (d = h.day ∧ f < h.file)) then some (h.day, h.file) else some (d, f) } } := by
  have x : (u.raiseDrained c 64).switchCtx h.switch = u.switchCtx h.switch := by rw [switchCtx, raiseDrained_recon]; rfl
  rw [startFile, workingContext_eq, x] <;> rfl

/-- Where all the entries of an accepted header are taken at once, the channel goes on from HEADER (R50, R58). -/
theorem header_goes_on (r : u.headerReady c = true) (l : u.feed.stalled = []) (cl : (u.chan c).closing = .none)
    (f : u.readFails (u.ringAt c 0) 64 = false) (h : u.headerRefusal (u.headerIn c) = none)
    (all : u.headerEntries (u.headerIn c) = [] ∨ u.engine = .ready ∧ EntriesFit (u.headerEntries (u.headerIn c)).length u) :
    let t := (u.takeHeader c).settle
    let file := (u.raiseDrained c 64).startFile (u.headerIn c)
    (∀ b ∈ u.headerEntries (u.headerIn c), ∃ e ∈ t.jnl.store, e.body = b) ∧
    (∀ m, (u.chan c).finalTotal = some m → 64 ≤ m → m < 128 → u.waits (.chan c) = false →
      (t.chan c).state = .ending ∧ (t.chan c).drained = m ∧ (t.chan c).file = some { file with trailing := m - 64 }) ∧
    (((u.chan c).finalTotal = none ∨ ∃ m, (u.chan c).finalTotal = some m ∧ 128 ≤ m) →
      (t.chan c).state = .running ∧ (t.chan c).drained = 64 ∧ (t.chan c).file = some file) := by
  obtain ⟨st, _, _⟩ := headerReady_iff.mp r
  have raised := raiseDrained_becomes (c := c) (s := u) 64
  have stalled := (acceptHeader_others (c := c) (h := u.headerIn c) (raised.stalled.trans l)).2
  have q := settle_quiet (.inl stalled)
  obtain ⟨x, ch, took, e⟩ := acceptHeader_on (s := u.raiseDrained c 64) (c := c) (h := u.headerIn c)
    (by rw [raised.chan]; exact cl) (by rw [raised.chan]; exact st)
    (by rw [raiseDrained_entries, raiseDrained_engine, entriesFit_congr (raiseDrained_jnl 64)]; exact all)
  rw [raised.chan] at ch
  rw [raiseDrained_entries, raiseDrained_jnl] at took
  rw [takeHeader_accepted r f h]
  rw [e] at q ⊢
  refine ⟨fun b hb => ?_, fun m hm h1 h2 hw => ?_, fun hm => ?_⟩
  · obtain ⟨e, he, hb⟩ := stored_of_took took b hb
    have same : (x.testEnd c).jnl = x.jnl := testEnd_does (same_jnl.mono rfl) c rfl
    exact ⟨e, q.store.subset (by rw [same]; exact he), hb⟩
  · have line : x.jnl.line = u.jnl.line := by
      obtain ⟨_, _, _, _, hj⟩ := took
      rw [hj]
    have ends := testEnd_ends (s := x) (c := c) (m := m) (by rw [ch]) (by rw [ch]; exact hm) (by rw [ch])
      (by rw [ch]; exact cl) rfl (by rw [waits, line]; exact hw) (by rw [ch]; exact h1) (by rw [ch]; exact h2)
    rw [q.chan, ends.chan, ch]
    exact ⟨rfl, rfl, rfl⟩
  · have stays : x.testEnd c = x := by
      obtain hm | ⟨m, hm, far⟩ := hm
      · exact testEnd_of_no_total (by rw [ch]; exact hm)
      · exact testEnd_of_far (m := m) (by rw [ch]; exact hm) (by rw [ch]; exact far)
    rw [q.chan, stays, ch]
    exact ⟨rfl, rfl, rfl⟩

/-- Where a READY engine's journal does not take them all at once, the channel waits in HEADER with its file (R50, R175). -/
theorem header_waits (r : u.headerReady c = true) (l : u.feed.stalled = []) (f : u.readFails (u.ringAt c 0) 64 = false)
    (h : u.headerRefusal (u.headerIn c) = none) (ready : u.engine = .ready) (ne : u.headerEntries (u.headerIn c) ≠ [])
    (full : ¬ EntriesFit (u.headerEntries (u.headerIn c)).length u) :
    let t := (u.takeHeader c).settle
    (t.chan c).state = .header ∧ (t.chan c).drained = 64 ∧
    (t.chan c).file = some ((u.raiseDrained c 64).startFile (u.headerIn c)) ∧ t.waits (.chan c) = true ∧
    ∀ b ∈ u.headerEntries (u.headerIn c), Submitted b t := by
  obtain ⟨st, _, _⟩ := headerReady_iff.mp r
  have raised := raiseDrained_becomes (c := c) (s := u) 64
  obtain ⟨q, waits, submitted⟩ := acceptHeader_waits (s := u.raiseDrained c 64) (c := c) (h := u.headerIn c)
    ((raiseDrained_engine 64).trans ready) (by rw [raiseDrained_entries]; exact ne)
    (by rw [raiseDrained_entries, entriesFit_congr (raiseDrained_jnl 64)]; exact full)
  have q' := settle_quiet (.inl (acceptHeader_others (c := c) (h := u.headerIn c) (raised.stalled.trans l)).2)
  rw [raiseDrained_entries] at submitted
  rw [takeHeader_accepted r f h]
  have chan := (q.trans q').chan c
  rw [bindFile_chan, raised.chan] at chan
  exact ⟨by rw [chan]; exact st, by rw [chan], by rw [chan], q'.waits waits, fun b hb => q'.submitted (submitted b hb)⟩

/-- Settles O21: the tests one after another, then HEADER_TAKE on the engine at the command, by what the tests answer and by what the
journal takes. -/
theorem headerIsJudged : Obligations.HeaderIsJudged := by
  refine ⟨fun h s => ?_, fun bus c s a r l cl f => ?_, fun bus c s a r l f => ?_⟩
  · obtain ⟨marker, rest⟩ := header_tests h s
    exact ⟨marker, rest, mem_headerEntries s h, late_mem_headerEntries s h, repeat_mem_headerEntries s h⟩
  · obtain ⟨ret, eds, kept⟩ := headerTake_frame bus c s
    obtain ⟨ended, recon⟩ := header_unread (u := at_ bus s) r l cl f
    exact ⟨_, exec_headerTake bus c a, ended.others, ret, eds, kept, ended.chan, ended.binding, recon, ended.answered⟩
  · obtain ⟨ret, eds, kept⟩ := headerTake_frame bus c s
    have file := startFile_eq (c := c) (at_ bus s) ((at_ bus s).headerIn c)
    refine ⟨_, exec_headerTake bus c a, header_others (u := at_ bus s) r l f, ret, eds, kept,
      fun st h => ?_, fun h cl => ?_, fun h cl all => ?_, fun h cl ready ne full => ?_⟩
    · obtain ⟨ended, recon⟩ := header_refused (u := at_ bus s) r l f h
      exact ⟨ended.chan, ended.binding, recon, ended.answered⟩
    · exact header_accepted (u := at_ bus s) r l cl f h
    · have on := header_goes_on (u := at_ bus s) r l cl f h all
      rw [file] at on
      exact on
    · have w := header_waits (u := at_ bus s) r l f h ready ne (fun fits => full ⟨ready, fits⟩)
      rw [file] at w
      exact w

end Sys2Proof.Claims
end

section
/-! SUPPORT. The judgement of a record (R8 to R13, R51) and its staging (R53, R54), one equation for each outcome. -/

namespace Sys2Proof.Machine

/-! ## What a record adds to its file -/

/-- A file that has seen a record, whose counts change as given (R8). -/
def File.seen (f : File) (raw : Raw) (n : Counts → Counts) : File :=
  { f with account :=
    { f.account with counts := n { f.account.counts with seen := f.account.counts.seen + 1 },
                     countBal := f.account.countBal + 1, chargeBal := f.account.chargeBal + BitVec.ofNat 64 raw.charge } }

/-- The count of a record that is not rejected (R10). -/
def clampCount (raw : Raw) (n : Counts) : Counts := { n with clamped := n.clamped + if raw.clamped then 1 else 0 }

/-- A file with what a classification brings (R68). -/
def File.judged (f : File) (j : Judged) : File := { f with work := { f.work with expected := j.expected }, pendingGaps := j.gaps }

/-- A file that has accepted a record (R13, R72). -/
def File.accepts (f : File) (raw : Raw) (j : Judged) : File :=
  let x := (f.seen raw fun n => { clampCount raw n with accepted := (clampCount raw n).accepted + 1 }).judged j
  { x with filled := x.filled + (if j.fill then 1 else 0),
           account := { x.account with restarts := x.account.restarts + (if j.restart then 1 else 0) } }

/-- A duplicate changes neither the list nor the expected number (R68). -/
theorem classify_duplicate {gaps : List Range} {e : Option SeqNo} {p : List GapEntry} {x : SeqNo}
    (h : (classify gaps e p x).verdict = .duplicate) : (classify gaps e p x).gaps = p ∧ (classify gaps e p x).expected = e := by
  unfold classify at h ⊢
  cases e with
  | none => cases h
  | some e => grind

namespace State

open Sys2Proof.Claims

variable {u s t : State} {c d : ChanNo} {f g : File} {raw : Raw}

/-! ## The file of a channel -/

/-- The engine with a file in a channel. -/
def withFile (c : ChanNo) (f : File) (s : State) : State := s.onChan c fun ch => { ch with file := some f }

@[simp] theorem withFile_chan : (s.withFile c f).chan c = { s.chan c with file := some f } := onChan_chan_self _

theorem onFile_eq (h : (s.chan c).file = some f) (k : File → File) : s.onFile c k = s.withFile c (k f) := by
  unfold onFile withFile onChan onFeed bmod
  rw [chan] at h
  simp [h]

@[simp] theorem withFile_withFile : (s.withFile c f).withFile c g = s.withFile c g := by
  simp [withFile, onChan, onFeed, bmod, bset, bget]

theorem onFile_withFile (k : File → File) : (s.withFile c f).onFile c k = s.withFile c (k f) := by
  rw [onFile_eq (f := f) (by simp), withFile_withFile]

/-! ## The outcomes of a record -/

theorem seeRecord_eq (h : (s.chan c).file = some f) : s.seeRecord c raw.charge = s.withFile c (f.seen raw id) :=
  onFile_eq h _

theorem onCounts_seen (n k : Counts → Counts) :
    (s.withFile c (f.seen raw n)).onCounts c k = s.withFile c (f.seen raw (k ∘ n)) := onFile_withFile _

theorem judgeRecord_rejected (h : (s.chan c).file = some f) (r : raw.rejected = true) : s.judgeRecord c raw =
    (s.withFile c (f.seen raw fun n => { n with rejected := n.rejected + 1 })).recordFinished c := by
  unfold judgeRecord
  simp only [r, if_true, seeRecord_eq h, onCounts_seen]
  rfl

/-- A record that is not rejected has a group, and is expired or classified (R11, R12, R13). -/
theorem judgeRecord_grouped (h : (s.chan c).file = some f) (r : raw.rejected = false) : s.judgeRecord c raw =
    let w := s.withFile c (f.seen raw (clampCount raw))
    if s.expiredOnArrival (fileKey f (s.groupOf raw.cls)) then
      (w.onCounts c fun n => { n with expired := n.expired + 1 }).recordFinished c
    else w.classifyRecord c (f.seen raw (clampCount raw)) raw.corrected (s.groupOf raw.cls) := by
  have clamp : (if raw.clamped then (s.withFile c (f.seen raw id)).onCounts c fun n => { n with clamped := n.clamped + 1 }
      else s.withFile c (f.seen raw id)) = s.withFile c (f.seen raw (clampCount raw)) := by
    cases e : raw.clamped
    · rw [if_neg (by decide)]
      congr 1
      simp [File.seen, clampCount, e]
    · rw [if_pos rfl, onCounts_seen]
      congr 1
      simp [File.seen, clampCount, e]
  unfold judgeRecord
  simp only [r, seeRecord_eq h, clamp, withFile_chan]
  rfl

theorem judgeRecord_expired (h : (s.chan c).file = some f) (r : raw.rejected = false)
    (e : s.expiredOnArrival (fileKey f (s.groupOf raw.cls)) = true) : s.judgeRecord c raw =
      (s.withFile c (f.seen raw fun n => { clampCount raw n with expired := (clampCount raw n).expired + 1 })).recordFinished c := by
  rw [judgeRecord_grouped h r]
  dsimp only
  rw [if_pos e, onCounts_seen]
  rfl

section classified
variable (h : (s.chan c).file = some f) (r : raw.rejected = false)
  (e : s.expiredOnArrival (fileKey f (s.groupOf raw.cls)) = false)
include h r e

theorem judgeRecord_overflow
    (full : 256 < (classify (s.rangesOf f.switch) f.work.expected f.pendingGaps raw.corrected.seq).gaps.length) :
    s.judgeRecord c raw = (s.withFile c (f.seen raw (clampCount raw))).abort c .gapOverflow (some .gapOverflow) := by
  rw [judgeRecord_grouped h r]
  dsimp only
  rw [if_neg (by simp [e])]
  exact if_pos full

theorem judgeRecord_classified
    (room : (classify (s.rangesOf f.switch) f.work.expected f.pendingGaps raw.corrected.seq).gaps.length ≤ 256) :
    s.judgeRecord c raw = (s.withFile c (f.seen raw (clampCount raw))).countVerdict c (f.seen raw (clampCount raw))
      (classify (s.rangesOf f.switch) f.work.expected f.pendingGaps raw.corrected.seq) raw.corrected (s.groupOf raw.cls) := by
  rw [judgeRecord_grouped h r]
  dsimp only
  rw [if_neg (by simp [e])]
  exact if_neg (Nat.not_lt.mpr room)

end classified

theorem countVerdict_duplicate {j : Judged} (v : j.verdict = .duplicate) (r : Rec) (k : Nat) :
    (s.withFile c (f.seen raw (clampCount raw))).countVerdict c (f.seen raw (clampCount raw)) j r k =
      (s.withFile c ((f.seen raw fun n =>
        { clampCount raw n with duplicates := (clampCount raw n).duplicates + 1 }).judged j)).recordFinished c := by
  unfold countVerdict
  simp only [v, onFile_withFile, onCounts, onAccount]
  rfl

theorem countVerdict_accepted {j : Judged} (v : j.verdict = .accepted) (r : Rec) (k : Nat) :
    (s.withFile c (f.seen raw (clampCount raw))).countVerdict c (f.seen raw (clampCount raw)) j r k =
      ((s.withFile c (f.accepts raw j)).onEds (Editions.count r)).stageRecord c (f.seen raw (clampCount raw)) r k := by
  unfold countVerdict
  simp only [v, onFile_withFile]
  rfl

/-! ## A finished record (R51) -/

/-- A finished record changes one channel: its file may owe a commit point or have a trailing fragment, and where no final total is
held its state and drained mark stay. -/
theorem recordFinished_becomes (h : (s.chan c).file = some f) : ∃ ch, Becomes c ch s (s.recordFinished c) ∧
    (∃ due n, ch.file = some { f with commitDue := due, trailing := n }) ∧
    ((s.chan c).finalTotal = none → ch.state = (s.chan c).state ∧ ch.drained = (s.chan c).drained) := by
  unfold recordFinished
  simp only [h]
  split
  · exact ⟨_, onChan_becomes _, ⟨true, f.trailing, by rw [h]; rfl⟩, fun _ => ⟨rfl, rfl⟩⟩
  · obtain ⟨ch, b, ⟨n, hf⟩, total⟩ := testEnd_becomes c s
    refine ⟨ch, b, ⟨f.commitDue, n, by rw [hf, h]; rfl⟩, fun ht => ?_⟩
    rw [total ht]
    exact ⟨rfl, rfl⟩

/-! ## Staging (R53, R54) -/

theorem placeRecord_open {k : StreamKey} {p : Page} (h : s.openPage c k.group = some p) (r : Rec) :
    s.placeRecord c k r = some (s.writePlace p.serial r) := by simp [placeRecord, h]

theorem placeRecord_new {k : StreamKey} (h : s.openPage c k.group = none) (room : s.poolHasPage = true) (r : Rec) :
    s.placeRecord c k r = some ((s.newPage c k).writePlace s.pool.serial r) := by simp [placeRecord, h, room]

theorem placeRecord_stalls {k : StreamKey} (h : s.openPage c k.group = none) (room : s.poolHasPage = false) (r : Rec) :
    s.placeRecord c k r = none := by simp [placeRecord, h, room]

/-- A page with one more record, SEALED with its 1,024th. -/
def grown (p : Page) (r : Rec) : Page :=
  { p with places := p.places ++ [{ data := r, standing := .held }],
           sealedUp := p.sealedUp || decide (1024 ≤ p.places.length + 1) }

theorem writePlace_mem {p : Page} (h : p ∈ s.pool.pages) (r : Rec) : grown p r ∈ (s.writePlace p.serial r).pool.pages := by
  refine List.mem_map.mpr ⟨p, h, ?_⟩
  rw [if_pos rfl]
  rfl

theorem openPage_some {k : Nat} {p : Page} (h : s.openPage c k = some p) :
    p ∈ s.pool.pages ∧ p.owner = some c ∧ p.sealedUp = false := by
  have hp := List.find?_some h
  simp only [Bool.and_eq_true, beq_iff_eq, Bool.not_eq_true'] at hp
  obtain ⟨⟨owner, sealedUp⟩, _⟩ := hp
  exact ⟨List.mem_of_find?_eq_some h, owner, sealedUp⟩

theorem stageRecord_placed {r : Rec} {k : Nat} (h : s.placeRecord c (fileKey f k) r = some t) :
    s.stageRecord c f r k = t.recordFinished c := by simp [stageRecord, h]

/-- The engine with a channel STALLED with its record, last in the waiting order (R54). -/
def stallWith (c : ChanNo) (r : Rec) (k : Nat) (s : State) : State :=
  ((s.onChan c fun ch => { ch with state := .stalled, file := ch.file.map fun x => { x with held := some (r, k) } }).onFeed
      fun x => { x with stalled := x.stalled ++ [c] }).notice .stalls

theorem stageRecord_stalls {r : Rec} {k : Nat} (h : s.placeRecord c (fileKey f k) r = none) :
    s.stageRecord c f r k = s.stallWith c r k := by simp [stageRecord, h, stallWith]

end State

end Sys2Proof.Machine
end

section
/-! SUPPORT. The abort of a file (R60, R61), and what RECORD_TAKE leaves by each outcome of its record, for O23. -/

namespace Sys2Proof.Machine.State

open Sys2Proof.Claims

variable {u s t v : State} {c d : ChanNo} {f g : File} {raw : Raw}

/-! ## An abort -/

/-- A file cut off: its pages cut back, its switch released, its answer fixed (R60 steps 1 to 4). -/
def cutOff (c : ChanNo) (f : File) (st : Status) (s : State) : State :=
  (((s.leaveStalled c).cutPages c).onChan c fun ch =>
    { ch with file := some { f with bound := false, held := none, pendingGaps := [] },
              closing := .answer st (ingestValues ch.drained (s.committed c)) }).releaseSwitch f.switch

/-- The restart entry of a file cut off. -/
def cutEntries (c : ChanNo) (f : File) (st : Status) (s : State) : List EntryBody :=
  restartEntries f.switch (s.committed c).restarts ((s.cutOff c f st).switchCtx f.switch).expected

theorem leaveStalled_feed (l : s.feed.stalled = []) : (s.leaveStalled c).feed = s.feed := by
  simp only [leaveStalled, onFeed_feed, l, List.filter_nil]
  rw [← l]

theorem abort_eq (cl : (s.chan c).closing = .none) (hf : (s.chan c).file = some f) (l : s.feed.stalled = [])
    (cause : AbortCause) (st : Status) : s.abort c cause (some st) =
      ((s.cutOff c f st).submitClosing c [] (abortedPair f.switch (s.committed c) cause) (s.cutEntries c f st)).runCoder := by
  have none : ((s.leaveStalled c).cutPages c).resumeStalled = (s.leaveStalled c).cutPages c :=
    resumeStalled_of_noneResumes (.inl ((congrArg Feed.stalled (leaveStalled_feed (c := c) l)).trans l))
  unfold abort
  simp only [cl, hf, ne_eq, not_true_eq_false, if_false, none]
  rfl

theorem cutOff_becomes (l : s.feed.stalled = []) (st : Status) : Becomes c
    { s.chan c with file := some { f with bound := false, held := none, pendingGaps := [] },
                    closing := .answer st (ingestValues (s.chan c).drained (s.committed c)) } s (s.cutOff c f st) := by
  have left := Becomes.of_feed (c := c) (leaveStalled_feed (c := c) l)
  have ch := left.chan
  have cut := onChan_becomes (c := c) (s := (s.leaveStalled c).cutPages c) fun ch =>
    { ch with file := some { f with bound := false, held := none, pendingGaps := [] },
              closing := .answer st (ingestValues ch.drained (s.committed c)) }
  have all := left.trans (t := (s.leaveStalled c).cutPages c) cut
  rw [show ((s.leaveStalled c).cutPages c).chan c = s.chan c from ch] at all
  unfold Becomes at all ⊢
  rw [cutOff, releaseSwitch_feed]
  exact all

theorem abortedPair_ne_nil (n : Nat) (a : Account) (k : AbortCause) : abortedPair n a k ≠ [] := by simp [abortedPair]

/-- An abort leaves the other channels alone, where none waits for a page. -/
theorem abort_others (cl : (s.chan c).closing = .none) (hf : (s.chan c).file = some f) (l : s.feed.stalled = [])
    (cause : AbortCause) (st : Status) :
    OtherChans c s (s.abort c cause (some st)) ∧ (s.abort c cause (some st)).feed.stalled = [] := by
  have cut := cutOff_becomes (c := c) (f := f) l st
  obtain ⟨o, st'⟩ := submitClosing_others c [] (abortedPair f.switch (s.committed c) cause) (s.cutEntries c f st)
    (abortedPair_ne_nil _ _ _) (s.cutOff c f st)
  have q := runCoder_quiet ((s.cutOff c f st).submitClosing c [] (abortedPair f.switch (s.committed c) cause) (s.cutEntries c f st))
  rw [abort_eq cl hf l]
  exact ⟨otherChans_trans (otherChans_trans cut.others o) (otherChans_of_feed q.feed c),
    by rw [q.feed]; exact st'.trans (cut.stalled.trans l)⟩

/-- A channel that owns no page still owns none after what is quiet. -/
theorem noOwner_quiet (q : Quiet s t) (h : ∀ p ∈ s.pool.pages, p.owner ≠ some c) : ∀ p ∈ t.pool.pages, p.owner ≠ some c := by
  intro p hp
  obtain ⟨p', hp', kept⟩ := q.page_back hp
  rw [kept.same]
  exact h p' hp'

theorem submitClosing_pool (c : ChanNo) (before pair later : List EntryBody) (s : State) :
    (submitClosing c before pair later s).pool = s.pool := submitClosing_does (same_pool.mono rfl) c before pair later rfl
theorem submitClosing_recon (c : ChanNo) (before pair later : List EntryBody) (s : State) :
    (submitClosing c before pair later s).recon = s.recon := submitClosing_does (same_recon.mono rfl) c before pair later rfl

theorem cutPages_noOwner (c : ChanNo) (s : State) : ∀ p ∈ (s.cutPages c).pool.pages, p.owner ≠ some c := by
  intro p hp
  obtain ⟨hp, _⟩ := List.mem_filter.mp hp
  obtain ⟨q, _, rfl⟩ := List.mem_map.mp hp
  split
  · simp [cutPage]
  · assumption

theorem releaseSwitch_state (n : Nat) (s : State) : ((s.releaseSwitch n).switchCtx n).state ≠ .feeding := by
  unfold releaseSwitch
  dsimp only
  split
  · rw [setSwitch_switchCtx n (x := { s.switchCtx n with state := .idle }) (fun e => by cases e)]
    exact fun e => by cases e
  · assumption

theorem releaseSwitch_expected (n : Nat) (s : State) : ((s.releaseSwitch n).switchCtx n).expected = (s.switchCtx n).expected := by
  unfold releaseSwitch
  dsimp only
  split
  · rw [setSwitch_switchCtx n (x := { s.switchCtx n with state := .idle }) (fun e => by cases e)]
  · rfl

theorem releaseSwitch_gaps (n : Nat) (s : State) : (s.releaseSwitch n).recon.gaps = s.recon.gaps := by
  unfold releaseSwitch
  dsimp only
  split <;> rfl

/-- What an abort has made of the switch, the pages and the journal when its command has ended. -/
structure CutOff (u : State) (c : ChanNo) (n : Nat) (pair : List EntryBody) (t : State) : Prop where
  state : (t.switchCtx n).state ≠ .feeding
  expected : (t.switchCtx n).expected = (u.switchCtx n).expected
  gaps : t.recon.gaps = u.recon.gaps
  owner : ∀ p ∈ t.pool.pages, p.owner ≠ some c
  serial : t.pool.serial = u.pool.serial
  sent : u.engine = .ready → ∀ b ∈ pair, Submitted b t

theorem CutOff.quiet {n : Nat} {pair : List EntryBody} (h : CutOff u c n pair s) (q : Quiet s t) : CutOff u c n pair t where
  state := by rw [q.switchCtx]; exact h.state
  expected := by rw [q.switchCtx]; exact h.expected
  gaps := by rw [q.recon]; exact h.gaps
  owner := noOwner_quiet q h.owner
  serial := q.serial.trans h.serial
  sent e b hb := q.submitted (h.sent e b hb)

theorem abort_cutOff (cl : (s.chan c).closing = .none) (hf : (s.chan c).file = some f) (l : s.feed.stalled = [])
    (cause : AbortCause) (st : Status) :
    CutOff s c f.switch (abortedPair f.switch (s.committed c) cause) (s.abort c cause (some st)) := by
  rw [abort_eq cl hf l]
  refine CutOff.quiet ?_ (runCoder_quiet _)
  have recon := submitClosing_recon c [] (abortedPair f.switch (s.committed c) cause) (s.cutEntries c f st) (s.cutOff c f st)
  have pool : (s.cutOff c f st).pool = ((s.leaveStalled c).cutPages c).pool := releaseSwitch_does (same_pool.mono rfl) _ rfl
  refine ⟨?_, ?_, ?_, ?_, ?_, fun ready b hb => ?_⟩
  · rw [switchCtx, recon]
    exact releaseSwitch_state f.switch _
  · rw [switchCtx, recon]
    exact releaseSwitch_expected f.switch _
  · rw [recon]
    exact releaseSwitch_gaps f.switch _
  · rw [submitClosing_pool, pool]
    exact cutPages_noOwner c _
  · rw [submitClosing_pool, pool]
    rfl
  · have engine : (s.cutOff c f st).engine = s.engine := releaseSwitch_does (same_engine.mono rfl) f.switch rfl
    exact submitClosing_submitted c [] _ _ (abortedPair_ne_nil _ _ _) (engine.trans ready) b (by simp [hb])

theorem restartEntries_length (n k : Nat) (e : Option SeqNo) : (restartEntries n k e).length ≤ 1 := by
  unfold restartEntries
  split <;> simp

/-- An abort whose entries fit ends the channel at once with the committed copy (R60). -/
theorem abort_ended (cl : (s.chan c).closing = .none) (hf : (s.chan c).file = some f) (l : s.feed.stalled = [])
    (cause : AbortCause) (st : Status) (ready : s.engine = .ready) (fits : EntriesFit 3 s) (h : SlipsStand u s) (o : OtherChans c u s)
    (lu : u.feed.stalled = []) :
    Ended u c (s.chan c).slip st (ingestValues (s.chan c).drained (s.committed c)) (s.abort c cause (some st)) := by
  have cut := cutOff_becomes (c := c) (f := f) l st
  have jnl : (s.cutOff c f st).jnl = s.jnl := releaseSwitch_does (same_jnl.mono rfl) f.switch rfl
  have engine : (s.cutOff c f st).engine = s.engine := releaseSwitch_does (same_engine.mono rfl) f.switch rfl
  have stand : SlipsStand s (s.cutOff c f st) := .of_same (releaseSwitch_does (same_desk.mono rfl) f.switch rfl)
    (releaseSwitch_does (same_fails.mono rfl) f.switch rfl) (releaseSwitch_does (same_mem.mono rfl) f.switch rfl)
  have room : EntriesFit (([] : List EntryBody).length + ((abortedPair f.switch (s.committed c) cause).length +
      (s.cutEntries c f st).length)) (s.cutOff c f st) := by
    refine (entriesFit_congr jnl).mpr (entriesFit_mono fits ?_)
    have : (s.cutEntries c f st).length ≤ 1 := restartEntries_length _ _ _
    simp [abortedPair]
    omega
  have ended := submitClosing_ended (u := u) [] _ _ (abortedPair_ne_nil _ _ _) (engine.trans ready) room (h.trans stand)
    (otherChans_trans o cut.others) (cut.stalled.trans (l.trans lu.symm)) (by rw [cut.chan])
  rw [cut.chan] at ended
  rw [abort_eq cl hf l]
  exact ended.quiet (runCoder_quiet _)

end Sys2Proof.Machine.State
end

section
/-! SUPPORT. RECORD_TAKE: what it leaves by each outcome of its record (R51), for O23. -/

namespace Sys2Proof.Machine.State

open Sys2Proof.Claims

variable {u s t w : State} {c d : ChanNo} {f g : File}

/-! ## The record that is taken -/

theorem recordReady_iff : s.recordReady c = true ↔ (s.chan c).state = .running ∧ (s.chan c).closing = .none ∧
    ((s.chan c).file.map File.commitDue).getD true = false ∧ s.waits (.chan c) = false ∧
    (s.chan c).drained + 64 ≤ (s.chan c).filledSeen := by
  simp [recordReady, and_assoc]

/-- A channel that can take its next record, which can be read, while none waits for a page. -/
structure Takes (u : State) (c : ChanNo) (f : File) : Prop where
  ready : u.recordReady c = true
  file : (u.chan c).file = some f
  alone : u.feed.stalled = []
  reads : u.readFails (u.ringAt c (u.chan c).drained) 64 = false

/-- The record that stands next in the ring, and its key. -/
def recordIn (u : State) (c : ChanNo) : Raw := readRecord (u.hostBytes (u.ringAt c (u.chan c).drained) 64)
def recordKey (u : State) (c : ChanNo) (f : File) : StreamKey := fileKey f (u.groupOf (u.recordIn c).cls)
def recordJudged (u : State) (c : ChanNo) (f : File) : Judged :=
  classify (u.rangesOf f.switch) f.work.expected f.pendingGaps (u.recordIn c).corrected.seq

/-- The engine with the drained mark past the record, which is in a file as given. -/
def past (c : ChanNo) (g : File) (u : State) : State := (u.raiseDrained c ((u.chan c).drained + 64)).withFile c g

theorem past_becomes : Becomes c { u.chan c with drained := (u.chan c).drained + 64, file := some g } u (u.past c g) := by
  have raised := raiseDrained_becomes (c := c) (s := u) ((u.chan c).drained + 64)
  have file := raised.trans (onChan_becomes fun ch => { ch with file := some g })
  rwa [raised.chan] at file

theorem past_stands : SlipsStand u (u.past c g) :=
  (raiseDrained_stands c _ u).trans (.of_same rfl rfl rfl)

theorem past_pool : (u.past c g).pool = u.pool := raiseDrained_pool _
theorem past_recon : (u.past c g).recon = u.recon := raiseDrained_recon _
theorem past_jnl : (u.past c g).jnl = u.jnl := raiseDrained_jnl _
theorem past_engine : (u.past c g).engine = u.engine := raiseDrained_engine _
theorem past_eds : (u.past c g).eds = u.eds := raiseDrained_does (same_eds.mono rfl) c _ rfl
theorem past_coder : (u.past c g).coder = u.coder := raiseDrained_does (same_coder.mono rfl) c _ rfl
theorem past_cat : (u.past c g).cat = u.cat := raiseDrained_does (same_cat.mono rfl) c _ rfl
theorem past_counters : (u.past c g).desk.counters = u.desk.counters := raiseDrained_does (same_counters.mono rfl) c _ rfl

/-! ## One equation for each outcome -/

section outcomes
variable (h : Takes u c f)
include h

theorem takeRecord_eq :
    u.takeRecord c = (u.raiseDrained c ((u.chan c).drained + 64)).judgeRecord c (u.recordIn c) := by
  simp [takeRecord, h.ready, h.reads, recordIn]

theorem raised_file : ((u.raiseDrained c ((u.chan c).drained + 64)).chan c).file = some f := by
  rw [raiseDrained_file]
  exact h.file

theorem takeRecord_rejected (r : (u.recordIn c).rejected = true) : u.takeRecord c =
    (u.past c (f.seen (u.recordIn c) fun n => { n with rejected := n.rejected + 1 })).recordFinished c :=
  (takeRecord_eq h).trans (judgeRecord_rejected (raised_file h) r)

theorem takeRecord_expired (r : (u.recordIn c).rejected = false) (e : u.expiredOnArrival (u.recordKey c f) = true) :
    u.takeRecord c = (u.past c (f.seen (u.recordIn c) fun n =>
      { clampCount (u.recordIn c) n with expired := (clampCount (u.recordIn c) n).expired + 1 })).recordFinished c := by
  refine (takeRecord_eq h).trans (judgeRecord_expired (raised_file h) r ?_)
  rw [expiredOnArrival, expiryDay, groupDays, groupOf, raiseDrained_ret]
  exact e

theorem takeRecord_overflow (r : (u.recordIn c).rejected = false) (e : u.expiredOnArrival (u.recordKey c f) = false)
    (full : 256 < (u.recordJudged c f).gaps.length) :
    u.takeRecord c = (u.past c (f.seen (u.recordIn c) (clampCount (u.recordIn c)))).abort c .gapOverflow (some .gapOverflow) := by
  refine (takeRecord_eq h).trans (judgeRecord_overflow (raised_file h) r ?_ ?_)
  · rw [expiredOnArrival, expiryDay, groupDays, groupOf, raiseDrained_ret]
    exact e
  · rw [rangesOf, raiseDrained_recon]
    exact full

theorem takeRecord_classified (r : (u.recordIn c).rejected = false) (e : u.expiredOnArrival (u.recordKey c f) = false)
    (room : (u.recordJudged c f).gaps.length ≤ 256) : u.takeRecord c =
      (u.past c (f.seen (u.recordIn c) (clampCount (u.recordIn c)))).countVerdict c
        (f.seen (u.recordIn c) (clampCount (u.recordIn c))) (u.recordJudged c f) (u.recordIn c).corrected
        (u.groupOf (u.recordIn c).cls) := by
  have ranges : (u.raiseDrained c ((u.chan c).drained + 64)).rangesOf f.switch = u.rangesOf f.switch := by
    rw [rangesOf, raiseDrained_recon]; rfl
  have group : (u.raiseDrained c ((u.chan c).drained + 64)).groupOf (u.recordIn c).cls = u.groupOf (u.recordIn c).cls := by
    rw [groupOf, raiseDrained_ret]; rfl
  have judged := judgeRecord_classified (s := u.raiseDrained c ((u.chan c).drained + 64)) (raised_file h) r
    (by rw [expiredOnArrival, expiryDay, groupDays, group, raiseDrained_ret]; exact e) (by rw [ranges]; exact room)
  rw [ranges, group] at judged
  exact (takeRecord_eq h).trans judged

theorem takeRecord_duplicate (r : (u.recordIn c).rejected = false) (e : u.expiredOnArrival (u.recordKey c f) = false)
    (room : (u.recordJudged c f).gaps.length ≤ 256) (v : (u.recordJudged c f).verdict = .duplicate) :
    u.takeRecord c = (u.past c ((f.seen (u.recordIn c) fun n =>
      { clampCount (u.recordIn c) n with duplicates := (clampCount (u.recordIn c) n).duplicates + 1 }).judged
        (u.recordJudged c f))).recordFinished c :=
  (takeRecord_classified h r e room).trans (countVerdict_duplicate v _ _)

theorem takeRecord_accepted (r : (u.recordIn c).rejected = false) (e : u.expiredOnArrival (u.recordKey c f) = false)
    (room : (u.recordJudged c f).gaps.length ≤ 256) (v : (u.recordJudged c f).verdict = .accepted) :
    u.takeRecord c = ((u.past c (f.accepts (u.recordIn c) (u.recordJudged c f))).onEds
      (Editions.count (u.recordIn c).corrected)).stageRecord c (f.seen (u.recordIn c) (clampCount (u.recordIn c)))
        (u.recordIn c).corrected (u.groupOf (u.recordIn c).cls) :=
  (takeRecord_classified h r e room).trans (countVerdict_accepted v _ _)

end outcomes

/-! ## A finished record -/

/-- A record has been finished in a file as given: the channel goes on with it, past the record. -/
structure Finished (u : State) (c : ChanNo) (g : File) (t : State) : Prop where
  others : OtherChans c u t
  file : ∃ due n, (t.chan c).file = some { g with commitDue := due, trailing := n }
  goes : (u.chan c).finalTotal = none → (t.chan c).state = (u.chan c).state ∧ (t.chan c).drained = (u.chan c).drained + 64
  stalled : t.feed.stalled = u.feed.stalled
  bindings : t.feed.bindings = u.feed.bindings

theorem finished_settle (b : Becomes c { u.chan c with drained := (u.chan c).drained + 64, file := some g } u w)
    (l : u.feed.stalled = []) : Finished u c g (w.recordFinished c).settle ∧
      Quiet (w.recordFinished c) (w.recordFinished c).settle := by
  obtain ⟨ch, fin, ⟨due, n, hf⟩, total⟩ := recordFinished_becomes (s := w) (c := c) (f := g) (by rw [b.chan])
  have all := b.trans fin
  have q := settle_quiet (.inl (all.stalled.trans l))
  rw [b.chan] at total
  exact ⟨⟨otherChans_trans all.others (otherChans_of_feed q.feed c), ⟨due, n, by rw [q.chan, fin.chan]; exact hf⟩,
    fun ht => by rw [q.chan, fin.chan]; exact total ht, by rw [q.feed]; exact all.stalled, by rw [q.feed]; exact all.bindings⟩, q⟩

theorem recordFinished_pool (c : ChanNo) (s : State) : (s.recordFinished c).pool = s.pool :=
  recordFinished_does (same_pool.mono rfl) c rfl
theorem recordFinished_recon (c : ChanNo) (s : State) : (s.recordFinished c).recon = s.recon :=
  recordFinished_does (same_recon.mono rfl) c rfl
theorem settle_eds (s : State) : s.settle.eds = s.eds := settle_does (same_eds.mono rfl) rfl

theorem coderHolds_congr (coder : t.coder = s.coder) (cat : t.cat = s.cat) (h : CoderHolds s) : CoderHolds t := by
  unfold CoderHolds inHand at h ⊢
  rw [coder, cat]
  exact h

/-- A coder that holds a block selects nothing after an event at which no channel waits. -/
theorem settle_of_holds (l : s.feed.stalled = []) (h : CoderHolds s) : s.settle.pool = s.pool ∧ s.settle.coder = s.coder := by
  rw [settle_eq (.inl l), runCoder_of_holds h]
  exact ⟨pump_does (same_pool.mono rfl) rfl, pump_does (same_coder.mono rfl) rfl⟩

/-- A record that is not accepted stages nothing (R13). -/
theorem nothingStaged_finished (l : u.feed.stalled = []) : NothingStaged u ((u.past c g).recordFinished c).settle := by
  obtain ⟨fin, q⟩ := finished_settle (u := u) (c := c) past_becomes l (g := g)
  have pool : ((u.past c g).recordFinished c).pool = u.pool := (recordFinished_pool c _).trans past_pool
  have eds : ((u.past c g).recordFinished c).eds = u.eds := (recordFinished_does (same_eds.mono rfl) c rfl).trans past_eds
  have coder : ((u.past c g).recordFinished c).coder = u.coder := (recordFinished_does (same_coder.mono rfl) c rfl).trans past_coder
  have cat : ((u.past c g).recordFinished c).cat = u.cat := (recordFinished_does (same_cat.mono rfl) c rfl).trans past_cat
  have stalled : ((u.past c g).recordFinished c).feed.stalled = [] := by
    rw [← q.feed, fin.stalled]; exact l
  refine ⟨(settle_eds _).trans eds, by rw [q.serial, pool], by rw [q.staged, pool], fin.stalled, fin.bindings, fun h => ?_⟩
  obtain ⟨p, k⟩ := settle_of_holds stalled (coderHolds_congr coder cat h)
  exact ⟨p.trans pool, k.trans coder⟩

/-! ## An accepted record -/

section accepted
variable {r : Rec} {k : Nat} {e : Editions → Editions}

/-- The channel STALLED with its record (R54). -/
theorem stallWith_becomes (hf : (s.chan c).file = some f) (l : s.feed.stalled = []) :
    OtherChans c s (s.stallWith c r k) ∧ (s.stallWith c r k).feed.stalled = [c] ∧
    (s.stallWith c r k).chan c = { s.chan c with state := .stalled, file := some { f with held := some (r, k) } } := by
  have feed : (s.stallWith c r k).feed = ((s.onChan c fun ch =>
      { ch with state := .stalled, file := ch.file.map fun x => { x with held := some (r, k) } }).onFeed
        fun x => { x with stalled := x.stalled ++ [c] }).feed := notice_does (same_feed.mono rfl) .stalls rfl
  have chans (d : ChanNo) : (s.stallWith c r k).chan d = (s.onChan c fun ch =>
      { ch with state := .stalled, file := ch.file.map fun x => { x with held := some (r, k) } }).chan d := chan_congr feed d
  refine ⟨fun d hd => (chans d).trans (onChan_chan_ne _ hd), ?_, ?_⟩
  · rw [feed]
    simp [onChan, l]
  · rw [chans, onChan_chan_self, hf]
    rfl

theorem stallWith_pool (s : State) : (s.stallWith c r k).pool = s.pool := notice_does (same_pool.mono rfl) .stalls rfl
theorem stallWith_stalls (s : State) : bget (s.stallWith c r k).desk.counters Counter.stalls.index =
    bget s.desk.counters Counter.stalls.index + 1 := by
  rw [stallWith, notice_counters, bget_bset_self, onFeed_desk, onChan, onFeed_desk]
theorem stallWith_recon (s : State) : (s.stallWith c r k).recon = s.recon := notice_does (same_recon.mono rfl) .stalls rfl

end accepted

end Sys2Proof.Machine.State
end

section
/-! SUPPORT. RECORD_TAKE by the outcome of its record, and O23. -/

namespace Sys2Proof.Claims

open Sys2Proof.Machine Sys2Proof.Machine.State

variable {u s t w : State} {c : ChanNo} {f g : File}

/-- RECORD_TAKE of an engine that acts is the taking of the record, and what follows of itself. -/
theorem exec_recordTake (bus : Bus) (c : ChanNo) {s : State} (a : Acts s) :
    Machine.exec (.recordTake c bus) s = .next ((at_ bus s).takeRecord c).settle :=
  congrArg Host.Outcome.next (s.commandedOn_on bus _ a.1 a.2)

/-- RECORD_TAKE touches neither the retention unit, nor what lies outside the blocks that carry work, nor a byte outside the desk. -/
theorem recordTake_frame (bus : Bus) (c : ChanNo) (s : State) :
    let t := ((at_ bus s).takeRecord c).settle
    t.ret = s.ret ∧ Kept s t ∧ ∀ a, OffDesk s a → byteAt t a = byteAt (at_ bus s) a := by
  have outside : OutsideDesk (at_ bus s) ((at_ bus s).takeRecord c).settle := settle_does (keeps_outside.mono rfl)
    (takeRecord_does (keeps_outside.mono rfl) c ⟨rfl, fun _ _ => rfl⟩)
  exact ⟨settle_does (same_ret.mono rfl) (takeRecord_does (same_ret.mono rfl) c rfl),
    settle_does (keeps_kept.mono rfl) (takeRecord_does (keeps_kept.mono rfl) c (onBus_does (keeps_kept.mono rfl) bus (Kept.refl s))),
    outside.2⟩

/-- What every record leaves that does not abort its file: the other channels, the switch table, and the drained mark past it. -/
structure Counted (u : State) (c : ChanNo) (t : State) : Prop where
  others : OtherChans c u t
  recon : t.recon = u.recon
  drained : (u.chan c).finalTotal = none → (t.chan c).drained = (u.chan c).drained + 64

/-- A field of the finished file that the end of a record leaves alone. -/
theorem finished_map (h : Finished u c g t) {β : Type} (k : File → β)
    (hk : ∀ due n, k { g with commitDue := due, trailing := n } = k g) :
    (t.chan c).file.map k = some (k g) := by
  obtain ⟨due, n, e⟩ := h.file
  rw [e]
  exact congrArg some (hk due n)

/-! ## The record is not accepted -/

/-- A record that is rejected, expired on arrival or a duplicate is counted and goes no further (R9, R12, R13). -/
theorem record_passed (h : Takes u c f) (e : u.takeRecord c = (u.past c g).recordFinished c) :
    Counted u c (u.takeRecord c).settle ∧ Finished u c g (u.takeRecord c).settle ∧ NothingStaged u (u.takeRecord c).settle := by
  rw [e]
  obtain ⟨fin, q⟩ := finished_settle (u := u) (c := c) past_becomes h.alone (g := g)
  refine ⟨⟨fin.others, ?_, fun ht => (fin.goes ht).2⟩, fin, nothingStaged_finished h.alone⟩
  rw [q.recon, recordFinished_recon, past_recon]

/-! ## The record is accepted -/

/-- The engine that stages an accepted record. -/
def accepting (u : State) (c : ChanNo) (f : File) : State :=
  (u.past c (f.accepts (u.recordIn c) (u.recordJudged c f))).onEds (Editions.count (u.recordIn c).corrected)

section accepted
variable (h : Takes u c f) (r : (u.recordIn c).rejected = false) (e : u.expiredOnArrival (u.recordKey c f) = false)
  (room : (u.recordJudged c f).gaps.length ≤ 256) (v : (u.recordJudged c f).verdict = .accepted)

theorem accepting_pool : (accepting u c f).pool = u.pool :=
  past_pool (g := f.accepts (u.recordIn c) (u.recordJudged c f))
theorem accepting_recon : (accepting u c f).recon = u.recon :=
  past_recon (g := f.accepts (u.recordIn c) (u.recordJudged c f))
theorem accepting_eds : (accepting u c f).eds = Editions.count (u.recordIn c).corrected u.eds := by
  rw [accepting, onEds_eds, past_eds]
theorem accepting_counters : (accepting u c f).desk.counters = u.desk.counters := by
  rw [accepting, onEds_desk, past_counters]
theorem accepting_becomes : Becomes c
    { u.chan c with drained := (u.chan c).drained + 64, file := some (f.accepts (u.recordIn c) (u.recordJudged c f)) } u
      (accepting u c f) :=
  past_becomes

theorem accepting_openPage (k : Nat) : (accepting u c f).openPage c k = u.openPage c k := by
  rw [openPage, accepting_pool]
  rfl

theorem accepting_poolHasPage : (accepting u c f).poolHasPage = u.poolHasPage := by
  rw [poolHasPage, accepting_pool]
  rfl

/-- A record that is written into a page is finished (R51, R53). -/
theorem record_placed (h : Takes u c f) (pool : w = (accepting u c f).onPool fun _ => w.pool) :
    Counted u c (w.recordFinished c).settle ∧
      Finished u c (f.accepts (u.recordIn c) (u.recordJudged c f)) (w.recordFinished c).settle ∧
      (w.recordFinished c).settle.eds = Editions.count (u.recordIn c).corrected u.eds ∧
      (w.recordFinished c).settle.pool.serial = w.pool.serial ∧
      ∀ p ∈ w.pool.pages, ∃ q ∈ (w.recordFinished c).settle.pool.pages, PageKept p q := by
  have b : Becomes c { u.chan c with drained := (u.chan c).drained + 64,
                                     file := some (f.accepts (u.recordIn c) (u.recordJudged c f)) } u w := by
    rw [pool]
    exact accepting_becomes
  have recon : w.recon = u.recon := by
    rw [pool]
    exact accepting_recon (f := f)
  have eds : w.eds = Editions.count (u.recordIn c).corrected u.eds := by
    rw [pool]
    exact accepting_eds (f := f)
  obtain ⟨fin, q⟩ := finished_settle b h.alone
  refine ⟨⟨fin.others, by rw [q.recon, recordFinished_recon, recon], fun ht => (fin.goes ht).2⟩, fin, ?_, ?_, fun p hp => ?_⟩
  · rw [settle_eds]
    exact (recordFinished_does (same_eds.mono rfl) c rfl).trans eds
  · rw [q.serial, recordFinished_pool]
  · exact q.page (by rw [recordFinished_pool]; exact hp)

include h r e room v

/-- The record joins the OPEN page of its group (R53). -/
theorem takeRecord_open {p : Page} (hp : u.openPage c (u.groupOf (u.recordIn c).cls) = some p) :
    u.takeRecord c = ((accepting u c f).writePlace p.serial (u.recordIn c).corrected).recordFinished c :=
  (takeRecord_accepted h r e room v).trans (stageRecord_placed (placeRecord_open ((accepting_openPage _).trans hp) _))

/-- The record opens a page (R53). -/
theorem takeRecord_new (hp : u.openPage c (u.groupOf (u.recordIn c).cls) = none) (free : u.poolHasPage = true) :
    u.takeRecord c = (((accepting u c f).newPage c (u.recordKey c f)).writePlace u.pool.serial
      (u.recordIn c).corrected).recordFinished c := by
  have placed := placeRecord_new (s := accepting u c f) (c := c) (k := u.recordKey c f) ((accepting_openPage _).trans hp)
    (accepting_poolHasPage.trans free) (u.recordIn c).corrected
  rw [accepting_pool] at placed
  exact (takeRecord_accepted h r e room v).trans (stageRecord_placed placed)

/-- The channel stalls with the record (R54). -/
theorem takeRecord_stalls (hp : u.openPage c (u.groupOf (u.recordIn c).cls) = none) (full : u.poolHasPage = false) :
    u.takeRecord c = (accepting u c f).stallWith c (u.recordIn c).corrected (u.groupOf (u.recordIn c).cls) :=
  (takeRecord_accepted h r e room v).trans (stageRecord_stalls (placeRecord_stalls ((accepting_openPage _).trans hp)
    (accepting_poolHasPage.trans full) _))

end accepted

/-- A channel that stalls, when its command has ended. -/
theorem record_stalled (h : Takes u c f) (full : u.poolHasPage = false) (r : Rec) (k : Nat) :
    let t := ((accepting u c f).stallWith c r k).settle
    Counted u c t ∧ t.eds = Editions.count (u.recordIn c).corrected u.eds ∧ t.feed.stalled = [c] ∧
      t.chan c = { u.chan c with state := .stalled, drained := (u.chan c).drained + 64,
                                 file := some { f.accepts (u.recordIn c) (u.recordJudged c f) with held := some (r, k) } } ∧
      bget t.desk.counters Counter.stalls.index = bget u.desk.counters Counter.stalls.index + 1 := by
  have b := accepting_becomes (u := u) (c := c) (f := f)
  obtain ⟨others, stalled, chan⟩ := stallWith_becomes (s := accepting u c f) (c := c) (r := r) (k := k) (by rw [b.chan])
    (b.stalled.trans h.alone)
  have none : NoneResumes ((accepting u c f).stallWith c r k) := by
    right
    rw [stallWith_pool, accepting_pool]
    simpa [poolHasPage] using full
  have q := settle_quiet none
  rw [b.chan] at chan
  have recon : ((accepting u c f).stallWith c r k).settle.recon = u.recon := by
    rw [q.recon, stallWith_recon, accepting_recon]
  have eds : ((accepting u c f).stallWith c r k).eds = (accepting u c f).eds := notice_does (same_eds.mono rfl) .stalls rfl
  refine ⟨⟨otherChans_trans b.others (otherChans_trans others (otherChans_of_feed q.feed c)), recon, fun _ => ?_⟩, ?_, ?_, ?_, ?_⟩
  · rw [q.chan, chan]
  · rw [settle_eds, eds, accepting_eds]
  · rw [q.feed, stalled]
  · rw [q.chan, chan]
  · rw [q.counters .stalls (by decide), stallWith_stalls, accepting_counters]

/-! ## The list would overflow -/

/-- The file is aborted (R60, R75). -/
theorem record_overflow (h : Takes u c f) (e : u.takeRecord c = (u.past c g).abort c .gapOverflow (some .gapOverflow)) :
    let t := (u.takeRecord c).settle
    OtherChans c u t ∧ CutOff u c g.switch (abortedPair g.switch (u.committed c) .gapOverflow) t ∧ t.eds = u.eds ∧
      (u.engine = .ready → EntriesFit 3 u → Ended u c (u.chan c).slip .gapOverflow
        (ingestValues ((u.chan c).drained + 64) (u.committed c)) t) := by
  have b := past_becomes (u := u) (c := c) (g := g)
  have file : ((u.past c g).chan c).file = some g := by rw [b.chan]
  obtain ⟨_, cl, _⟩ := recordReady_iff.mp h.ready
  have closing : ((u.past c g).chan c).closing = .none := by rw [b.chan]; exact cl
  have alone := b.stalled.trans h.alone
  have committed : (u.past c g).committed c = u.committed c := by rw [committed, b.bindings]; rfl
  obtain ⟨others, stalled⟩ := abort_others closing file alone .gapOverflow .gapOverflow
  have q := settle_quiet (.inl stalled)
  have cut := (abort_cutOff closing file alone .gapOverflow .gapOverflow).quiet q
  rw [committed] at cut
  rw [e]
  refine ⟨otherChans_trans b.others (otherChans_trans others (otherChans_of_feed q.feed c)), ⟨cut.state, ?_, ?_, cut.owner, ?_, ?_⟩,
    ?_, fun ready fits => ?_⟩
  · rw [cut.expected, switchCtx, past_recon]; rfl
  · rw [cut.gaps, past_recon]
  · rw [cut.serial, past_pool]
  · exact fun ready => cut.sent (past_engine.trans ready)
  · rw [settle_eds]
    exact (abort_does (same_eds.mono rfl) c _ _ rfl).trans past_eds
  · have ended := abort_ended closing file alone .gapOverflow .gapOverflow (past_engine.trans ready)
      ((entriesFit_congr past_jnl).mpr fits) past_stands b.others h.alone
    rw [committed, b.chan] at ended
    exact ended.quiet q

/-! ## O23 -/

/-- Every record but one that overflows the list is counted (R51). -/
theorem record_counted (h : Takes u c f)
    (n : (u.recordIn c).rejected = true ∨ u.expiredOnArrival (u.recordKey c f) = true ∨ (u.recordJudged c f).gaps.length ≤ 256) :
    Counted u c (u.takeRecord c).settle := by
  cases r : (u.recordIn c).rejected
  case true => exact (record_passed h (takeRecord_rejected h r)).1
  cases e : u.expiredOnArrival (u.recordKey c f)
  case true => exact (record_passed h (takeRecord_expired h r e)).1
  have room : (u.recordJudged c f).gaps.length ≤ 256 := by simpa [r, e] using n
  cases v : (u.recordJudged c f).verdict
  case duplicate => exact (record_passed h (takeRecord_duplicate h r e room v)).1
  cases p : u.openPage c (u.groupOf (u.recordIn c).cls) with
  | some p =>
    rw [takeRecord_open h r e room v p]
    exact (record_placed h rfl).1
  | none =>
    cases free : u.poolHasPage
    · rw [takeRecord_stalls h r e room v p free]
      exact (record_stalled h free _ _).1
    · rw [takeRecord_new h r e room v p free]
      exact (record_placed h rfl).1

theorem record_others (h : Takes u c f) : OtherChans c u (u.takeRecord c).settle := by
  by_cases n : (u.recordIn c).rejected = true ∨ u.expiredOnArrival (u.recordKey c f) = true ∨ (u.recordJudged c f).gaps.length ≤ 256
  · exact (record_counted h n).others
  · simp only [not_or, Bool.not_eq_true, Nat.not_le] at n
    obtain ⟨r, e, full⟩ := n
    exact (record_overflow h (takeRecord_overflow h r e full)).1

/-- A duplicate leaves the working context and the list of its file. -/
theorem duplicate_work (v : (u.recordJudged c f).verdict = .duplicate) (raw : Raw) (n : Counts → Counts) :
    ((f.seen raw n).judged (u.recordJudged c f)).work = f.work ∧
    ((f.seen raw n).judged (u.recordJudged c f)).pendingGaps = f.pendingGaps := by
  obtain ⟨gaps, expected⟩ := classify_duplicate v
  refine ⟨?_, gaps⟩
  show { f.work with expected := (u.recordJudged c f).expected } = f.work
  rw [show (u.recordJudged c f).expected = f.work.expected from expected]

section accepted
variable (h : Takes u c f) (r : (u.recordIn c).rejected = false) (e : u.expiredOnArrival (u.recordKey c f) = false)
  (room : (u.recordJudged c f).gaps.length ≤ 256) (v : (u.recordJudged c f).verdict = .accepted)
include h r e room v

/-- An accepted record is counted and tallied, whether it is written or its channel stalls. -/
theorem record_accepted : (u.takeRecord c).settle.eds = Editions.count (u.recordIn c).corrected u.eds ∧
    ∃ due n held, ((u.takeRecord c).settle.chan c).file =
      some { f.accepts (u.recordIn c) (u.recordJudged c f) with commitDue := due, trailing := n, held := held } := by
  cases hp : u.openPage c (u.groupOf (u.recordIn c).cls) with
  | some p =>
    rw [takeRecord_open h r e room v hp]
    obtain ⟨_, fin, eds, _⟩ := record_placed (w := (accepting u c f).writePlace p.serial (u.recordIn c).corrected) h rfl
    obtain ⟨due, n, hf⟩ := fin.file
    exact ⟨eds, due, n, f.held, hf⟩
  | none =>
    cases free : u.poolHasPage
    · rw [takeRecord_stalls h r e room v hp free]
      obtain ⟨_, eds, _, chan, _⟩ := record_stalled h free (u.recordIn c).corrected (u.groupOf (u.recordIn c).cls)
      exact ⟨eds, _, _, some ((u.recordIn c).corrected, u.groupOf (u.recordIn c).cls), by rw [chan]⟩
    · rw [takeRecord_new h r e room v hp free]
      obtain ⟨_, fin, eds, _⟩ := record_placed
        (w := ((accepting u c f).newPage c (u.recordKey c f)).writePlace u.pool.serial (u.recordIn c).corrected) h rfl
      obtain ⟨due, n, hf⟩ := fin.file
      exact ⟨eds, due, n, f.held, hf⟩

/-- In the OPEN page of its group the record stands last. -/
theorem record_in_open {p : Page} (hp : u.openPage c (u.groupOf (u.recordIn c).cls) = some p) :
    ((u.chan c).finalTotal = none → ((u.takeRecord c).settle.chan c).state = .running) ∧
    ∃ q ∈ (u.takeRecord c).settle.pool.pages, q.serial = p.serial ∧ q.key = p.key ∧ q.owner = some c ∧ q.committed = p.committed ∧
      q.sealedUp = decide (1024 ≤ p.places.length + 1) ∧
      q.places.map Place.data = p.places.map Place.data ++ [(u.recordIn c).corrected] := by
  obtain ⟨run, _⟩ := recordReady_iff.mp h.ready
  obtain ⟨mem, owner, sealedUp⟩ := openPage_some hp
  rw [takeRecord_open h r e room v hp]
  obtain ⟨_, fin, _, _, pages⟩ := record_placed (w := (accepting u c f).writePlace p.serial (u.recordIn c).corrected) h rfl
  obtain ⟨q, hq, kept⟩ := pages _ (writePlace_mem (by rw [accepting_pool]; exact mem) _)
  refine ⟨fun ht => (fin.goes ht).1.trans run, q, hq, ?_⟩
  have data := kept.data
  rw [kept.same]
  exact ⟨rfl, rfl, owner, rfl, by simp [grown, sealedUp], by simpa [grown] using data⟩

/-- In a page opened for it the record stands alone (R52, R53). -/
theorem record_in_new (hp : u.openPage c (u.groupOf (u.recordIn c).cls) = none) (free : u.poolHasPage = true) :
    ((u.chan c).finalTotal = none → ((u.takeRecord c).settle.chan c).state = .running) ∧
    (u.takeRecord c).settle.pool.serial = u.pool.serial + 1 ∧
    ∃ q ∈ (u.takeRecord c).settle.pool.pages, q.serial = u.pool.serial ∧ q.key = u.recordKey c f ∧ q.owner = some c ∧
      q.committed = 0 ∧ q.sealedUp = false ∧ q.places.map Place.data = [(u.recordIn c).corrected] := by
  obtain ⟨run, _⟩ := recordReady_iff.mp h.ready
  have opened : ({ key := u.recordKey c f, owner := some c, serial := u.pool.serial, sealedUp := false, committed := 0,
                   places := [] } : Page) ∈ ((accepting u c f).newPage c (u.recordKey c f)).pool.pages := by
    rw [newPage, onPool_pool, accepting_pool]
    exact List.mem_append_right _ (by simp)
  rw [takeRecord_new h r e room v hp free]
  obtain ⟨_, fin, _, serial, pages⟩ := record_placed
    (w := ((accepting u c f).newPage c (u.recordKey c f)).writePlace u.pool.serial (u.recordIn c).corrected) h rfl
  obtain ⟨q, hq, kept⟩ := pages _ (writePlace_mem opened _)
  refine ⟨fun ht => (fin.goes ht).1.trans run, ?_, q, hq, ?_⟩
  · rw [serial, ← accepting_pool (u := u) (c := c) (f := f)]
    rfl
  · have data := kept.data
    rw [kept.same]
    exact ⟨rfl, rfl, rfl, rfl, by simp [grown], by simpa [grown] using data⟩

end accepted

/-- Settles O23: the outcomes one by one, each from its equation. -/
theorem recordIsSeenAndCounted : Obligations.RecordIsSeenAndCounted := by
  intro bus c f s a ready file alone reads raw g k j n seen cl Passed
  have h : Takes (at_ bus s) c f := ⟨ready, file, alone, reads⟩
  obtain ⟨ret, kept, off⟩ := recordTake_frame bus c s
  obtain ⟨run, _⟩ := recordReady_iff.mp ready
  have counted := record_counted (u := at_ bus s) h
  refine ⟨_, exec_recordTake bus c a, fun n => (counted n).recon, ret, record_others (u := at_ bus s) h, kept, off,
    fun ht n => (counted n).drained ht,
    fun r => ?_, fun r e => ?_, fun r e room v => ?_, fun r e room v => ?_, fun r e full => ?_⟩
  · obtain ⟨_, fin, ns⟩ := record_passed h (takeRecord_rejected h r)
    exact ⟨⟨ns, finished_map fin (fun x => (x.work, x.pendingGaps, x.filled, x.held)) fun _ _ => rfl⟩,
      finished_map fin File.account fun _ _ => rfl⟩
  · obtain ⟨_, fin, ns⟩ := record_passed h (takeRecord_expired h r e)
    exact ⟨⟨ns, finished_map fin (fun x => (x.work, x.pendingGaps, x.filled, x.held)) fun _ _ => rfl⟩,
      finished_map fin File.account fun _ _ => rfl⟩
  · obtain ⟨_, fin, ns⟩ := record_passed h (takeRecord_duplicate h r e room v)
    obtain ⟨work, gaps⟩ := duplicate_work (u := at_ bus s) v _ _
    refine ⟨⟨ns, (finished_map fin (fun x => (x.work, x.pendingGaps, x.filled, x.held)) fun _ _ => rfl).trans ?_⟩,
      finished_map fin File.account fun _ _ => rfl, finished_map fin File.pendingGaps fun _ _ => rfl,
      finished_map fin (fun x => x.work.expected) fun _ _ => rfl⟩
    dsimp only
    rw [work, gaps]
    rfl
  · obtain ⟨eds, due, m, held, hf⟩ := record_accepted h r e room v
    rw [hf]
    refine ⟨rfl, rfl, rfl, eds, fun p hp => record_in_open (u := at_ bus s) h r e room v hp,
      fun hp free => record_in_new (u := at_ bus s) h r e room v hp free,
      fun hp full => ?_⟩
    rw [← hf, takeRecord_stalls h r e room v hp full]
    obtain ⟨_, _, stalled, chan, count⟩ := record_stalled h full ((at_ bus s).recordIn c).corrected
      ((at_ bus s).groupOf ((at_ bus s).recordIn c).cls)
    rw [chan]
    exact ⟨rfl, rfl, rfl, stalled, count⟩
  · obtain ⟨_, cut, eds, ended⟩ := record_overflow h (takeRecord_overflow h r e full)
    refine ⟨cut.state, cut.owner, cut.gaps, cut.expected, eds, cut.serial, fun ready => ⟨cut.sent ready, fun fits => ?_⟩⟩
    have ended := ended ready fits
    exact ⟨ended.chan, ended.binding, ended.answered⟩

end Sys2Proof.Claims
end

section
/-! SUPPORT. The final commit point and the close of a file (R57, R59), for O29. -/

namespace Sys2Proof.Machine.State

open Sys2Proof.Claims

variable {u s t : State} {c d : ChanNo} {f : File}

/-! ## The merge (R57 step 1) -/

/-- The gap table and the entries of the merge of a file. -/
def mergedGaps (f : File) (s : State) : List Range × List EntryBody :=
  mergeGaps f.switch s.ret.day f.pendingGaps s.recon.gaps

/-- The switch's context in which a file is merged. -/
def mergedCtx (c : ChanNo) (f : File) (s : State) : SwitchCtx :=
  { s.switchCtx f.switch with
    expected := f.work.expected, highDay := f.work.highDay, register := f.work.register,
    accepted := (s.switchCtx f.switch).accepted + (f.account.counts.accepted - (s.committed c).counts.accepted),
    duplicates := (s.switchCtx f.switch).duplicates + (f.account.counts.duplicates - (s.committed c).counts.duplicates) }

/-- The engine with a file merged into the two tables, before the merge's entries are submitted. -/
def mergeInto (c : ChanNo) (f : File) (s : State) : State :=
  ((s.setSwitch f.switch (s.mergedCtx c f)).onRecon fun r => { r with gaps := (s.mergedGaps f).1 }).onFile c
    fun y => { y with work := s.mergedCtx c f, pendingGaps := [] }

theorem mergeFile_eq (c : ChanNo) (f : File) (s : State) :
    s.mergeFile c f = submitAll (.chan c) [.chanOn c] (s.mergedGaps f).2 (s.mergeInto c f) := rfl

theorem mergeFile_quiet (c : ChanNo) (f : File) (s : State) : Quiet (s.mergeInto c f) (s.mergeFile c f).1 :=
  submitAll_quiet _ _ _ _

theorem mergeInto_switch (h : (s.switchCtx f.switch).state = .feeding) :
    (s.mergeInto c f).switchCtx f.switch = s.mergedCtx c f := by
  have ne : (s.mergedCtx c f).state ≠ .unseen := fun e => by
    have := h.symm.trans e
    cases this
  exact setSwitch_switchCtx f.switch ne s

theorem mergeInto_becomes (hf : (s.chan c).file = some f) : Becomes c
    { s.chan c with file := some { f with work := s.mergedCtx c f, pendingGaps := [] } } s (s.mergeInto c f) := by
  have := onChan_becomes (c := c) (s := s) fun ch =>
    { ch with file := ch.file.map fun y => { y with work := s.mergedCtx c f, pendingGaps := [] } }
  rw [hf] at this
  exact this

/-! ## The commit point (R57) and the final one (R59 step 1) -/

/-- Steps 2 and 3 of a commit point, with the channel on its way to the close of its file. -/
def commitOn (c : ChanNo) (b : Option Binding) (s : State) : State :=
  ((s.commitPages c).setBinding c b).onChan c fun ch => { ch with closing := .committed }

theorem commitOn_recon (b : Option Binding) (s : State) : (s.commitOn c b).recon = s.recon := rfl
theorem commitOn_jnl (b : Option Binding) (s : State) : (s.commitOn c b).jnl = s.jnl := rfl
theorem commitOn_coder (b : Option Binding) (s : State) : (s.commitOn c b).coder = s.coder := rfl
theorem commitOn_cat (b : Option Binding) (s : State) : (s.commitOn c b).cat = s.cat := rfl
theorem commitOn_engine (b : Option Binding) (s : State) : (s.commitOn c b).engine = s.engine := rfl
theorem commitOn_pool (b : Option Binding) (s : State) : (s.commitOn c b).pool = (s.commitPages c).pool := rfl
theorem commitOn_stands (b : Option Binding) (s : State) : SlipsStand s (s.commitOn c b) := .of_same rfl rfl rfl
theorem commitOn_feed (b : Option Binding) (s : State) : (s.commitOn c b).feed =
    ((s.setBinding c b).onChan c fun ch => { ch with closing := .committed }).feed := rfl

/-- The engine after the three steps of a final commit point. -/
def committing (c : ChanNo) (f : File) (s : State) : State :=
  (s.mergeFile c f).1.commitOn c (some { slip := (s.chan c).slip, file := some (f.switch, f.account) })

theorem committing_feed (c : ChanNo) (f : File) (s : State) : (s.committing c f).feed =
    (((s.mergeInto c f).setBinding c (some { slip := (s.chan c).slip, file := some (f.switch, f.account) })).onChan c
      fun ch => { ch with closing := .committed }).feed := by
  rw [committing, commitOn_feed, onChan, onFeed_feed, setBinding, onFeed_feed, (mergeFile_quiet c f s).feed]
  rfl

theorem committing_chan (hf : (s.chan c).file = some f) : (s.committing c f).chan c =
    { s.chan c with file := some { f with work := s.mergedCtx c f, pendingGaps := [] }, closing := .committed } := by
  have : ((s.mergeInto c f).setBinding c (some { slip := (s.chan c).slip, file := some (f.switch, f.account) })).chan c =
      (s.mergeInto c f).chan c := rfl
  rw [chan_congr (committing_feed c f s), onChan_chan_self, this, (mergeInto_becomes hf).chan]

theorem committing_others (hf : (s.chan c).file = some f) : OtherChans c s (s.committing c f) := fun d hd => by
  rw [chan_congr (committing_feed c f s), onChan_chan_ne _ hd]
  exact (mergeInto_becomes hf).others d hd

theorem committing_stalled (c : ChanNo) (f : File) (s : State) : (s.committing c f).feed.stalled = s.feed.stalled := by
  rw [committing_feed]
  rfl

theorem committing_binding (c : ChanNo) (f : File) (s : State) : bget (s.committing c f).feed.bindings c =
    some { slip := (s.chan c).slip, file := some (f.switch, f.account) } := by
  rw [committing_feed]
  exact bget_bset_self _ _ _

theorem committing_recon (c : ChanNo) (f : File) (s : State) : (s.committing c f).recon = (s.mergeInto c f).recon := by
  rw [committing, commitOn_recon, (mergeFile_quiet c f s).recon]

theorem committing_engine (c : ChanNo) (f : File) (s : State) : (s.committing c f).engine = s.engine := by
  rw [committing, commitOn_engine, (mergeFile_quiet c f s).engine]
  rfl

theorem committing_jnl (c : ChanNo) (f : File) (s : State) : (s.committing c f).jnl = (s.mergeFile c f).1.jnl := by
  rw [committing, commitOn_jnl]

theorem committing_stands (c : ChanNo) (f : File) (s : State) : SlipsStand s (s.committing c f) := by
  have merged : SlipsStand s (s.mergeInto c f) := .of_same rfl rfl rfl
  rw [committing]
  exact (merged.trans (.of_quiet (mergeFile_quiet c f s))).trans (commitOn_stands _ _)

theorem committing_holds (h : CoderHolds s) : CoderHolds (s.committing c f) := by
  have coder : (s.mergeFile c f).1.coder = s.coder := mergeFile_does (same_coder.mono rfl) c f rfl
  have cat : (s.mergeFile c f).1.cat = s.cat := mergeFile_does (same_cat.mono rfl) c f rfl
  refine coderHolds_congr ?_ ?_ h
  · rw [committing, commitOn_coder, coder]
  · rw [committing, commitOn_cat, cat]

theorem commitLast_eq (l : s.feed.stalled = []) : s.commitLast c f =
    if (s.mergeFile c f).2 then (s.committing c f).runCoder.closeOn c else (s.committing c f).runCoder := by
  have stalled : (s.committing c f).feed.stalled = [] := (congrArg Feed.stalled (mergeFile_quiet c f s).feed).trans l
  have closing : ((s.committing c f).runCoder.chan c).closing = .committed := by
    rw [(runCoder_quiet _).chan, committing, commitOn, onChan_chan_self]
  have on : (s.committing c f).runCoder.chanOn c = (s.committing c f).runCoder.closeOn c := by simp [chanOn, closing]
  show (if (s.mergeFile c f).2 then (s.committing c f).resumeStalled.runCoder.chanOn c
    else (s.committing c f).resumeStalled.runCoder) = _
  rw [resumeStalled_of_noneResumes (.inl stalled), on]


/-! ## A committed page (R57 step 2, R59 step 2) -/

/-- A page of the pool stands committed as far as it was written, whoever owns it now, unless each of its places was RELEASED. -/
def Commits (p : Page) (t : State) : Prop :=
  (∃ q ∈ t.pool.pages, PageKept { p with committed := p.places.length, owner := q.owner, sealedUp := q.sealedUp } q) ∨
    ∀ x ∈ p.places, x.standing = .released

theorem commits_quiet {p : Page} (q : Quiet s t) (h : Commits p s) : Commits p t := by
  obtain ⟨r, hr, kept⟩ | released := h
  · obtain ⟨r', hr', kept'⟩ := q.page hr
    refine .inl ⟨r', hr', ?_⟩
    have : r'.owner = r.owner ∧ r'.sealedUp = r.sealedUp := by rw [kept'.same]; exact ⟨rfl, rfl⟩
    rw [this.1, this.2]
    exact kept.trans kept'
  · exact .inr released

/-- A page that stands committed leaves the pool only where each of its places is RELEASED (R55). -/
theorem commits_freePages {p q : Page} (hq : q ∈ s.pool.pages)
    (kept : PageKept { p with committed := p.places.length, owner := q.owner, sealedUp := q.sealedUp } q) : Commits p s.freePages := by
  cases e : q.done
  · exact .inl ⟨q, List.mem_filter.mpr ⟨hq, by simp [e]⟩, kept⟩
  · simp only [Page.done, Bool.and_eq_true, List.all_eq_true, beq_iff_eq] at e
    exact .inr (kept.released e.2)

theorem commits_commitPages {p q : Page} (owner : p.owner = some c) (kept : PageKept p q) (hq : q ∈ s.pool.pages) :
    Commits p (s.commitPages c) := by
  have owner' : q.owner = some c := by rw [kept.same]; exact owner
  have length : q.places.length = p.places.length := kept.places.length_eq.symm
  refine commits_freePages (List.mem_map.mpr ⟨q, hq, rfl⟩) ?_
  rw [if_pos owner', length]
  refine ⟨?_, kept.places⟩
  rw [kept.same]

theorem commits_letGoPages {p : Page} (h : Commits p s) : Commits p (s.letGoPages c) := by
  obtain ⟨q, hq, kept⟩ | released := h
  · refine commits_freePages (List.mem_map.mpr ⟨q, hq, rfl⟩) ⟨?_, ?_⟩
    · split <;> rw [kept.same]
    · split <;> exact kept.places
  · exact .inr released

theorem letGoPages_noOwner (c : ChanNo) (s : State) : ∀ p ∈ (s.letGoPages c).pool.pages, p.owner ≠ some c := by
  intro p hp
  obtain ⟨hp, _⟩ := List.mem_filter.mp hp
  obtain ⟨q, _, rfl⟩ := List.mem_map.mp hp
  split
  · simp
  · assumption

/-! ## The rest of R59 -/

theorem releaseSwitch_switchCtx {n : Nat} (h : (s.switchCtx n).state = .feeding) :
    (s.releaseSwitch n).switchCtx n = { s.switchCtx n with state := .idle } := by
  rw [releaseSwitch]
  dsimp only
  rw [if_pos h]
  exact setSwitch_switchCtx n (x := { s.switchCtx n with state := .idle }) (fun e => by cases e) _

theorem submitted_congr {b : EntryBody} (h : t.jnl = s.jnl) (hb : Submitted b s) : Submitted b t := by
  unfold Submitted
  rw [h]
  exact hb

theorem submitClosing_keeps {b : EntryBody} (before pair later : List EntryBody) (hp : pair ≠ []) (h : Submitted b s) :
    Submitted b (submitClosing c before pair later s) := by
  obtain ⟨y, posts, _, cases, _⟩ := submitClosing_reaches c before pair later hp s
  obtain e | e := cases
  · rw [e]
    exact posts.submitted b h
  · rw [e]
    exact submitted_congr (chanDone_jnl c y) (posts.submitted b h)

/-- The entries that close a file (R59 step 4). -/
def closingEntries (f : File) : List EntryBody :=
  trailingEntries f.switch f.trailing ++ closedPair f.switch f.account f.filled ++ laterEntries f

theorem closingEntries_length (f : File) :
    (trailingEntries f.switch f.trailing).length +
      ((closedPair f.switch f.account f.filled).length + (laterEntries f).length) ≤ 5 := by
  have trailing : (trailingEntries f.switch f.trailing).length ≤ 1 := by
    unfold trailingEntries
    split <;> simp
  have balance : (balanceEntries f.switch f.day f.account).length ≤ 1 := by
    unfold balanceEntries
    split <;> simp
  have restart := restartEntries_length f.switch f.account.restarts f.work.expected
  simp only [closedPair, laterEntries, List.length_append, List.length_cons, List.length_nil]
  omega

/-- The closing entries that a file calls for, one by one (R59 step 4, R63, R72, R81). -/
theorem closing_sent (h : ∀ b ∈ closingEntries f, Submitted b t) :
    (f.trailing ≠ 0 → Submitted (EntryBody.mk0 .trailingBytes (.switch f.switch) f.trailing 0 0) t) ∧
    Submitted (EntryBody.mk0 .fileClosed (.switch f.switch) f.account.counts.seen f.account.counts.accepted
      f.account.counts.rejected) t ∧
    Submitted (EntryBody.mk0 .fileClosed (.switch f.switch) f.account.counts.duplicates f.account.counts.clamped f.filled) t ∧
    (f.account.restarts ≠ 0 → Submitted (EntryBody.mk0 .sequenceRestart (.switch f.switch) f.account.restarts
      ((f.work.expected.map BitVec.toNat).getD 0) 0) t) ∧
    (f.account.countBal ≠ 0 ∨ f.account.chargeBal ≠ 0 → Submitted (EntryBody.mk0 .balanceMismatch (.switch f.switch)
      f.account.countBal f.account.chargeBal.toNat f.day) t) := by
  refine ⟨fun ne => h _ ?_, h _ ?_, h _ ?_, fun ne => h _ ?_, fun ne => h _ ?_⟩
  · simp [closingEntries, trailingEntries, ne]
  · simp [closingEntries, closedPair]
  · simp [closingEntries, closedPair]
  · simp [closingEntries, laterEntries, restartEntries, ne]
  · have : ¬(f.account.countBal = 0 ∧ f.account.chargeBal = 0) := not_and_or.mpr ne
    rw [closingEntries, laterEntries, balanceEntries, if_neg this]
    simp

section letGo
variable (c : ChanNo) (f : File) (s : State)
theorem letGo_pool : (s.letGo c f).pool = (s.letGoPages c).pool := releaseSwitch_does (same_pool.mono rfl) f.switch rfl
theorem letGo_jnl : (s.letGo c f).jnl = s.jnl := releaseSwitch_does (same_jnl.mono rfl) f.switch rfl
theorem letGo_engine : (s.letGo c f).engine = s.engine := releaseSwitch_does (same_engine.mono rfl) f.switch rfl
theorem letGo_gaps : (s.letGo c f).recon.gaps = s.recon.gaps := releaseSwitch_gaps f.switch _
theorem letGo_stands : SlipsStand s (s.letGo c f) :=
  .of_same (releaseSwitch_does (same_desk.mono rfl) f.switch rfl) (releaseSwitch_does (same_fails.mono rfl) f.switch rfl)
    (releaseSwitch_does (same_mem.mono rfl) f.switch rfl)
end letGo

/-- What the close of a file makes of the switch, the pages and the journal. -/
structure Closes (c : ChanNo) (f : File) (s t : State) : Prop where
  switch : t.switchCtx f.switch = { s.switchCtx f.switch with state := .idle }
  gaps : t.recon.gaps = s.recon.gaps
  owner : ∀ p ∈ t.pool.pages, p.owner ≠ some c
  pages : ∀ p, Commits p s → Commits p t
  submitted : ∀ b, Submitted b s → Submitted b t
  sent : s.engine = .ready → ∀ b ∈ closingEntries f, Submitted b t

theorem Closes.quiet (h : Closes c f s t) (q : Quiet t u) : Closes c f s u where
  switch := by rw [q.switchCtx]; exact h.switch
  gaps := by rw [q.recon]; exact h.gaps
  owner := noOwner_quiet q h.owner
  pages p hp := commits_quiet q (h.pages p hp)
  submitted b hb := q.submitted (h.submitted b hb)
  sent e b hb := q.submitted (h.sent e b hb)

theorem closeOn_closes (hf : (s.chan c).file = some f) (l : s.feed.stalled = []) (feeding : (s.switchCtx f.switch).state = .feeding) :
    Closes c f s (s.closeOn c) := by
  rw [closeOn_eq hf l]
  refine Closes.quiet ?_ (runCoder_quiet _)
  have recon := submitClosing_recon c (trailingEntries f.switch f.trailing) (closedPair f.switch f.account f.filled) (laterEntries f)
    (s.letGo c f)
  have pool := submitClosing_pool c (trailingEntries f.switch f.trailing) (closedPair f.switch f.account f.filled) (laterEntries f)
    (s.letGo c f)
  rw [letGo_pool] at pool
  refine ⟨?_, by rw [recon, letGo_gaps], ?_, fun p hp => ?_, fun b hb => ?_, fun ready b hb => ?_⟩
  · rw [switchCtx, recon]
    exact releaseSwitch_switchCtx feeding
  · rw [pool]
    exact letGoPages_noOwner c s
  · unfold Commits
    rw [pool]
    exact commits_letGoPages hp
  · exact submitClosing_keeps _ _ _ (closedPair_ne_nil _ _ _) (submitted_congr (letGo_jnl c f s) hb)
  · exact submitClosing_submitted c _ _ _ (closedPair_ne_nil _ _ _) ((letGo_engine c f s).trans ready) b hb

/-- A close whose entries fit ends the channel with its answer (R59 steps 5 and 6). -/
theorem closeOn_ended (hf : (s.chan c).file = some f) (l : s.feed.stalled = []) (ready : s.engine = .ready) (fits : EntriesFit 5 s)
    (h : SlipsStand u s) (o : OtherChans c u s) (lu : u.feed.stalled = []) :
    Ended u c (s.chan c).slip .done (ingestValues (s.chan c).drained f.account) (s.closeOn c) := by
  have go := letGo_becomes c f s
  have ended := submitClosing_ended (u := u) (trailingEntries f.switch f.trailing) (closedPair f.switch f.account f.filled)
    (laterEntries f) (closedPair_ne_nil _ _ _) ((letGo_engine c f s).trans ready)
    ((entriesFit_congr (letGo_jnl c f s)).mpr (entriesFit_mono fits (closingEntries_length f))) (h.trans (letGo_stands c f s))
    (otherChans_trans o go.others) (go.stalled.trans (l.trans lu.symm)) (by rw [go.chan])
  rw [go.chan] at ended
  rw [closeOn_eq hf l]
  exact ended.quiet (runCoder_quiet _)

/-! ## The merged file -/

/-- A file as its merge leaves it in the channel. -/
def mergedFile (c : ChanNo) (f : File) (s : State) : File := { f with work := s.mergedCtx c f, pendingGaps := [] }

/-- What the final commit point makes of the tables, the pages and the journal. -/
structure Merged (u : State) (c : ChanNo) (f : File) (t : State) : Prop where
  gaps : t.recon.gaps = (u.mergedGaps f).1
  sent : u.engine = .ready → ∀ b ∈ (u.mergedGaps f).2, Submitted b t
  pages : ∀ p ∈ u.pool.pages, p.owner = some c → Commits p t

theorem Merged.quiet (h : Merged u c f s) (q : Quiet s t) : Merged u c f t where
  gaps := by rw [q.recon]; exact h.gaps
  sent e b hb := q.submitted (h.sent e b hb)
  pages p hp o := commits_quiet q (h.pages p hp o)

theorem Merged.closes (h : Merged u c f s) (k : Closes c (u.mergedFile c f) s t) : Merged u c f t where
  gaps := k.gaps.trans h.gaps
  sent e b hb := k.submitted b (h.sent e b hb)
  pages p hp o := k.pages p (h.pages p hp o)

theorem committing_merged (c : ChanNo) (f : File) (u : State) : Merged u c f (u.committing c f) := by
  have q := mergeFile_quiet c f u
  refine ⟨by rw [committing_recon]; rfl, fun ready b hb => ?_, fun p hp owner => ?_⟩
  · refine submitted_congr (committing_jnl c f u) ?_
    rw [mergeFile_eq]
    exact submitAll_submitted (s := u.mergeInto c f) ready _ _ _ b hb
  · obtain ⟨r, hr, kept⟩ := q.page (p := p) hp
    unfold Commits
    rw [committing, commitOn_pool]
    exact commits_commitPages owner kept hr

end Sys2Proof.Machine.State

namespace Sys2Proof.Claims

open Sys2Proof.Machine Sys2Proof.Machine.State

variable {u s t : State} {c : ChanNo} {f : File}

/-- A file that reaches its final commit point, where no channel waits for a page. -/
structure Ends (u : State) (c : ChanNo) (f : File) : Prop where
  state : (u.chan c).state = .ending
  file : (u.chan c).file = some f
  closing : (u.chan c).closing = .none
  clear : u.waits (.chan c) = false
  alone : u.feed.stalled = []
  feeding : (u.switchCtx f.switch).state = .feeding

theorem makeCommit_ending (h : Ends u c f) : u.makeCommit c =
    if (u.mergeFile c f).2 then (u.committing c f).runCoder.closeOn c else (u.committing c f).runCoder := by
  rw [← commitLast_eq h.alone]
  simp [makeCommit, h.closing, h.clear, h.file, h.state]

/-- COMMIT_POINT of an engine that acts is the commit point, and what follows of itself. -/
theorem exec_commitPoint (bus : Bus) (c : ChanNo) {s : State} (a : Acts s) :
    Machine.exec (.commitPoint c bus) s = .next ((at_ bus s).makeCommit c).settle :=
  congrArg Host.Outcome.next (s.commandedOn_on bus _ a.1 a.2)

/-- COMMIT_POINT touches neither the retention unit nor the editions, nor what lies outside the blocks that carry work. -/
theorem commitPoint_frame (bus : Bus) (c : ChanNo) (s : State) :
    let t := ((at_ bus s).makeCommit c).settle
    t.ret = s.ret ∧ t.eds = s.eds ∧ Kept s t :=
  ⟨settle_does (same_ret.mono rfl) (makeCommit_does (same_ret.mono rfl) c rfl),
    settle_does (same_eds.mono rfl) (makeCommit_does (same_eds.mono rfl) c rfl),
    settle_does (keeps_kept.mono rfl) (makeCommit_does (keeps_kept.mono rfl) c (onBus_does (keeps_kept.mono rfl) bus (Kept.refl s)))⟩

/-! ## The engine when the coder has had its turn after the final commit point -/

theorem committed_merged (u : State) (c : ChanNo) (f : File) : Merged u c f (u.committing c f).runCoder :=
  (committing_merged c f u).quiet (runCoder_quiet _)

section committed
variable (h : Ends u c f)
include h

theorem committed_chan : (u.committing c f).runCoder.chan c =
    { u.chan c with file := some (u.mergedFile c f), closing := .committed } := by
  rw [(runCoder_quiet _).chan, committing_chan h.file]
  rfl

theorem committed_stalled : (u.committing c f).runCoder.feed.stalled = [] := by
  rw [(runCoder_quiet _).feed, committing_stalled, h.alone]

theorem committed_switch : (u.committing c f).runCoder.switchCtx f.switch = u.mergedCtx c f := by
  rw [(runCoder_quiet _).switchCtx, switchCtx, committing_recon]
  exact mergeInto_switch h.feeding

theorem committed_closes : Closes c (u.mergedFile c f) (u.committing c f).runCoder ((u.committing c f).runCoder.closeOn c) := by
  refine closeOn_closes (by rw [committed_chan h]) (committed_stalled h) ?_
  rw [show (u.mergedFile c f).switch = f.switch from rfl, committed_switch h]
  exact h.feeding

theorem commit_stalled : (u.makeCommit c).feed.stalled = [] := by
  rw [makeCommit_ending h]
  split
  · exact (closeOn_others (committed_stalled h)).2
  · exact committed_stalled h

theorem commit_settles : Quiet (u.makeCommit c) (u.makeCommit c).settle := settle_quiet (.inl (commit_stalled h))

/-- Whatever the journal takes, the file is merged, its switch context all but the state (R57 step 1). -/
theorem commit_merged : Merged u c f (u.makeCommit c).settle ∧
    ∃ st, (u.makeCommit c).settle.switchCtx f.switch = { u.mergedCtx c f with state := st } := by
  have q := commit_settles h
  rw [q.switchCtx]
  refine ⟨Merged.quiet ?_ q, ?_⟩ <;> rw [makeCommit_ending h] <;> split
  · exact (committed_merged u c f).closes (committed_closes h)
  · exact committed_merged u c f
  · exact ⟨.idle, (committed_closes h).switch.trans (by rw [← committed_switch h]; rfl)⟩
  · exact ⟨_, committed_switch h⟩

/-- The merge's entries taken, the switch is released, its pages are let go, and the closing entries submitted (R59 steps 2 to 4). -/
theorem commit_taken (taken : (u.mergeFile c f).2 = true) :
    Closes c (u.mergedFile c f) (u.committing c f).runCoder (u.makeCommit c).settle := by
  have q := commit_settles h
  rw [makeCommit_ending h, if_pos taken] at q ⊢
  exact (committed_closes h).quiet q

/-- The merge's entries not taken, the channel waits before the rest of R59 (R50). -/
theorem commit_waits (full : (u.mergeFile c f).2 = false) :
    let t := (u.makeCommit c).settle
    t.chan c = { u.chan c with file := some (u.mergedFile c f), closing := .committed } ∧ t.waits (.chan c) = true ∧
    t.switchCtx f.switch = u.mergedCtx c f ∧
    bget t.feed.bindings c = some { slip := (u.chan c).slip, file := some (f.switch, f.account) } := by
  have waits : (u.committing c f).waits (.chan c) = true := by
    rw [waits, committing_jnl]
    exact submitAll_waits _ _ _ full
  have q := commit_settles h
  rw [makeCommit_ending h, if_neg (by simp [full])] at q ⊢
  refine ⟨(q.chan c).trans (committed_chan h), q.waits ((runCoder_quiet _).waits waits),
    (q.switchCtx _).trans (committed_switch h), ?_⟩
  rw [q.feed, (runCoder_quiet _).feed]
  exact committing_binding c f u

/-- Where the journal can take everything at once and the coder holds a block, the channel is done at once (R59 steps 5 and 6). -/
theorem commit_ended (ready : u.engine = .ready) (fits : EntriesFit ((u.mergedGaps f).2.length + 5) u) (holds : CoderHolds u) :
    Ended u c (u.chan c).slip .done (ingestValues (u.chan c).drained f.account) (u.makeCommit c).settle := by
  have merged := submitAll_of_fits (s := u.mergeInto c f) ready (.chan c) [.chanOn c] (u.mergedGaps f).2
    (entriesFit_mono (n := (u.mergedGaps f).2.length + 5) fits (by omega))
  rw [← mergeFile_eq] at merged
  obtain ⟨taken, took⟩ := merged
  have five : EntriesFit 5 (u.committing c f) :=
    (entriesFit_congr (committing_jnl c f u)).mpr (entriesFit_of_took (s := u.mergeInto c f) took fits)
  have chan := committed_chan h
  have stalled := committed_stalled h
  have q := commit_settles h
  rw [makeCommit_ending h, if_pos taken] at q ⊢
  rw [runCoder_of_holds (committing_holds holds)] at chan stalled q ⊢
  have ended := closeOn_ended (u := u) (f := u.mergedFile c f) (by rw [chan]) stalled ((committing_engine c f u).trans ready) five
    (committing_stands c f u) (committing_others h.file) h.alone
  rw [chan] at ended
  exact ended.quiet q

end committed

/-- Settles O29: the final commit point, and by what the journal takes of it the close of the file or the wait. -/
theorem endOfFileReleasesTheSwitch : Obligations.EndOfFileReleasesTheSwitch := by
  intro bus c f s a state file closing clear alone feeding merged n
  have h : Ends (at_ bus s) c f := ⟨state, file, closing, clear, alone, feeding⟩
  obtain ⟨ret, eds, kept⟩ := commitPoint_frame bus c s
  obtain ⟨m, st, ctx⟩ := commit_merged (u := at_ bus s) h
  refine ⟨_, exec_commitPoint bus c a, ret, eds, kept, ?_⟩
  rw [ctx]
  refine ⟨rfl, rfl, rfl, rfl, rfl, m.gaps, m.sent, fun p hp owner => ?_, fun taken => ?_, fun ready fits holds => ?_, fun full => ?_⟩
  · obtain ⟨q, hq, page⟩ | released := m.pages p hp owner
    · have data := page.data
      refine .inl ⟨q, hq, ?_⟩
      rw [page.same]
      exact ⟨rfl, rfl, rfl, data⟩
    · exact .inr released
  · have closes := commit_taken (u := at_ bus s) h taken
    refine ⟨?_, closes.owner, fun ready => ?_⟩
    · rw [← ctx]
      exact congrArg SwitchCtx.state closes.switch
    · exact closing_sent (closes.sent ((runCoder_quiet _).engine.trans ((committing_engine c f _).trans ready)))
  · have ended := commit_ended (u := at_ bus s) h ready fits holds
    refine ⟨ended.chan, ended.binding, fun i hi gives => ?_⟩
    obtain ⟨held, _, answered⟩ := ended.answered i hi
    obtain ⟨map, mem⟩ := answered gives
    exact ⟨map, held, fun fits w => mem fits (wf_onBus bus w) fun d hd => by rw [h.alone] at hd; cases hd⟩
  · obtain ⟨chan, waits, switch, binding⟩ := commit_waits (u := at_ bus s) h full
    rw [chan, ← ctx, switch]
    exact ⟨state, rfl, waits, feeding, binding⟩

end Sys2Proof.Claims
end

section
/-! SUPPORT. The states that a power-on without the stamp gives (R41, R123), for O3 and O7. -/

namespace Sys2Proof.Machine

/-- A bank whose entries are set in turn holds at each number what that number was given. -/
theorem bget_foldl_bset {α : Type} {n : Nat} (f : Fin n → α) (is : List (Fin n)) (v : Vector α n) (i : Fin n) :
    bget (is.foldl (fun v j => bset v j (f j)) v) i = if i ∈ is then f i else bget v i := by
  induction is generalizing v with
  | nil => simp
  | cons j js ih =>
    rw [List.foldl_cons, ih]
    by_cases e : j = i
    · subst e
      simp
    · simp [bget_bset_ne _ _ _ _ e, Ne.symm e]

@[simp] theorem bget_replicate {α : Type} {n : Nat} (x : α) (i : Fin n) : bget (Vector.replicate n x) i = x := by
  simp [bget]

/-- The flags of a 16-bit mask, each at its place, add up to the mask. -/
theorem sum_flags (m : BitVec 16) :
    (indices 16).foldr (fun l acc => (if m.getLsbD l.val then 2 ^ l.val else 0) + acc) 0 = m.toNat := by
  have bit (i : Nat) : m.toNat % 2 ^ (i + 1) = m.toNat % 2 ^ i + if m.toNat.testBit i then 2 ^ i else 0 := by
    rw [pow_succ, Nat.mod_mul, Nat.testBit_eq_decide_div_mod_eq]
    obtain h | h := Nat.mod_two_eq_zero_or_one (m.toNat / 2 ^ i) <;> simp [h]
  have all : indices 16 = [0, 1, 2, 3, 4, 5, 6, 7, 8, 9, 10, 11, 12, 13, 14, 15] := rfl
  conv_rhs => rw [← Nat.mod_eq_of_lt m.isLt]
  simp only [bit, all, List.foldr]
  simp [BitVec.getLsbD]
  omega

namespace State

/-- The lanes of a start: each ONLINE exactly where its module answers (R123). -/
theorem laneStart_lane (present : BitVec 16) (s : State) (l : LaneNo) :
    bget (s.laneStart present).lanes.lane l = Lane.start (present.getLsbD l.val) :=
  (bget_foldl_bset (fun l : LaneNo => Lane.start (present.getLsbD l.val)) (indices 16) s.lanes.lane l).trans
    (if_pos (mem_indices l))

theorem onlineMask_of_start {present : BitVec 16} {s : State}
    (h : ∀ l, bget s.lanes.lane l = Lane.start (present.getLsbD l.val)) : s.onlineMask = present.toNat := by
  simp only [onlineMask, h]
  exact sum_flags present

theorem freeCount_of_blank {s : State} (h : s.engine = .blank) : s.freeCount = 0 := by simp [freeCount, tableBuilt, h]

/-- What a start-up finds before it restores anything: the lanes just started, the registers as they were, and none of the
working state (R123, R136, R197). -/
structure Dropped (present : BitVec 16) (s d : State) : Prop where
  powered : d.powered = s.powered
  stamp : d.stamp = s.stamp
  pending : d.pending = s.pending
  base : d.desk.base = s.desk.base
  period : d.desk.period = s.desk.period
  place : d.desk.place = s.desk.base.toNat
  lanes : ∀ l, bget d.lanes.lane l = Lane.start (present.getLsbD l.val)
  share : d.lanes.share = 0
  exec : d.exec = Exec.blank
  held : d.desk.held = Vector.replicate 64 .notHeld
  gate : d.desk.gateOpen = false

theorem dropWorking_dropped (present : BitVec 16) (torn : List (Nat × Byte)) (s : State) :
    Dropped present s ((s.tear torn).laneStart present).dropWorking where
  powered := by simp [dropWorking, laneStart, tear]
  stamp := by simp [dropWorking, laneStart, tear]
  pending := by simp [dropWorking, laneStart, tear]
  base := by simp [dropWorking, laneStart, tear, restartDesk]
  period := by simp [dropWorking, laneStart, tear, restartDesk]
  place := by simp [dropWorking, laneStart, tear, restartDesk]
  lanes := laneStart_lane present _
  share := by simp [dropWorking, laneStart]
  exec := by simp [dropWorking]
  held := by simp [dropWorking, restartDesk]
  gate := by simp [dropWorking, restartDesk]

/-- Without the stamp a start-up makes the engine BLANK (R197). -/
theorem startUp_blank (cause : StartCause) (present : BitVec 16) (start : Start) {s : State} (absent : s.stamp = false) :
    ∃ d, Dropped present s d ∧ s.startUp cause present start = d.becomeBlank cause := by
  have dropped := dropWorking_dropped present start.torn s
  refine ⟨_, dropped, ?_⟩
  unfold startUp
  exact if_neg (by simp [dropped.stamp, absent])

end State

end Sys2Proof.Machine
end

section
namespace Sys2Proof.Claims

open Sys2Proof.Machine

/-- Settles O3: the values of the reset state, read off. -/
theorem resetIsSafe : Obligations.ResetIsSafe := by
  have safe : State.reset.safe = true := by decide
  have counters (c : Counter) : bget State.reset.desk.counters c.index = 0 := bget_replicate _ _
  exact ⟨safe, rfl, rfl, rfl, rfl, rfl, rfl, rfl, rfl, by decide, State.freeCount_of_blank rfl, counters⟩

theorem exec_powerOn (present : BitVec 16) (start : Start) (s : State) :
    Machine.exec (.powerOn present start) s = .next (s.powerUp present start) := rfl

/-- Settles O7: without the stamp the start-up ends in `becomeBlank`, on the lanes that it has just started. -/
theorem powerOnWithoutStampIsBlank : Obligations.PowerOnWithoutStampIsBlank := by
  intro present start s absent
  obtain ⟨d, dropped, blank⟩ := State.startUp_blank .powerOn present start
    (s := { s with powered := true }.onDesk fun d => { d with base := 0, period := 0 }) absent
  have place : d.desk.place = 0 := dropped.place.trans rfl
  have held (i : SlipNo) : bget d.desk.held i = .notHeld := by rw [dropped.held, bget_replicate]
  have counters (c : Counter) : bget (Vector.replicate 8 (0 : Word32)) c.index = 0 := bget_replicate _ _
  exact ⟨_, (exec_powerOn present start s).trans (congrArg Host.Outcome.next blank), dropped.powered, rfl, rfl, dropped.base,
    dropped.period, place, dropped.lanes, State.onlineMask_of_start dropped.lanes, dropped.share, State.freeCount_of_blank rfl, rfl,
    rfl, rfl, dropped.exec, rfl, rfl, rfl, held, counters, dropped.gate, dropped.pending⟩

end Sys2Proof.Claims
end

section
/-! SUPPORT. The fields of a structure's bytes (R200), for O42: a field that starts where a part starts is that part's value. -/

namespace Sys2Proof.Machine

/-! ## The value of a field -/

theorem leValue_leBytes (n v : Nat) : leValue (leBytes n v) = v % 256 ^ n := by
  induction n generalizing v with
  | zero => simp [leBytes, leValue, Nat.mod_one]
  | succ n ih =>
    rw [leBytes, leValue, ih, BitVec.toNat_ofNat, pow_succ' 256 n, Nat.mod_mul]

theorem field_append_skip {a : List Byte} {o : Nat} (h : a.length ≤ o) (b : List Byte) (n : Nat) :
    field (a ++ b) o n = field b (o - a.length) n := by
  unfold field
  rw [List.drop_append, List.drop_eq_nil_of_le h, List.nil_append]

theorem field_append_here {a : List Byte} {n : Nat} (h : a.length = n) (b : List Byte) : field (a ++ b) 0 n = leValue a := by
  simp [field, ← h]

theorem field_whole {a : List Byte} {n : Nat} (h : a.length = n) : field a 0 n = leValue a := by
  simp [field, ← h]

theorem field_leBytes_append (n v : Nat) (b : List Byte) : field (leBytes n v ++ b) 0 n = v % 256 ^ n :=
  (field_append_here (leBytes_length n v) b).trans (leValue_leBytes n v)

theorem leValue_unsignedField (n v : Nat) : leValue (unsignedField n v) = min v (256 ^ n - 1) := by
  have : 0 < 256 ^ n := by positivity
  rw [unsignedField, leValue_leBytes, Nat.mod_eq_of_lt (by omega)]

theorem field_unsigned_append (n v : Nat) (b : List Byte) : field (unsignedField n v ++ b) 0 n = min v (256 ^ n - 1) :=
  (field_append_here (unsignedField_length n v) b).trans (leValue_unsignedField n v)

@[simp] theorem signedField_length (v : Int) : (signedField v).length = 4 := by simp [signedField]

/-- A signed field holds the value clamped to 32 bits (R200). -/
theorem signedField_value (v : Int) :
    (BitVec.ofNat 32 (leValue (signedField v))).toInt = max (-2147483648) (min v 2147483647) := by
  rw [signedField, leValue_leBytes, BitVec.toInt_ofNat', Int.bmod_def]
  omega

theorem field_byte_append (x : Byte) (b : List Byte) : field ([x] ++ b) 0 1 = x.toNat := by
  simpa using field_one ([x] ++ b) 0

/-! ## The journal entry -/

@[simp] theorem firstField_length (b : EntryBody) : b.firstField.length = 4 := by
  unfold EntryBody.firstField
  split <;> simp

theorem firstField_unsigned {b : EntryBody} (h : b.kind ≠ .balanceMismatch) :
    leValue b.firstField = min b.v1.toNat 4294967295 := by
  rw [EntryBody.firstField, if_neg h, leValue_unsignedField]
  rfl

theorem firstField_signed {b : EntryBody} (h : b.kind = .balanceMismatch) :
    (BitVec.ofNat 32 (leValue b.firstField)).toInt = max (-2147483648) (min b.v1 2147483647) := by
  rw [EntryBody.firstField, if_pos h, signedField_value]

/-- The byte of the finding bit, the second-of-a-pair bit and the subject kind (R202). -/
def Entry.flags (e : Entry) : Nat :=
  (if e.body.kind.finding then 1 else 0) + (if e.second then 2 else 0) + 4 * e.body.subject.kindCode

theorem Entry.flags_lt (e : Entry) : e.flags < 256 := by
  have : e.body.subject.kindCode ≤ 4 := by cases e.body.subject <;> simp [Subject.kindCode]
  unfold Entry.flags
  split <;> split <;> omega

theorem Entry.bytes_eq (e : Entry) : e.bytes =
    leBytes 8 e.seq ++ (leBytes 2 e.day ++ ([e.body.kind.code] ++ (leBytes 1 e.flags ++ (leBytes 4 e.body.subject.value ++
      (e.body.firstField ++ (unsignedField 8 e.body.v2 ++ unsignedField 4 e.body.v3)))))) := by
  simp only [Entry.bytes, Entry.flags, List.append_assoc]

theorem entry_length (e : Entry) : e.bytes.length = 32 := by simp [Entry.bytes_eq]

section entry
variable (e : Entry)

theorem entry_head : field e.bytes 0 8 = e.seq % 2 ^ 64 ∧ field e.bytes 8 2 = e.day % 65536 ∧
    field e.bytes 10 1 = e.body.kind.code.toNat ∧ field e.bytes 11 1 = e.flags := by
  have flags := Nat.mod_eq_of_lt e.flags_lt
  refine ⟨?_, ?_, ?_, ?_⟩ <;> rw [Entry.bytes_eq]
  · rw [field_leBytes_append]
    norm_num
  · rw [field_append_skip (by simp), leBytes_length, field_leBytes_append]
    norm_num
  · rw [field_append_skip (by simp), field_append_skip (by simp)]
    exact field_byte_append _ _
  · rw [field_append_skip (by simp), field_append_skip (by simp), field_append_skip (by simp)]
    simpa using (field_leBytes_append 1 e.flags _).trans flags

theorem entry_tail : field e.bytes 12 4 = e.body.subject.value % 2 ^ 32 ∧ field e.bytes 16 4 = leValue e.body.firstField ∧
    field e.bytes 20 8 = min e.body.v2 18446744073709551615 ∧ field e.bytes 28 4 = min e.body.v3 4294967295 := by
  refine ⟨?_, ?_, ?_, ?_⟩ <;> rw [Entry.bytes_eq, field_append_skip (by simp), field_append_skip (by simp),
    field_append_skip (by simp), field_append_skip (by simp)]
  · simpa using field_leBytes_append 4 e.body.subject.value _
  · rw [field_append_skip (by simp)]
    exact field_append_here (by simp) _
  · rw [field_append_skip (by simp), field_append_skip (by simp)]
    simpa using field_unsigned_append 8 e.body.v2 _
  · rw [field_append_skip (by simp), field_append_skip (by simp), field_append_skip (by simp)]
    simpa using (field_whole (unsignedField_length 4 e.body.v3)).trans (leValue_unsignedField 4 e.body.v3)

end entry

/-! ## The catalog summary -/

/-- The first 24 bytes of a summary: the segment, its standing, its key and its part. -/
def summaryHead (n : Nat) (st : LiveState) (g : Segment) (e : Extent) : List Byte :=
  leBytes 4 n ++ (leBytes 1 st.code ++ (leBytes 1 g.mark.code ++
    (leBytes 1 ((if e.fault then 1 else 0) + (if g.verified.isSome then 2 else 0)) ++ (leBytes 1 g.fails ++
    (unsignedField 2 e.erases ++ (leBytes 1 g.pins ++ (leBytes 1 g.key.group ++ (leBytes 2 g.key.switch ++
    (leBytes 2 g.key.day ++ (leBytes 2 g.part ++ (leBytes 2 (g.verified.getD 0) ++ (leBytes 2 g.expiry ++
    (leBytes 1 ((g.edition.map fun r => r.slot.val).getD 255) ++ [0])))))))))))))

/-- The other 40 bytes of a summary: the edition's serial, the counts, the sequences and the digests. -/
def summaryTail (g : Segment) : List Byte :=
  leBytes 4 ((g.edition.map fun r => r.serial.toNat).getD 0) ++ (unsignedField 4 g.records ++
    (unsignedField 4 g.blocks ++ (unsignedField 4 g.bytes ++ (leBytes 4 ((g.firstSeq.map BitVec.toNat).getD 0) ++
    (leBytes 4 ((g.lastSeq.map BitVec.toNat).getD 0) ++ (leBytes 4 g.digest.toNat ++ (leBytes 4 g.link.toNat ++
    List.replicate 8 0)))))))

theorem summaryBytes_eq (n : Nat) (st : LiveState) (g : Segment) (e : Extent) :
    summaryBytes n st g e = summaryHead n st g e ++ summaryTail g := by
  unfold summaryBytes summaryHead summaryTail
  simp only [List.append_assoc]

@[simp] theorem summaryHead_length (n : Nat) (st : LiveState) (g : Segment) (e : Extent) :
    (summaryHead n st g e).length = 24 := by
  simp only [summaryHead, List.length_append, leBytes_length, unsignedField_length, List.length_singleton]

@[simp] theorem summaryTail_length (g : Segment) : (summaryTail g).length = 40 := by simp [summaryTail]

/-- A field of the first part of a structure is read in that part. -/
theorem field_append_within {a : List Byte} {o n : Nat} (h : o + n ≤ a.length) (b : List Byte) :
    field (a ++ b) o n = field a o n := by
  unfold field
  rw [List.drop_append_of_le_length (by omega), List.take_append_of_le_length (by simp; omega)]

theorem summaryHead_fields (n : Nat) (st : LiveState) (g : Segment) (e : Extent) :
    let b := summaryHead n st g e
    field b 0 4 = n % 2 ^ 32 ∧ field b 4 1 = st.code % 256 ∧ field b 5 1 = g.mark.code % 256 ∧
    field b 6 1 = ((if e.fault then 1 else 0) + (if g.verified.isSome then 2 else 0)) % 256 ∧ field b 7 1 = g.fails % 256 ∧
    field b 8 2 = min e.erases 65535 ∧ field b 10 1 = g.pins % 256 ∧ field b 11 1 = g.key.group % 256 ∧
    field b 12 2 = g.key.switch % 65536 ∧ field b 14 2 = g.key.day % 65536 ∧ field b 16 2 = g.part % 65536 ∧
    field b 18 2 = (g.verified.getD 0) % 65536 ∧ field b 20 2 = g.expiry % 65536 ∧
    field b 22 1 = ((g.edition.map fun r => r.slot.val).getD 255) % 256 ∧ field b 23 1 = 0 := by
  unfold summaryHead
  have last : field [0#8] 0 1 = 0 := rfl
  simp [field_append_skip, field_leBytes_append, field_unsigned_append, last]

theorem summaryTail_fields (g : Segment) :
    let b := summaryTail g
    field b 0 4 = ((g.edition.map fun r => r.serial.toNat).getD 0) % 2 ^ 32 ∧
    field b 4 4 = min g.records 4294967295 ∧ field b 8 4 = min g.blocks 4294967295 ∧
    field b 12 4 = min g.bytes 4294967295 ∧ field b 16 4 = ((g.firstSeq.map BitVec.toNat).getD 0) % 2 ^ 32 ∧
    field b 20 4 = ((g.lastSeq.map BitVec.toNat).getD 0) % 2 ^ 32 ∧ field b 24 4 = g.digest.toNat % 2 ^ 32 ∧
    field b 28 4 = g.link.toNat % 2 ^ 32 ∧ field b 32 8 = 0 := by
  unfold summaryTail
  have last : field (List.replicate 8 0#8) 0 8 = 0 := rfl
  simp [-List.reduceReplicate, field_append_skip, field_leBytes_append, field_unsigned_append, last]

theorem summary_length (n : Nat) (st : LiveState) (g : Segment) (e : Extent) : (summaryBytes n st g e).length = 64 := by
  rw [summaryBytes_eq]
  simp

theorem seq_field (x : Option SeqNo) : ((x.map BitVec.toNat).getD 0) % 2 ^ 32 = (x.map BitVec.toNat).getD 0 := by
  cases x with
  | none => rfl
  | some v => exact Nat.mod_eq_of_lt v.isLt

end Sys2Proof.Machine
end

section
namespace Sys2Proof.Claims

open Sys2Proof.Machine

theorem finding_iff (k : EntryKind) : k.finding = true ↔ k ∈ [EntryKind.balanceMismatch, .repeatFile, .trailingBytes,
    .gapAbandoned, .sequenceRestart, .contextWritten, .storeFailed, .streamLimit, .verifyFail, .laneOffline] := by
  cases k <;> decide

/-- Settles O42: the bytes of an entry and of a summary, each cut into the parts that the layout names. -/
theorem entryAndSummaryBytes : Obligations.EntryAndSummaryBytes := by
  refine ⟨by decide, finding_iff, fun e => ?_, fun n st g e => ?_⟩
  · obtain ⟨seq, day, kind, flags⟩ := entry_head e
    obtain ⟨subject, first, second, third⟩ := entry_tail e
    have flagsOf (n : Nat) (h : e.body.subject.kindCode = n) : field e.bytes 11 1 =
        (if e.body.kind.finding then 1 else 0) + (if e.second then 2 else 0) + 4 * n := by rw [flags, Entry.flags, h]
    refine ⟨entry_length e, seq, day, kind, fun h => ⟨flagsOf 0 (by rw [h]; rfl), by rw [subject, h]; rfl⟩,
      fun k h => ⟨flagsOf 1 (by rw [h]; rfl), fun hs hg hd => ?_⟩, fun n h => ⟨flagsOf 2 (by rw [h]; rfl), by rw [subject, h]; rfl⟩,
      fun n h => ⟨flagsOf 3 (by rw [h]; rfl), by rw [subject, h]; rfl⟩, fun id h => ⟨flagsOf 4 (by rw [h]; rfl), ?_⟩,
      fun h => first.trans (firstField_unsigned h), fun h => (by rw [first]; exact firstField_signed h), second, third⟩
    · rw [subject, h, Subject.value]
      omega
    · rw [subject, h]
      exact Nat.mod_eq_of_lt id.isLt
  · obtain ⟨seg, state, mark, bits, fails, erases, pins, group, switch, day, part, verified, expiry, slot, zero⟩ :=
      summaryHead_fields n st g e
    obtain ⟨serial, records, blocks, bytes, firstSeq, lastSeq, digest, link, rest⟩ := summaryTail_fields g
    have head (o k : Nat) (h : o + k ≤ 24) : field (summaryBytes n st g e) o k = field (summaryHead n st g e) o k := by
      rw [summaryBytes_eq, field_append_within (by simpa using h)]
    have tail (o k : Nat) : field (summaryBytes n st g e) (24 + o) k = field (summaryTail g) o k := by
      rw [summaryBytes_eq, field_append_skip (by simp), summaryHead_length, Nat.add_sub_cancel_left]
    refine ⟨summary_length n st g e, (head 0 4 (by omega)).trans seg, (head 4 1 (by omega)).trans (state.trans ?_),
      (head 5 1 (by omega)).trans (mark.trans ?_), (head 6 1 (by omega)).trans (bits.trans ?_),
      (head 7 1 (by omega)).trans fails, (head 8 2 (by omega)).trans erases, (head 10 1 (by omega)).trans pins,
      (head 11 1 (by omega)).trans group, (head 12 2 (by omega)).trans switch, (head 14 2 (by omega)).trans day,
      (head 16 2 (by omega)).trans part, (head 18 2 (by omega)).trans verified, (head 20 2 (by omega)).trans expiry,
      fun h => ⟨(head 22 1 (by omega)).trans (slot.trans (by rw [h]; rfl)), (tail 0 4).trans (serial.trans (by rw [h]; rfl))⟩,
      fun r h => ⟨(head 22 1 (by omega)).trans (slot.trans ?_), (tail 0 4).trans (serial.trans ?_)⟩,
      (head 23 1 (by omega)).trans zero, (tail 4 4).trans records, (tail 8 4).trans blocks, (tail 12 4).trans bytes,
      (tail 16 4).trans (firstSeq.trans (seq_field _)), (tail 20 4).trans (lastSeq.trans (seq_field _)),
      (tail 24 4).trans (digest.trans (Nat.mod_eq_of_lt g.digest.isLt)),
      (tail 28 4).trans (link.trans (Nat.mod_eq_of_lt g.link.isLt)), (tail 32 8).trans rest⟩
    · cases st <;> rfl
    · cases g.mark <;> rfl
    · cases e.fault <;> cases g.verified.isSome <;> rfl
    · rw [h]
      exact Nat.mod_eq_of_lt (by have := r.slot.isLt; simp only [Option.map_some, Option.getD_some]; omega)
    · rw [h]
      exact Nat.mod_eq_of_lt r.serial.isLt

end Sys2Proof.Claims
end

section
/-! SUPPORT. Segment records under the operations of the catalog (R18, R20, R34), and what leaves the segment records, the directory
and the free-space watch as they are. -/

namespace Sys2Proof.Machine

/-! ## Tables that list their keys in rising order -/

/-- In a rising table a read after a write gives the value written, the default too. -/
theorem dfind_dput_of_rising {α : Type} [DecidableEq α] (d : α) (k : Nat) (v : α) {t : List (Nat × α)} (h : rising t = true) :
    dfind d k (dput d k v t) = v := by
  unfold dfind dput
  split
  · rename_i e
    rw [tfind_tdrop_self ((rising_iff t).mp h), e]
    rfl
  · simp

theorem rising_dput {α : Type} [DecidableEq α] (d : α) (k : Nat) (v : α) {t : List (Nat × α)} (h : rising t = true) :
    rising (dput d k v t) = true := by
  rw [rising_iff] at h ⊢
  unfold dput
  split
  · exact risesFrom_tdrop h
  · exact risesFrom_tput v (Nat.zero_le _) h

namespace State

variable {s t u : State} {n m : Nat}

/-! ## The segment records as they stand -/

/-- Two states have the same segment records: the same engine state, usable set, segment table and ONLINE lanes. -/
structure SegmentsStand (s t : State) : Prop where
  engine : t.engine = s.engine
  usable : t.cat.usable = s.cat.usable
  table : t.cat.table = s.cat.table
  online : ∀ l, t.isOnline l = s.isOnline l

namespace SegmentsStand

theorem refl (s : State) : SegmentsStand s s := ⟨rfl, rfl, rfl, fun _ => rfl⟩
theorem trans (h : SegmentsStand s t) (g : SegmentsStand t u) : SegmentsStand s u :=
  ⟨g.engine.trans h.engine, g.usable.trans h.usable, g.table.trans h.table, fun l => (g.online l).trans (h.online l)⟩

theorem usableNumber (h : SegmentsStand s t) (n : Nat) : t.usable n = s.usable n := by
  simp [State.usable, usableLane, h.usable]
theorem built (h : SegmentsStand s t) : t.tableBuilt = s.tableBuilt := by simp [tableBuilt, h.engine]
theorem extent? (h : SegmentsStand s t) (n : Nat) : t.extent? n = s.extent? n := by
  simp [State.extent?, h.usableNumber, h.built, h.table]
theorem live? (h : SegmentsStand s t) (n : Nat) : t.live? n = s.live? n := by simp [State.live?, h.extent?]
theorem freeCount (h : SegmentsStand s t) : t.freeCount = s.freeCount := by
  simp [State.freeCount, h.built, usableLane, h.usable, h.online, poolSize, h.table]
theorem usableCount (h : SegmentsStand s t) : t.usableCount = s.usableCount := by
  simp [State.usableCount, usableLane, h.usable]
theorem partOf (h : SegmentsStand s t) (k : StreamKey) (p : Nat) : t.partOf k p = s.partOf k p := by
  simp [State.partOf, h.live?, h.table]
theorem fillings (h : SegmentsStand s t) : t.fillings = s.fillings := by simp [State.fillings, h.live?, h.table]

end SegmentsStand

/-- The parts that leave the segment records alone: all but the segment table, a lane's going ONLINE or OFFLINE, and FORMAT. -/
theorem keeps_segments : Obeys SegmentsStand [.notes, .book, .place, .desk, .buf, .exec, .feed, .pool, .recon, .eds, .coder, .dir,
    .lanes, .ret, .holds, .scrub, .jnl, .marks, .media, .regs, .bus, .power] := by
  refine ⟨fun h g => h.trans g, fun p hp => ?_⟩
  cases p
  case cat | online | format => exact absurd hp (by decide)
  case dir => intro s f hf; exact ⟨rfl, (hf _).1, (hf _).2, fun _ => rfl⟩
  case lanes => intro s f hf; exact ⟨rfl, rfl, rfl, fun l => hf _ l⟩
  case desk =>
    intro s a bs _ _
    exact ⟨hostWrite_engine .., congrArg Catalog.usable (hostWrite_cat ..), congrArg Catalog.table (hostWrite_cat ..),
      fun l => by simp [isOnline, hostWrite_lanes]⟩
  case buf =>
    intro s a bs
    exact ⟨hostWrite_engine .., congrArg Catalog.usable (hostWrite_cat ..), congrArg Catalog.table (hostWrite_cat ..),
      fun l => by simp [isOnline, hostWrite_lanes]⟩
  case notes | book | place => intro s f _; exact ⟨rfl, rfl, rfl, fun _ => rfl⟩
  case pool | ret | jnl | media => intro s f _; exact ⟨rfl, rfl, rfl, fun _ => rfl⟩
  all_goals intro s f; exact ⟨rfl, rfl, rfl, fun _ => rfl⟩

/-! ## One record read and written -/

theorem extent?_isSome_iff : (s.extent? n).isSome = true ↔ s.tableBuilt = true ∧ s.usable n = true := by
  unfold extent?
  split <;> simp_all

theorem extent?_of_built (h : s.tableBuilt = true) (hu : s.usable n = true) :
    s.extent? n = some (dfind Extent.fresh n s.cat.table) := by simp [extent?, h, hu]

theorem live?_eq_some_iff {x : LiveState × Segment} :
    s.live? n = some x ↔ ∃ e, s.extent? n = some e ∧ e.content = .live x.1 x.2 := by
  unfold live?
  cases h : s.extent? n with
  | none => simp
  | some e =>
    obtain ⟨c, er, fl⟩ := e
    cases c <;> simp [Prod.ext_iff]

theorem live?_of_extent {e : Extent} {st : LiveState} {g : Segment} (h : s.extent? n = some e) (c : e.content = .live st g) :
    s.live? n = some (st, g) := live?_eq_some_iff.mpr ⟨e, h, c⟩

theorem live?_of_content {e : Extent} (h : s.extent? n = some e) (c : e.content = .free ∨ e.content = .retired) :
    s.live? n = none := by
  obtain ⟨co, er, fl⟩ := e
  simp only at c
  obtain rfl | rfl := c <;> simp [live?, h]

theorem extent?_setExtent_of_rising (hr : rising s.cat.table = true) (h : (s.extent? n).isSome = true) (e : Extent) :
    (s.setExtent n e).extent? n = some e := by
  obtain ⟨hb, hu⟩ := extent?_isSome_iff.mp h
  exact (extent?_of_built (s := s.setExtent n e) hb hu).trans (congrArg some (dfind_dput_of_rising _ n e hr))

theorem extent?_setExtent_of_ne_fresh (h : (s.extent? n).isSome = true) {e : Extent} (he : e ≠ Extent.fresh) :
    (s.setExtent n e).extent? n = some e := by
  obtain ⟨hb, hu⟩ := extent?_isSome_iff.mp h
  exact (extent?_of_built (s := s.setExtent n e) hb hu).trans (congrArg some (dfind_dput_of_ne he _ _))

theorem extent?_setExtent_ne (h : m ≠ n) (e : Extent) : (s.setExtent n e).extent? m = s.extent? m := by
  show (if (s.tableBuilt && s.usable m) = true then some (dfind Extent.fresh m (dput Extent.fresh n e s.cat.table)) else none) = _
  rw [dfind_dput_ne _ h]
  rfl


theorem ne_fresh_of_live {e : Extent} {st : LiveState} {g : Segment} (h : e.content = .live st g) : e ≠ Extent.fresh := by
  rintro rfl; cases h
theorem ne_fresh_of_retired {e : Extent} (h : e.content = .retired) : e ≠ Extent.fresh := by rintro rfl; cases h
theorem ne_fresh_of_erases {e : Extent} (h : e.erases ≠ 0) : e ≠ Extent.fresh := by rintro rfl; exact h rfl

/-! ## The operations on one record, as writes of it -/

theorem onExtent_eq {e : Extent} (h : s.extent? n = some e) (f : Extent → Extent) : s.onExtent n f = s.setExtent n (f e) := by
  simp [onExtent, h]
theorem setContent_eq {e : Extent} (h : s.extent? n = some e) (c : Content) :
    s.setContent n c = s.setExtent n { e with content := c } := onExtent_eq h _
theorem markFault_eq {e : Extent} (h : s.extent? n = some e) : s.markFault n = s.setExtent n { e with fault := true } :=
  onExtent_eq h _
theorem onSegment_eq {e : Extent} {st : LiveState} {g : Segment} (h : s.extent? n = some e) (c : e.content = .live st g)
    (f : Segment → Segment) : s.onSegment n f = s.setExtent n { e with content := .live st (f g) } := by
  simp [onSegment, live?_of_extent h c, setContent_eq h]
theorem onSegment_of_none (h : s.live? n = none) (f : Segment → Segment) : s.onSegment n f = s := by simp [onSegment, h]

/-- A changed record of a live segment is read back. -/
theorem extent?_onSegment {e : Extent} {st : LiveState} {g : Segment} (h : s.extent? n = some e) (c : e.content = .live st g)
    (f : Segment → Segment) : (s.onSegment n f).extent? n = some { e with content := .live st (f g) } := by
  rw [onSegment_eq h c]
  exact extent?_setExtent_of_ne_fresh (by simp [h]) (ne_fresh_of_live rfl)
theorem live?_onSegment {st : LiveState} {g : Segment} (h : s.live? n = some (st, g)) (f : Segment → Segment) :
    (s.onSegment n f).live? n = some (st, f g) := by
  obtain ⟨e, he, hc⟩ := live?_eq_some_iff.mp h
  exact live?_of_extent (extent?_onSegment he hc f) rfl

theorem extent?_setContent_live {e : Extent} (h : s.extent? n = some e) (st : LiveState) (g : Segment) :
    (s.setContent n (.live st g)).extent? n = some { e with content := .live st g } := by
  rw [setContent_eq h]
  exact extent?_setExtent_of_ne_fresh (by simp [h]) (ne_fresh_of_live rfl)
theorem extent?_setContent_of_rising {e : Extent} (hr : rising s.cat.table = true) (h : s.extent? n = some e) (c : Content) :
    (s.setContent n c).extent? n = some { e with content := c } := by
  rw [setContent_eq h]
  exact extent?_setExtent_of_rising hr (by simp [h]) _

theorem extent?_onExtent_ne (h : m ≠ n) (f : Extent → Extent) : (s.onExtent n f).extent? m = s.extent? m := by
  unfold onExtent
  split
  · exact extent?_setExtent_ne h _
  · rfl
theorem extent?_setContent_ne (h : m ≠ n) (c : Content) : (s.setContent n c).extent? m = s.extent? m := extent?_onExtent_ne h _

/-- A lane-fault flag set leaves a live record a live one. -/
theorem extent?_markFault {e : Extent} {st : LiveState} {g : Segment} (h : s.extent? n = some e) (c : e.content = .live st g) :
    (s.markFault n).extent? n = some { e with fault := true } := by
  rw [markFault_eq h]
  exact extent?_setExtent_of_ne_fresh (by simp [h]) (ne_fresh_of_live (st := st) (g := g) c)
theorem live?_markFault {st : LiveState} {g : Segment} (h : s.live? n = some (st, g)) : (s.markFault n).live? n = some (st, g) := by
  obtain ⟨e, he, hc⟩ := live?_eq_some_iff.mp h
  exact live?_of_extent (extent?_markFault he hc) hc

/-- A rising table stays one. -/
theorem rising_onExtent (hr : rising s.cat.table = true) (n : Nat) (f : Extent → Extent) :
    rising (s.onExtent n f).cat.table = true := by
  unfold onExtent
  split
  · exact rising_dput _ _ _ hr
  · exact hr

/-- A write of a record leaves all of the catalog but its table. -/
theorem onExtent_cat (n : Nat) (f : Extent → Extent) (s : State) :
    (s.onExtent n f).cat = { s.cat with table := (s.onExtent n f).cat.table } := by
  unfold onExtent
  split <;> rfl
theorem onSegment_cat (n : Nat) (f : Segment → Segment) (s : State) :
    (s.onSegment n f).cat = { s.cat with table := (s.onSegment n f).cat.table } := by
  unfold onSegment
  split
  · exact onExtent_cat n _ s
  · rfl
theorem dirEntry_onExtent (n : Nat) (f : Extent → Extent) (s : State) (k : StreamKey) :
    (s.onExtent n f).dirEntry k = s.dirEntry k := by
  unfold dirEntry
  rw [onExtent_cat]

/-! ## The free-space watch -/

/-- The threshold is the level's and the usable count's. -/
theorem sideLow_congr (h : SegmentsStand s t) (w : t.cat.watch.level = s.cat.watch.level) : t.sideLow = s.sideLow := by
  unfold sideLow threshold
  rw [h.freeCount, h.usableCount, w]

/-- What a later judgement of the watch starts from: the watch held, and FREE-WATCH. -/
structure WatchHeld (s t : State) : Prop where
  watch : t.cat.watch = s.cat.watch
  count : bget t.desk.counters Counter.freeWatch.index = bget s.desk.counters Counter.freeWatch.index

theorem WatchHeld.refl (s : State) : WatchHeld s s := ⟨rfl, rfl⟩
theorem WatchHeld.trans (h : WatchHeld s t) (g : WatchHeld t u) : WatchHeld s u :=
  ⟨g.watch.trans h.watch, g.count.trans h.count⟩
theorem WatchHeld.of_quiet (q : Quiet s t) (c : t.cat.watch = s.cat.watch) : WatchHeld s t :=
  ⟨c, q.counters .freeWatch (by decide)⟩

theorem watched_of_held (h : WatchHeld s t) (w : Claims.Watched t u) : Claims.Watched s u := by
  unfold Claims.Watched at w ⊢
  rwa [h.watch, h.count] at w

theorem watched_then (w : Claims.Watched s t) (g : SegmentsStand t u) (h : WatchHeld t u) : Claims.Watched s u := by
  have level : u.threshold = t.threshold := by simp [threshold, g.usableCount, h.watch]
  unfold Claims.Watched at w ⊢
  rwa [h.watch, h.count, g.freeCount, level]

/-- A watch with the side that F and T now give, FREE-WATCH advanced where the side changes in an enabled direction. -/
theorem watched_of_side (h : SegmentsStand s t) (w : t.cat.watch = { s.cat.watch with low := s.sideLow })
    (c : bget t.desk.counters Counter.freeWatch.index = bget s.desk.counters Counter.freeWatch.index +
      (if s.sideLow ≠ s.cat.watch.low ∧ (if s.sideLow then s.cat.watch.falling else s.cat.watch.rising) = true then 1 else 0)) :
    Claims.Watched s t := by
  have low : decide (t.freeCount < t.threshold) = s.sideLow := sideLow_congr h (by rw [w])
  unfold Claims.Watched
  rw [low, c, w]
  exact ⟨rfl, rfl⟩

/-- Outside FORMATTING the watch judges the free count as it stands (R35). -/
theorem judgeWatch_watched (h : s.engine ≠ .formatting) : Claims.Watched s s.judgeWatch := by
  unfold judgeWatch
  by_cases same : s.sideLow = s.cat.watch.low
  · simp only [same, or_true, if_true]
    exact watched_of_side (.refl s) (by rw [same]) (by simp [same])
  · simp only [h, same, or_self, if_false]
    have stands : SegmentsStand s (s.onCat fun c => { c with watch := { c.watch with low := s.sideLow } }) :=
      ⟨rfl, rfl, rfl, fun _ => rfl⟩
    by_cases hit : (if s.sideLow then s.cat.watch.falling else s.cat.watch.rising) = true
    · rw [if_pos hit]
      refine watched_of_side (notice_does (keeps_segments.mono rfl) .freeWatch stands) ?_ ?_
      · exact congrArg Catalog.watch (notice_does (same_cat.mono rfl) .freeWatch rfl)
      · rw [notice_counters, bget_bset_self, if_pos ⟨same, hit⟩]
        rfl
    · rw [if_neg hit]
      refine watched_of_side stands rfl ?_
      rw [if_neg (fun c => hit c.2)]
      exact (add_zero _).symm

theorem judgeWatch_segments (s : State) : SegmentsStand s s.judgeWatch := judgeWatch_does (keeps_segments.mono rfl) (.refl s)

/-! ## The directory -/

theorem dropFromDir_cat (k : StreamKey) (s : State) : (s.dropFromDir k).cat = { s.cat with dir := (s.dropFromDir k).cat.dir } ∧
    (s.dropFromDir k).desk = s.desk := by
  unfold dropFromDir
  split
  · exact ⟨rfl, rfl⟩
  · split <;> exact ⟨rfl, rfl⟩
theorem onDir_cat (k : StreamKey) (f : DirEntry → DirEntry) (s : State) :
    (s.onDir k f).cat = { s.cat with dir := (s.onDir k f).cat.dir } ∧ (s.onDir k f).desk = s.desk := by
  unfold onDir
  split <;> exact ⟨rfl, rfl⟩

theorem dropFromDir_held (k : StreamKey) (s : State) : WatchHeld s (s.dropFromDir k) :=
  ⟨by rw [(dropFromDir_cat k s).1], by rw [(dropFromDir_cat k s).2]⟩

/-! ## Submissions, unbindings and the board leave the segments and the watch alone -/

theorem submit_cat (sub : Submission) (s : State) : (s.submit sub).1.cat = s.cat := submit_does (same_cat.mono rfl) sub rfl
theorem submit_segments (sub : Submission) (s : State) : SegmentsStand s (s.submit sub).1 :=
  submit_does (keeps_segments.mono rfl) sub (.refl s)
theorem submit_held (sub : Submission) (s : State) : WatchHeld s (s.submit sub).1 :=
  .of_quiet (submit_quiet sub s) (by rw [submit_cat])
theorem log_cat (k : EntryKind) (sub : Subject) (v1 : Int) (v2 v3 : Nat) (s : State) : (s.log k sub v1 v2 v3).cat = s.cat :=
  log_does (same_cat.mono rfl) k sub v1 v2 v3 rfl
theorem log_segments (k : EntryKind) (sub : Subject) (v1 : Int) (v2 v3 : Nat) (s : State) :
    SegmentsStand s (s.log k sub v1 v2 v3) := log_does (keeps_segments.mono rfl) k sub v1 v2 v3 (.refl s)
theorem log_quiet (k : EntryKind) (sub : Subject) (v1 : Int) (v2 v3 : Nat) (s : State) : Quiet s (s.log k sub v1 v2 v3) :=
  post_quiet _ _ s
theorem log_held (k : EntryKind) (sub : Subject) (v1 : Int) (v2 v3 : Nat) (s : State) : WatchHeld s (s.log k sub v1 v2 v3) :=
  .of_quiet (log_quiet k sub v1 v2 v3 s) (by rw [log_cat])

/-- An entry logged by a READY engine is taken or waits (R175). -/
theorem log_submitted (h : s.engine = .ready) (k : EntryKind) (sub : Subject) (v1 : Int) (v2 v3 : Nat) :
    Claims.Submitted (EntryBody.mk0 k sub v1 v2 v3) (s.log k sub v1 v2 v3) :=
  submit_submitted h _ _ (by simp)

theorem onSlot_quiet (i : SlotNo) (f : EditionSlot → EditionSlot) (s : State) : Quiet s (s.onSlot i f) :=
  .of_same rfl rfl rfl rfl rfl rfl rfl rfl rfl
theorem dropEdition_quiet (i : SlotNo) (s : State) : Quiet s (s.dropEdition i) := (onSlot_quiet i _ s).trans (log_quiet ..)
theorem unbindEdition_quiet (ref : Option EditionRef) (s : State) : Quiet s (s.unbindEdition ref) := by
  unfold unbindEdition
  dsimp only
  split
  · exact .refl s
  · split
    · exact (onSlot_quiet _ _ s).trans (dropEdition_quiet _ _)
    · exact onSlot_quiet _ _ s
theorem unbindEdition_cat (ref : Option EditionRef) (s : State) : (s.unbindEdition ref).cat = s.cat :=
  unbindEdition_does (same_cat.mono rfl) ref rfl
theorem unbindEdition_segments (ref : Option EditionRef) (s : State) : SegmentsStand s (s.unbindEdition ref) :=
  unbindEdition_does (keeps_segments.mono rfl) ref (.refl s)
theorem unbindEdition_held (ref : Option EditionRef) (s : State) : WatchHeld s (s.unbindEdition ref) :=
  .of_quiet (unbindEdition_quiet ref s) (by rw [unbindEdition_cat])

/-! ## The coder's turn: of the catalog only limit flags and the open request -/

/-- The coder's turn in the catalog: the directory's entries but for limit flags newly set, and the open request (R23, R26, R105). -/
structure CoderTurn (s t : State) : Prop where
  cat : t.cat = { s.cat with dir := t.cat.dir, openReq := t.cat.openReq }
  dir : ∀ k, t.dirEntry k = s.dirEntry k ∨ ∃ d, s.dirEntry k = some d ∧ t.dirEntry k = some { d with limited := true }
  empty : s.cat.dir = [] → t.cat.dir = []

namespace CoderTurn

theorem refl (s : State) : CoderTurn s s := ⟨rfl, fun _ => .inl rfl, id⟩
theorem of_dir (h : t.cat = { s.cat with openReq := t.cat.openReq }) : CoderTurn s t := by
  have dir : t.cat.dir = s.cat.dir := by rw [h]
  exact ⟨by rw [h], fun k => .inl (by simp [dirEntry, dir]), dir.trans⟩
theorem of_cat (h : t.cat = s.cat) : CoderTurn s t := of_dir (by rw [h])
theorem trans (h : CoderTurn s t) (g : CoderTurn t u) : CoderTurn s u where
  cat := by rw [g.cat, h.cat]
  dir k := by
    obtain e | ⟨d, e, e'⟩ := g.dir k
    · exact (h.dir k).imp e.trans fun ⟨d, a, b⟩ => ⟨d, a, e.trans b⟩
    · obtain e'' | ⟨d0, a, b⟩ := h.dir k
      · exact .inr ⟨d, e''.symm.trans e, e'⟩
      · obtain rfl : { d0 with limited := true } = d := Option.some.inj (b.symm.trans e)
        exact .inr ⟨d0, a, e'⟩
  empty e := g.empty (h.empty e)
theorem watch (h : CoderTurn s t) : t.cat.watch = s.cat.watch := by rw [h.cat]
theorem table (h : CoderTurn s t) : t.cat.table = s.cat.table := by rw [h.cat]
theorem usable (h : CoderTurn s t) : t.cat.usable = s.cat.usable := by rw [h.cat]
theorem eraseLeft (h : CoderTurn s t) : t.cat.eraseLeft = s.cat.eraseLeft := by rw [h.cat]
theorem eraseFailed (h : CoderTurn s t) : t.cat.eraseFailed = s.cat.eraseFailed := by rw [h.cat]
theorem rotation (h : CoderTurn s t) : t.cat.rotation = s.cat.rotation := by rw [h.cat]
theorem fillingOf (h : CoderTurn s t) (k : StreamKey) : t.fillingOf k = s.fillingOf k := by
  obtain e | ⟨d, a, b⟩ := h.dir k
  · simp [State.fillingOf, e]
  · simp [State.fillingOf, a, b]

end CoderTurn

theorem setPlaces_turn (st : Standing) (ids : List PlaceId) (s : State) : CoderTurn s (setPlaces st ids s) :=
  .of_cat (setPlaces_does (same_cat.mono rfl) st ids rfl)

theorem refuseOpen_turn (k : StreamKey) (s : State) : CoderTurn s (s.refuseOpen k) := by
  unfold refuseOpen
  split
  · rename_i d hd
    split
    · exact .refl s
    · refine CoderTurn.trans (t := s.setDir k { d with limited := true }) ⟨rfl, fun j => ?_, fun none => ?_⟩ (.of_cat (log_cat ..))
      by_cases e : j.code = k.code
      · exact .inr ⟨d, by rw [dirEntry, e]; exact hd, by simp [dirEntry, setDir, onCat, e]⟩
      · exact .inl (tfind_tput_ne e _ _)
      · rw [dirEntry, none] at hd
        cases hd
  · exact .refl s

theorem openRefused_turn (k : StreamKey) (s : State) : CoderTurn s (s.openRefused k) := by
  have before : CoderTurn s ((s.refuseOpen k).onCat fun c => { c with openReq := none }) :=
    (refuseOpen_turn k s).trans (.of_dir rfl)
  unfold openRefused
  dsimp only
  split
  · exact (before.trans (setPlaces_turn _ _ _)).trans (.of_cat rfl)
  · exact before

theorem selectBlock_turn (i : Fin 2) (k : StreamKey) (s : State) : CoderTurn s (s.selectBlock i k) := by
  have before (x : List PlaceId) : CoderTurn s ((setPlaces .inFlight x s).setBuffer i (.forming k x)) :=
    (setPlaces_turn .inFlight x s).trans (.of_cat rfl)
  unfold selectBlock
  dsimp only
  split
  · exact (before _).trans (.of_cat rfl)
  · exact (before _).trans (.of_dir rfl)

theorem coderNext_turn (h : s.coderNext = some t) : CoderTurn s t := by
  unfold coderNext at h
  repeat' split at h
  all_goals cases h
  · exact openRefused_turn _ s
  · exact .of_dir rfl
  · exact selectBlock_turn _ _ s

theorem restCoder_turn (s : State) : CoderTurn s s.restCoder := .of_cat (restCoder_does (same_cat.mono rfl) rfl)

theorem coderLoop_turn (n : Nat) (s : State) : CoderTurn s (coderLoop n s) := by
  induction n generalizing s with
  | zero => exact .refl s
  | succ n ih =>
    unfold coderLoop
    split
    · rename_i t ht
      exact (coderNext_turn ht).trans (ih t)
    · exact restCoder_turn s

theorem runCoder_turn (s : State) : CoderTurn s s.runCoder := by
  unfold runCoder
  split
  · exact .refl s
  · exact coderLoop_turn _ s

theorem resumeStalled_turn (s : State) : CoderTurn s s.resumeStalled := .of_cat (resumeStalled_does (same_cat.mono rfl) rfl)
theorem pump_turn (s : State) : CoderTurn s s.pump := .of_cat (pump_does (same_cat.mono rfl) rfl)

/-- What follows of itself after an event has no more of the catalog than the coder's turn. -/
theorem settle_turn (s : State) : CoderTurn s s.settle :=
  ((resumeStalled_turn s).trans (runCoder_turn _)).trans (pump_turn _)

theorem settle_segments (s : State) : SegmentsStand s s.settle := settle_does (keeps_segments.mono rfl) (.refl s)

theorem settle_held (s : State) : WatchHeld s s.settle := by
  have first : WatchHeld s s.resumeStalled := ⟨(resumeStalled_turn s).watch, by
    rw [show s.resumeStalled.desk.counters = s.desk.counters from resumeStalled_does (same_counters.mono rfl) rfl]⟩
  exact (first.trans (.of_quiet (runCoder_quiet _) (runCoder_turn _).watch)).trans (.of_quiet (pump_quiet _) (pump_turn _).watch)

end State

end Sys2Proof.Machine
end

section
/-! SUPPORT. The completion of an erase (R34, R147), for O39 and the recovery's erases of O9. -/

namespace Sys2Proof.Machine.State

variable {s t u : State} {n : Nat}

theorem journalOff_of_built (h : s.tableBuilt = true) : s.journalOff = false := by
  unfold tableBuilt at h
  unfold journalOff
  generalize s.engine = e at h
  revert h
  cases e <;> decide

/-- Where the segment table exists, a submission that can be taken is taken (R175). -/
theorem submit_of_takes (h : s.tableBuilt = true) {sub : Submission} (ht : s.takesAtOnce sub = true) :
    s.submit sub = (s.takeSubmission sub.entries, true) := by
  unfold takesAtOnce at ht
  simp [submit, journalOff_of_built h, ht]

theorem built_of_extent {e : Extent} (h : s.extent? n = some e) : s.tableBuilt = true :=
  (extent?_isSome_iff.mp (h ▸ rfl : (s.extent? n).isSome = true)).1

/-- What an erase makes of an extent's record (R34). -/
def erased (e : Extent) (ok : Bool) : Extent :=
  { content := if eraseOutcome e ok = .free then .free else .retired, erases := erasesAfter e ok, fault := e.fault || !ok }

theorem erased_ok (e : Extent) : erased e true =
    { content := if 10000 ≤ min (e.erases + 1) 65535 then .retired else .free, erases := min (e.erases + 1) 65535,
      fault := e.fault } := by
  unfold erased eraseOutcome erasesAfter
  by_cases h : 10000 ≤ min (e.erases + 1) 65535 <;> simp [h, Config.wearLimit, Config.dayMax]

theorem erased_failed (e : Extent) : erased e false = { content := .retired, erases := e.erases, fault := true } := by
  simp [erased, eraseOutcome, erasesAfter]

/-- The lane-fault flag set before is the one the completion sets. -/
theorem erased_marked (e : Extent) (ok : Bool) : erased { e with fault := e.fault || !ok } ok = erased e ok := by
  cases ok <;> simp [erased, eraseOutcome, erasesAfter]

theorem erased_ne_fresh (e : Extent) (ok : Bool) : erased e ok ≠ Extent.fresh := by
  cases ok
  · rw [erased_failed]
    exact ne_fresh_of_retired rfl
  · rw [erased_ok]
    exact ne_fresh_of_erases (by simp)

/-- What the completion of an erase does to the records and the watch. -/
structure EraseDone (n : Nat) (e : Extent) (ok : Bool) (s t : State) : Prop where
  engine : t.engine = s.engine
  extent : t.extent? n = some (erased e ok)
  others : ∀ m, m ≠ n → t.extent? m = s.extent? m
  watched : Claims.Watched s t

theorem EraseDone.then_ {e : Extent} {ok : Bool} (h : EraseDone n e ok s t) (g : SegmentsStand t u) (w : WatchHeld t u) :
    EraseDone n e ok s u where
  engine := g.engine.trans h.engine
  extent := (g.extent? n).trans h.extent
  others m hm := (g.extent? m).trans (h.others m hm)
  watched := watched_then h.watched g w

/-- The catalog's part of the completion: EXTENT-RETIRED and the unbinding change no more of the records (R34, R35). -/
theorem eraseDone_done {e : Extent} {g : Segment} (h : s.extent? n = some e) (c : e.content = .live .erasing g) (ok : Bool) :
    EraseDone n e ok s (s.eraseDone n ok) := by
  have building : s.engine ≠ .formatting := by
    intro f
    have := built_of_extent h
    simp [tableBuilt, f] at this
  have judged : EraseDone n e ok s (((s.setExtent n (erased e ok)).dropFromDir g.key).judgeWatch) := by
    set s1 := s.setExtent n (erased e ok)
    have written : s1.extent? n = some (erased e ok) := extent?_setExtent_of_ne_fresh (by simp [h]) (erased_ne_fresh e ok)
    have stand : SegmentsStand s1 (s1.dropFromDir g.key).judgeWatch :=
      SegmentsStand.trans (dropFromDir_does (keeps_segments.mono rfl) g.key (.refl s1)) (judgeWatch_segments _)
    refine ⟨stand.engine, (stand.extent? n).trans written,
      fun m hm => (stand.extent? m).trans (extent?_setExtent_ne hm _), ?_⟩
    refine watched_of_held (WatchHeld.trans (t := s1) ⟨rfl, rfl⟩ (dropFromDir_held g.key s1)) (judgeWatch_watched ?_)
    rw [show (s1.dropFromDir g.key).engine = s1.engine from dropFromDir_does (same_engine.mono rfl) g.key rfl]
    exact building
  obtain ⟨content, er, fault⟩ := e
  obtain rfl : content = .live .erasing g := c
  unfold eraseDone
  rw [h]
  refine EraseDone.then_ ?_ (unbindEdition_segments g.edition _) (unbindEdition_held g.edition _)
  split
  · exact judged
  · exact judged.then_ (log_segments ..) (log_held ..)
  · exact judged.then_ (log_segments ..) (log_held ..)

/-- An erase of an ERASING segment has completed, and the journal has room for its entry: the catalog completes it at once (R147). -/
theorem eraseArrives_done {e : Extent} {g : Segment} (h : s.extent? n = some e) (c : e.content = .live .erasing g) (ok : Bool)
    (fits : Claims.EntryFits s) : EraseDone n e ok s (s.eraseArrives n ok) := by
  obtain ⟨content, er, fault⟩ := e
  obtain rfl : content = .live .erasing g := c
  set e : Extent := { content := .live .erasing g, erases := er, fault := fault }
  set s1 := if ok then s else s.markFault n with hs1
  have marked : s1.extent? n = some { e with fault := fault || !ok } := by
    cases ok
    · simpa [hs1] using extent?_markFault h rfl
    · simpa [hs1] using h
  have beside (m : Nat) (hm : m ≠ n) : s1.extent? m = s.extent? m := by
    cases ok
    · exact extent?_onExtent_ne hm _
    · rfl
  have held : WatchHeld s s1 := by
    cases ok
    · have watch : (s.markFault n).cat.watch = s.cat.watch := by rw [markFault, onExtent_cat]
      exact ⟨watch, by rw [show s1.desk = s.desk from markFault_does (same_desk.mono rfl) n rfl]⟩
    · exact .refl s
  have engine : s1.engine = s.engine := by
    cases ok
    · exact markFault_does (same_engine.mono rfl) n rfl
    · rfl
  set sub : Submission :=
    { entries := [EntryBody.mk0 .segmentExpired (.key g.key) n g.part (eraseOutcome e ok).code], who := .block,
      acts := [.eraseDone n ok] } with hsub
  have takes : s1.takesAtOnce sub = true := by
    have jnl : s1.jnl = s.jnl := by
      cases ok
      · exact markFault_does (same_jnl.mono rfl) n rfl
      · rfl
    obtain ⟨line, buffer, room⟩ := fits
    have window : s.windowSize < 1048576 := Nat.lt_of_sub_pos room
    rw [takesAtOnce_iff, jnl]
    refine ⟨line, buffer, ?_⟩
    rw [windowSize, jnl]
    exact window
  have taken : s1.submit sub = (s1.takeSubmission sub.entries, true) := submit_of_takes (built_of_extent marked) takes
  have unfolded : s.eraseArrives n ok = (s1.submit sub).1.eraseDone n ok := by
    unfold eraseArrives
    rw [h]
    show (if (s1.submit sub).2 then (s1.submit sub).1.eraseDone n ok else (s1.submit sub).1) = _
    rw [if_pos (by rw [taken])]
  have stand := submit_segments sub s1
  have done := eraseDone_done (g := g) ((stand.extent? n).trans marked) rfl ok
  rw [unfolded]
  exact ⟨done.engine.trans (stand.engine.trans engine), done.extent.trans (congrArg some (erased_marked e ok)),
    fun m hm => (done.others m hm).trans ((stand.extent? m).trans (beside m hm)),
    watched_of_held (held.trans (submit_held sub s1)) done.watched⟩

/-- Every byte of an erased extent reads as erased (R131). -/
theorem byte_mediaErase (n i : Nat) (h : i < 67108864) (s : State) :
    Memory.byte Config.mediaFill (s.mediaErase n).media (mediaAt n i) = 0xFF := by
  have gone : ∀ m : Memory, Memory.byte Config.mediaFill (Memory.clear m (mediaAt n 0) Config.extentBytes) (mediaAt n i) =
      Config.mediaFill := by
    intro m
    unfold Memory.byte Memory.clear dfind
    have lo : mediaAt n 0 ≤ mediaAt n i := by simp [mediaAt]
    have hi : mediaAt n i < mediaAt n 0 + Config.extentBytes := by
      simp only [mediaAt, Config.extentBytes]
      omega
    induction m with
    | nil => rfl
    | cons p m ih =>
      rw [List.filter_cons]
      split
      · rename_i keep
        have ne : p.1 ≠ mediaAt n i := fun e => by simp [e, lo, hi] at keep
        rw [show p = (p.1, p.2) from rfl, tfind, if_neg ne]
        exact ih
      · exact ih
  exact gone s.media

end Sys2Proof.Machine.State

namespace Sys2Proof.Claims

open Sys2Proof.Machine Sys2Proof.Machine.State

theorem exec_eraseCompletion (l : LaneNo) (ok : Bool) {n : Nat} {s : State} (a : s.laneActs = true) (f : s.engine ≠ .formatting)
    (h : (bget s.lanes.lane l).inProgress = some (.erase n)) : Machine.exec (.eraseCompletion l ok) s =
      .next ((((if ok then s.mediaErase n else s).onLane l (Lane.complete ok)).eraseArrives n ok).settle) := by
  show Host.Outcome.next (s.laneEvent _) = _
  simp [laneEvent, a, f, h]

/-- Settles O39, by the completion at the catalog and the watch that then judges (`eraseArrives_done`). -/
theorem eraseCompletionFreesOrRetires : Obligations.EraseCompletionFreesOrRetires := by
  unfold Obligations.EraseCompletionFreesOrRetires
  intro l ok n e g s acts busy he c line buffer room
  have building : s.engine ≠ .formatting := by
    intro h
    have := built_of_extent he
    simp [tableBuilt, h] at this
  set s0 := (if ok then s.mediaErase n else s).onLane l (Lane.complete ok) with hs0
  have stand : SegmentsStand s s0 := by
    refine onLane_does (keeps_segments.mono rfl) l _ (fun a => by unfold Lane.complete; split <;> rfl) ?_
    cases ok
    · exact .refl s
    · exact mediaErase_does (keeps_segments.mono rfl) n (.refl s)
  have fields : s0.jnl = s.jnl ∧ s0.ret = s.ret ∧ s0.recon = s.recon ∧ s0.exec = s.exec ∧ s0.cat = s.cat ∧ s0.desk = s.desk := by
    rw [hs0]
    cases ok <;> exact ⟨rfl, rfl, rfl, rfl, rfl, rfl⟩
  obtain ⟨jnl, ret, recon, exec, cat, desk⟩ := fields
  have fits : EntryFits s0 := by
    unfold EntryFits State.room State.windowSize
    rw [jnl]
    exact ⟨line, buffer, room⟩
  have done := eraseArrives_done ((stand.extent? n).trans he) c ok fits
  have settled := done.then_ (settle_segments _) (settle_held _)
  have media : ((s0.eraseArrives n ok).settle).media = s0.media :=
    settle_does (same_media.mono rfl) (eraseArrives_does (same_media.mono rfl) n ok rfl)
  refine ⟨_, exec_eraseCompletion l ok acts building busy, ?_, ?_, ?_, ?_, ?_, ?_⟩
  · exact (settle_does (same_ret.mono rfl) (eraseArrives_does (same_ret.mono rfl) n ok rfl)).trans ret
  · exact (settle_does (same_recon.mono rfl) (eraseArrives_does (same_recon.mono rfl) n ok rfl)).trans recon
  · exact (settle_does (same_exec.mono rfl) (eraseArrives_does (same_exec.mono rfl) n ok rfl)).trans exec
  · exact watched_of_held ⟨by rw [cat], by rw [desk]⟩ settled.watched
  · rintro rfl
    refine ⟨settled.extent.trans (congrArg some (erased_ok e)), fun i hi => ?_⟩
    rw [media]
    exact byte_mediaErase n i hi s
  · rintro rfl
    exact ⟨settled.extent.trans (congrArg some (erased_failed e)), media⟩

end Sys2Proof.Claims
end

section
/-! SUPPORT. The executor (R190, R191): the choice after an event, and the end of an operation with its answer; and what a
selection's refusals test (R32, R38, R162, R168). -/

namespace Sys2Proof.Machine

/-! ## What the refusals test -/

theorem badSwitch_iff (all : Bool) (sw : Nat) : badSwitch all sw = true ↔ ¬ Claims.GoodSwitch all sw := by
  cases all <;> simp [badSwitch, Claims.GoodSwitch]

theorem maskEmpty_iff (m : Byte) : maskEmpty m = true ↔ ∀ g, g < 4 → m.getLsbD g = false := by
  have low : ∀ m : Byte, maskEmpty m = true ↔
      m.getLsbD 0 = false ∧ m.getLsbD 1 = false ∧ m.getLsbD 2 = false ∧ m.getLsbD 3 = false := by decide
  rw [low]
  constructor
  · rintro ⟨h0, h1, h2, h3⟩ g hg
    obtain rfl | rfl | rfl | rfl : g = 0 ∨ g = 1 ∨ g = 2 ∨ g = 3 := by omega
    all_goals assumption
  · exact fun h => ⟨h 0 (by decide), h 1 (by decide), h 2 (by decide), h 3 (by decide)⟩

theorem maskEmpty_iff_not (m : Byte) : maskEmpty m = true ↔ ¬ ∃ g, g < 4 ∧ m.getLsbD g = true := by
  rw [maskEmpty_iff]
  simp

theorem selection_badRange_iff (c : Selection) : c.badRange = true ↔ ¬ Claims.GoodSelection c := by
  simp only [Selection.badRange, Claims.GoodSelection, Bool.or_eq_true, decide_eq_true_eq, maskEmpty_iff_not, not_and_or, not_le]

theorem extract_badRange_iff (p : ExtractParams) : p.badRange = true ↔ ¬ Claims.GoodExtract p := by
  unfold ExtractParams.badRange Claims.GoodExtract
  cases hr : p.range with
  | none => simp only [Bool.or_eq_true, beq_iff_eq, maskEmpty_iff_not, Bool.false_eq_true, or_false, not_and_or, ne_eq, not_not,
      reduceCtorEq, false_implies, implies_true, not_true_eq_false]
  | some r =>
    obtain ⟨a, b⟩ := r
    simp only [Bool.or_eq_true, beq_iff_eq, decide_eq_true_eq, maskEmpty_iff_not, not_and_or, Option.some.injEq, Prod.mk.injEq, ne_eq,
      not_not]
    constructor
    · rintro ((h | h) | h)
      · exact .inl h
      · exact .inr (.inl h)
      · exact .inr (.inr fun g => absurd (g a b ⟨rfl, rfl⟩) (by omega))
    · rintro (h | h | h)
      · exact .inl (.inl h)
      · exact .inl (.inr h)
      · refine .inr (Nat.lt_of_not_le fun le => h ?_)
        rintro x y ⟨rfl, rfl⟩
        exact le

namespace State

variable {u s t v : State} {o : Op}

theorem badFormat_iff (p : FormatParams) : badFormat p = true ↔ ¬ Claims.GoodFormat p := by
  unfold badFormat Claims.GoodFormat
  simp only [Bool.or_eq_true, List.any_eq_true, decide_eq_true_eq, Config.retentionMax, Config.lateWindowMax,
    Config.gapHorizonMax, not_and_or, not_forall, not_le, exists_prop]
  exact or_assoc

/-! ## The choice (R190) -/

theorem leastPrio_mem {os : List Op} (h : leastPrio os = some o) : o ∈ os := by
  induction os generalizing o with
  | nil => cases h
  | cons x xs ih =>
    unfold leastPrio at h
    split at h
    · rename_i q hq
      split at h
      · obtain rfl := Option.some.inj h
        exact List.mem_cons_of_mem _ (ih hq)
      · obtain rfl := Option.some.inj h
        exact List.mem_cons_self
    · obtain rfl := Option.some.inj h
      exact List.mem_cons_self

theorem pick_mem (h : s.pick = some o) : o ∈ s.exec.suspended ++ s.exec.waiting := leastPrio_mem h

theorem nextLoop_of_running (h : s.exec.running.isSome = true) (n : Nat) : nextLoop n s = s := by
  cases n with
  | zero => rfl
  | succ n => simp [nextLoop, h]

/-- While an operation runs none is chosen. -/
theorem nextOp_of_running (h : s.exec.running.isSome = true) : s.nextOp = s := by
  unfold nextOp
  split
  · rfl
  · exact nextLoop_of_running h 4

theorem nextOp_of_none (h : s.pick = none) : s.nextOp = s := by
  unfold nextOp
  split
  · rfl
  · unfold nextLoop
    split
    · rfl
    · rw [h]

theorem nextOp_of_noChoice (h : Claims.NoChoice s) : s.nextOp = s := h.elim nextOp_of_running nextOp_of_none

theorem makeRunning_running (o : Op) (s : State) : (s.makeRunning o).exec.running = some o := rfl

/-- A chosen operation that resumes no reading and does not end at once runs, and nothing more. -/
theorem resumeKept_of_goesOn (h : Claims.GoesOnLater o) : (s.makeRunning o).resumeKept = s.makeRunning o := by
  obtain ⟨visit, cursor⟩ := h
  have waits : (s.makeRunning o).verifyEnd = s.makeRunning o := by
    unfold verifyEnd
    rw [makeRunning_running]
    obtain ⟨slip, adm, prio, urgent, begun, stopping, ended, body⟩ := o
    cases body
    case verify sel c n v =>
      have : ¬ Config.segmentEnd ≤ c := Nat.not_le.mpr (cursor sel c n v rfl)
      exact if_neg this
    all_goals rfl
  unfold resumeKept
  rw [makeRunning_running]
  dsimp only
  rw [visit]
  exact waits

/-- The operation chosen now runs, where one is chosen. -/
def chosen (s : State) : State :=
  match s.pick with
  | some o => s.makeRunning o
  | none => s

/-- A choice among operations that resume no reading and do not end at once changes the executor alone (R190). -/
theorem nextOp_of_goesOn (idle : s.exec.running = none) (e : s.engine ≠ .recovering)
    (h : ∀ q ∈ s.exec.suspended ++ s.exec.waiting, Claims.GoesOnLater q) : s.nextOp = s.chosen := by
  unfold nextOp chosen
  rw [if_neg e]
  unfold nextLoop
  rw [idle]
  cases hp : s.pick with
  | none => rfl
  | some o =>
    show nextLoop 3 (s.makeRunning o).resumeKept = s.makeRunning o
    rw [resumeKept_of_goesOn (h o (pick_mem hp))]
    exact nextLoop_of_running rfl 3

theorem chosen_running (idle : s.exec.running = none) : s.chosen.exec.running = s.pick := by
  unfold chosen
  cases h : s.pick with
  | none => exact idle
  | some o => rfl

theorem chosen_rest (s : State) : s.chosen = s.onExec fun _ => s.chosen.exec := by
  unfold chosen
  split <;> rfl

/-! ## The running operation -/

theorem onRunning_running (h : s.exec.running = some o) (f : Op → Op) : (s.onRunning f).exec.running = some (f o) := by
  simp [onRunning, onExec, h]

/-- Without a requested suspension none takes effect. -/
theorem takeSuspension_of_none (h : s.exec.preempt = none) : s.takeSuspension = s := by
  unfold takeSuspension
  rw [h]
  cases s.exec.running <;> rfl

theorem newRunning_of_fresh (h : Claims.Fresh o s) : s.newRunning = some o := by
  obtain ⟨_, running, begun, _⟩ := h
  simp [newRunning, running, Option.filter, begun]

theorem stepping_of_stepping (h : Claims.Stepping o s) : s.stepping = some o := by
  obtain ⟨_, running, begun, ended, _⟩ := h
  simp [stepping, running, Option.filter, begun, ended]

/-! ## The end of an operation with an answer -/

theorem endAnswer_eq (h : s.exec.running = some o) (st : Status) (vs : List Byte) :
    s.endAnswer st vs = (s.answer o.slip st vs).clearRunning := by simp [endAnswer, h]

theorem answer_exec (slip : Option SlipNo) (st : Status) (vs : List Byte) (s : State) : (s.answer slip st vs).exec = s.exec :=
  answer_does (same_exec.mono rfl) slip st vs rfl

theorem endAnswer_exec (h : s.exec.running = some o) (st : Status) (vs : List Byte) :
    (s.endAnswer st vs).exec = { s.exec with running := none, preempt := none } := by
  rw [endAnswer_eq h]
  show { (s.answer o.slip st vs).exec with running := none, preempt := none } = _
  rw [answer_exec]

theorem answered_of_stand {slip : Option SlipNo} {st : Status} {vs : List Byte} (ha : Claims.Answered u slip st vs s)
    (desk : t.desk = s.desk) (mem : t.mem = s.mem) : Claims.Answered u slip st vs t := by
  intro i hi
  have := ha i hi
  simp only [Claims.byteAt, hostBytes] at this ⊢
  rwa [desk, mem]

theorem endAnswer_answered (h : s.exec.running = some o) (stand : SlipsStand u s) (st : Status) (vs : List Byte) :
    Claims.Answered u o.slip st vs (s.endAnswer st vs) := by
  rw [endAnswer_eq h]
  exact answered_of_stand (answer_answered stand o.slip st vs) rfl rfl

/-! ## A page for a stalled channel leaves what its drained mark misses -/

/-- The drained mark of a channel is written at none of some addresses (R48). -/
def DrainsApart (A : Nat → Prop) (s : State) (c : ChanNo) : Prop :=
  ∀ j, (s.chan c).slip = some j → ∀ a, A a → a < s.answerAt j + 4 ∨ s.answerAt j + 12 ≤ a

/-- The desk's fields, every channel's slip, and the bytes at some addresses stand. -/
structure StandsAt (A : Nat → Prop) (s t : State) : Prop where
  desk : t.desk = s.desk
  slips : ∀ c, (t.chan c).slip = (s.chan c).slip
  bytes : ∀ a, A a → Memory.byte Config.hostFill t.mem a = Memory.byte Config.hostFill s.mem a

section apart

variable {A : Nat → Prop} {c : ChanNo}

theorem StandsAt.refl (A : Nat → Prop) (s : State) : StandsAt A s s := ⟨rfl, fun _ => rfl, fun _ _ => rfl⟩
theorem StandsAt.trans (h : StandsAt A s t) (g : StandsAt A t u) : StandsAt A s u :=
  ⟨g.desk.trans h.desk, fun c => (g.slips c).trans (h.slips c), fun a ha => (g.bytes a ha).trans (h.bytes a ha)⟩
theorem DrainsApart.congr (h : DrainsApart A s c) (g : StandsAt A s t) : DrainsApart A t c := by
  intro j hj a ha
  have := h j ((g.slips c).symm.trans hj) a ha
  simpa only [answerAt, slipAt, g.desk] using this

theorem standsAt_of_same (desk : t.desk = s.desk) (mem : t.mem = s.mem) (chans : t.feed.chans = s.feed.chans) : StandsAt A s t :=
  ⟨desk, fun c => by simp [chan, chans], fun _ _ => by rw [mem]⟩

theorem standsAt_onChan (c : ChanNo) (f : Channel → Channel) (hf : ∀ ch, (f ch).slip = ch.slip) (s : State) :
    StandsAt A s (s.onChan c f) where
  desk := rfl
  slips d := by
    by_cases e : d = c
    · subst e
      rw [onChan_chan_self, hf]
    · rw [onChan_chan_ne _ e]
  bytes _ _ := rfl

theorem standsAt_writeDrained (h : DrainsApart A s c) : StandsAt A s (s.writeDrained c) where
  desk := writeDrained_does (same_desk.mono rfl) c rfl
  slips d := congrArg Channel.slip (chan_congr (writeDrained_feed c s) d)
  bytes a ha := by
    unfold writeDrained
    split
    · rename_i j hj
      exact byte_hostWrite_outside _ _ _ _ (by simpa only [leBytes_length, Nat.add_assoc] using h j hj a ha)
    · rfl

theorem standsAt_raiseDrained (h : DrainsApart A s c) (n : Nat) : StandsAt A s (s.raiseDrained c n) := by
  have raised : StandsAt A s (s.onChan c fun ch => { ch with drained := n }) :=
    standsAt_onChan c (fun ch => { ch with drained := n }) (fun _ => rfl) s
  exact raised.trans (standsAt_writeDrained (h.congr raised))

theorem standsAt_testEnd (h : DrainsApart A s c) : StandsAt A s (s.testEnd c) := by
  unfold testEnd
  dsimp only
  split
  · rename_i f total _ _
    split
    · have ends := standsAt_onChan (A := A) c
        (fun x => { x with state := .ending, file := some { f with trailing := total - (s.chan c).drained } }) (fun _ => rfl) s
      split
      · exact ends
      · exact ends.trans (standsAt_raiseDrained (h.congr ends) total)
    · exact .refl A s
  · exact .refl A s

theorem standsAt_recordFinished (h : DrainsApart A s c) : StandsAt A s (s.recordFinished c) := by
  unfold recordFinished
  split
  · rename_i f hf
    split
    · exact standsAt_onChan c (fun ch => { ch with file := ch.file.map fun x => { x with commitDue := true } }) (fun _ => rfl) s
    · exact standsAt_testEnd h
  · exact .refl A s

theorem standsAt_resumeOne (h : DrainsApart A s c) : StandsAt A s (s.resumeOne c) := by
  have leaves (x : State) : StandsAt A x (x.leaveStalled c) := standsAt_of_same rfl rfl rfl
  unfold resumeOne
  split
  · rename_i f hf
    split
    · split
      · rename_i t ht
        have placed : StandsAt A s t := by
          unfold placeRecord at ht
          repeat' split at ht
          all_goals cases ht
          all_goals exact standsAt_of_same rfl rfl rfl
        have runs := (placed.trans (standsAt_onChan c (fun ch => { ch with state := .running, file := some { f with held := none } })
          (fun _ => rfl) t)).trans (leaves _)
        exact runs.trans (standsAt_recordFinished (h.congr runs))
      · exact .refl A s
    · exact leaves s
  · exact leaves s

theorem standsAt_resumeAll (cs : List ChanNo) (h : ∀ c ∈ cs, DrainsApart A s c) : StandsAt A s (resumeAll cs s) := by
  induction cs generalizing s with
  | nil => exact .refl A s
  | cons c cs ih =>
    unfold resumeAll
    split
    · have one := standsAt_resumeOne (h c List.mem_cons_self)
      exact one.trans (ih fun d hd => (h d (List.mem_cons_of_mem _ hd)).congr one)
    · exact .refl A s

/-- The pages given to stalled channels leave what their drained marks miss. -/
theorem standsAt_resumeStalled (h : ∀ c ∈ s.feed.stalled, DrainsApart A s c) : StandsAt A s s.resumeStalled :=
  standsAt_resumeAll _ h

/-- No drained mark lies in the desk header. -/
theorem drainsApart_header (s : State) (c : ChanNo) : DrainsApart (fun a => a < s.desk.place + 128) s c := by
  intro j _ a ha
  simp only [answerAt, slipAt]
  omega

/-- The drained mark of another slip lies outside the area of a slip. -/
theorem drainsApart_slip {i : SlipNo} (h : (s.chan c).slip ≠ some i) :
    DrainsApart (fun a => s.slipAt i ≤ a ∧ a < s.slipAt i + 128) s c := by
  rintro j hj a ⟨lo, hi⟩
  have ne : j.val ≠ i.val := fun e => h (by rw [hj, Fin.ext e])
  simp only [answerAt, slipAt] at lo hi ⊢
  omega

end apart

/-- An answer stands after the pages given to stalled channels: no such channel holds its slip, as the answer's own clause asks. -/
theorem answered_resumeStalled {slip : Option SlipNo} {st : Status} {vs : List Byte} (ha : Claims.Answered u slip st vs s)
    (place : s.desk.place = u.desk.place) (feed : s.feed = u.feed) : Claims.Answered u slip st vs s.resumeStalled := by
  have desk : s.resumeStalled.desk = s.desk := resumeStalled_does (same_desk.mono rfl) rfl
  intro i hi
  obtain ⟨held, dropped, given⟩ := ha i hi
  refine ⟨by rw [desk]; exact held, fun e => by rw [desk]; exact dropped e, fun e => ?_⟩
  obtain ⟨map, mem⟩ := given e
  refine ⟨by rw [desk]; exact map, fun fits w hc => ?_⟩
  obtain ⟨mark, area⟩ := mem fits w hc
  have apart : StandsAt (fun a => s.slipAt i ≤ a ∧ a < s.slipAt i + 128) s s.resumeStalled :=
    standsAt_resumeStalled fun c hc' => drainsApart_slip (by
      rw [chan_congr feed]
      exact hc c (by rwa [← feed]))
  have slip : s.slipAt i = u.slipAt i := by simp [slipAt, place]
  refine ⟨(apart.bytes _ ⟨by rw [slip], by rw [slip]; omega⟩).trans mark, Eq.trans (bytes_congr _ _ fun a lo hi => ?_) area⟩
  rw [answerAt] at lo hi
  exact apart.bytes a ⟨by rw [slip]; omega, by rw [slip]; omega⟩

/-- An answer stands after what follows of itself. -/
theorem answered_settle {slip : Option SlipNo} {st : Status} {vs : List Byte} (ha : Claims.Answered u slip st vs s)
    (place : s.desk.place = u.desk.place) (feed : s.feed = u.feed) : Claims.Answered u slip st vs s.settle := by
  have desk : s.resumeStalled.desk = s.desk := resumeStalled_does (same_desk.mono rfl) rfl
  have first := answered_resumeStalled ha place feed
  have here : s.resumeStalled.desk.place = u.desk.place := by rw [desk, place]
  have second := answered_quiet first here (runCoder_quiet _)
  exact answered_quiet second ((runCoder_quiet _).place.trans here) (pump_quiet _)

/-- An operation has ended with its answer, and the operation chosen then runs. -/
structure EndedOp (u v : State) (slip : Option SlipNo) (st : Status) (vs : List Byte) (t : State) : Prop where
  running : t.exec.running = v.pick
  answered : Claims.Answered u slip st vs t
  outside : OutsideDesk v t
  segments : SegmentsStand v t
  cat : CoderTurn v t

/-- The end of the running operation, where the choice then changes the executor alone (R190, R193). -/
theorem endAnswer_ends (h : v.exec.running = some o) (e : v.engine ≠ .recovering)
    (quiet : ∀ q ∈ v.exec.suspended ++ v.exec.waiting, Claims.GoesOnLater q) (stand : SlipsStand u v) (feed : v.feed = u.feed)
    (st : Status) (vs : List Byte) : EndedOp u v o.slip st vs (v.endAnswer st vs).settleOps := by
  have exec := endAnswer_exec h st vs
  have idle : (v.endAnswer st vs).exec.running = none := by rw [exec]
  have engine : (v.endAnswer st vs).engine = v.engine := endAnswer_does (same_engine.mono rfl) st vs rfl
  have pick : (v.endAnswer st vs).pick = v.pick := by simp [pick, exec]
  have next : (v.endAnswer st vs).nextOp = (v.endAnswer st vs).chosen :=
    nextOp_of_goesOn idle (by rw [engine]; exact e) (by rw [exec]; exact quiet)
  have rest := chosen_rest (v.endAnswer st vs)
  have settled : (v.endAnswer st vs).settleOps = ((v.endAnswer st vs).chosen).settle := by rw [settleOps, next]
  have desk : (v.endAnswer st vs).chosen.desk = (v.endAnswer st vs).desk := by rw [rest]; rfl
  have place : (v.endAnswer st vs).desk.place = v.desk.place := endAnswer_does (same_place.mono rfl) st vs rfl
  have feeds : (v.endAnswer st vs).feed = v.feed := endAnswer_does (same_feed.mono rfl) st vs rfl
  have mem : (v.endAnswer st vs).chosen.mem = (v.endAnswer st vs).mem := by rw [rest]; rfl
  refine ⟨?_, ?_, ?_, ?_, ?_⟩
  · rw [settled, show ((v.endAnswer st vs).chosen).settle.exec = (v.endAnswer st vs).chosen.exec from
      settle_does (same_exec.mono rfl) rfl, chosen_running idle, pick]
  · rw [settled]
    refine answered_settle (answered_of_stand (endAnswer_answered h stand st vs) desk mem) ?_ ?_
    · rw [desk, place, stand.place]
    · rw [rest]
      exact feeds.trans feed
  · rw [settled]
    refine settle_does (keeps_outside.mono rfl) ?_
    rw [rest]
    exact onExec_does (keeps_outside.mono rfl) _ (endAnswer_does (keeps_outside.mono rfl) st vs ⟨rfl, fun _ _ => rfl⟩)
  · rw [settled]
    refine settle_does (keeps_segments.mono rfl) ?_
    rw [rest]
    exact onExec_does (keeps_segments.mono rfl) _ (endAnswer_does (keeps_segments.mono rfl) st vs (.refl v))
  · rw [settled]
    refine CoderTurn.trans (t := (v.endAnswer st vs).chosen) (.of_cat ?_) (settle_turn _)
    rw [rest]
    exact endAnswer_does (same_cat.mono rfl) st vs rfl

/-- A step after which the operation still runs: nothing is chosen. -/
theorem settleOps_of_running (h : s.exec.running.isSome = true) : s.settleOps = s.settle := by
  rw [settleOps, nextOp_of_running h]

theorem settle_exec (s : State) : s.settle.exec = s.exec := settle_does (same_exec.mono rfl) rfl

end State

end Sys2Proof.Machine
end

section
/-! SUPPORT. The first runs of the long operations: what each begins and what it refuses (R38, R39, R162, R168, R170, R180), for O50
and O49. -/

namespace Sys2Proof.Machine.State

variable {s : State} {o : Op}

/-! ## The first run of each kind, by its tests in order -/

theorem formatBegin_eq {p : FormatParams} (h : s.newRunning = some o) (b : o.body = .format p) : s.formatBegin =
    if s.engine ≠ .blank then s.endAnswer .wrongState []
    else if badFormat p then s.endAnswer .range []
    else if s.onlineMask = 0 then s.endAnswer .mediaError []
    else s.formatAccept := by
  simp only [formatBegin, h, b]

theorem verifyBegin_eq {sel : Selection} {i : Nat} {n : VerifyCounts} {v : Option Visit} (h : s.newRunning = some o)
    (b : o.body = .verify sel i n v) : s.verifyBegin =
    if badSwitch sel.all sel.switch then s.endAnswer .badSwitch []
    else if sel.badRange then s.endAnswer .range []
    else s.onRunning fun r => { r with begun := true } := by
  simp only [verifyBegin, h, b]

theorem extractBegin_refused {p : ExtractParams} {st : ExtractState} (h : s.newRunning = some o) (b : o.body = .extract p st)
    (bad : badSwitch false p.switch = true ∨ p.badRange = true) :
    s.extractBegin = s.endAnswer (if badSwitch false p.switch then .badSwitch else .range) [] := by
  simp only [extractBegin, h, b]
  split
  · rfl
  · rw [if_pos (bad.resolve_left ‹_›)]

theorem extractBegin_start {p : ExtractParams} {st : ExtractState} (h : s.newRunning = some o) (b : o.body = .extract p st)
    (sw : badSwitch false p.switch = false) (range : p.badRange = false) (r : p.resume = none) : s.extractBegin =
    (s.onRunning fun r => { r with begun := true }).onExtract fun x => { x with groups := maskGroups p.mask } := by
  simp only [extractBegin, h, b, sw, range, r, Bool.false_eq_true, if_false]

theorem extractBegin_resume {p : ExtractParams} {st : ExtractState} {n blk i : Nat} (h : s.newRunning = some o)
    (b : o.body = .extract p st) (sw : badSwitch false p.switch = false) (range : p.badRange = false)
    (r : p.resume = some (n, blk, i)) :
    s.extractBegin = (s.onRunning fun r => { r with begun := true }).extractResume p n blk i := by
  simp only [extractBegin, h, b, sw, range, r, Bool.false_eq_true, if_false]

theorem catalogBegin_eq {sel : Selection} {b c i w : Nat} (h : s.newRunning = some o) (e : o.body = .catalogRead sel b c i w)
    (go : o.stopping = false) : s.catalogBegin =
    if badSwitch sel.all sel.switch then s.endAnswer .badSwitch []
    else if sel.badRange ∨ c = 0 ∨ Config.segmentEnd ≤ i then s.endAnswer .range []
    else (s.onRunning fun r => { r with begun := true }).takeSuspension := by
  simp only [catalogBegin, h, e, go, Bool.false_eq_true, if_false]

/-- A JOURNAL-READ that has begun, its end fixed (R180). -/
def journalBegun (q cap b : Nat) (s : State) : State :=
  s.onRunning fun r => { r with begun := true, body := .journalRead q cap b (min (q + cap) s.jnl.settled) q }

theorem journalBegin_eq {q cap b e n : Nat} (h : s.newRunning = some o) (hb : o.body = .journalRead q cap b e n)
    (go : o.stopping = false) : s.journalBegin =
    if cap = 0 ∨ s.jnl.head < q then s.endAnswer .range []
    else if q < s.jnl.release then s.endAnswer .gone []
    else (s.journalBegun q cap b).journalMove q (min (q + cap) s.jnl.settled) q := by
  simp only [journalBegin, h, hb, go, Bool.false_eq_true, if_false]
  rfl

/-! ## A resume point (R170) -/

/-- An EXTRACT may read the segment of its resume point. -/
def mayResume (s : State) (p : ExtractParams) (n : Nat) : Prop :=
  ∃ ls g, s.live? n = some (ls, g) ∧ ls ≠ .erasing ∧ g.key.switch = p.switch ∧ g.key.day = p.day ∧ maskHas p.mask g.key.group = true

theorem extractResume_gone {p : ExtractParams} {n blk i : Nat} (h : ¬ s.mayResume p n) :
    s.extractResume p n blk i = s.endAnswer .gone [] := by
  unfold extractResume
  split
  · rename_i ls g hl
    refine if_pos (by_contra fun c => h ⟨ls, g, hl, ?_⟩)
    simpa only [not_or, ne_eq, not_not, Bool.not_eq_false] using c
  · rfl

theorem extractResume_live {p : ExtractParams} {n blk i : Nat} {ls : LiveState} {g : Segment} (hl : s.live? n = some (ls, g))
    (may : ls ≠ .erasing ∧ g.key.switch = p.switch ∧ g.key.day = p.day ∧ maskHas p.mask g.key.group = true) :
    s.extractResume p n blk i =
    if g.blocks ≤ blk then s.endAnswer .range []
    else
      (s.onExtract fun x =>
        { x with groups := (maskGroups p.mask).filter fun q => decide (g.key.group < q),
                 key := some (g.key.group, g.part + 1, ((s.dirEntry g.key).map DirEntry.highest).getD g.part),
                 skip := some (blk, i) }).extractRead n g := by
  unfold extractResume
  rw [hl]
  dsimp only
  rw [if_neg (by obtain ⟨a, b, c, d⟩ := may; simp [a, b, c, d])]

end Sys2Proof.Machine.State

namespace Sys2Proof.Claims

open Sys2Proof.Machine Sys2Proof.Machine.State

variable {s t : State} {o : Op} (bus : Bus)

theorem exec_format (a : Acts s) : Machine.exec (.format bus) s = .next (at_ bus s).formatBegin.settleOps :=
  congrArg Host.Outcome.next (s.commandedOn_on bus _ a.1 a.2)
theorem exec_verify (a : Acts s) : Machine.exec (.verify bus) s = .next (at_ bus s).verifyBegin.settleOps :=
  congrArg Host.Outcome.next (s.commandedOn_on bus _ a.1 a.2)
theorem exec_extract (a : Acts s) : Machine.exec (.extract bus) s = .next (at_ bus s).extractBegin.settleOps :=
  congrArg Host.Outcome.next (s.commandedOn_on bus _ a.1 a.2)
theorem exec_catalogRead (a : Acts s) : Machine.exec (.catalogRead bus) s = .next (at_ bus s).catalogBegin.settleOps :=
  congrArg Host.Outcome.next (s.commandedOn_on bus _ a.1 a.2)
theorem exec_journalRead (a : Acts s) : Machine.exec (.journalRead bus) s = .next (at_ bus s).journalBegin.settleOps :=
  congrArg Host.Outcome.next (s.commandedOn_on bus _ a.1 a.2)

/-! ## Refusals -/

/-- What a refusal leaves: nothing runs, the blocks are as they were, and the answer map has the status. -/
structure Refuses (bus : Bus) (s : State) (slip : Option SlipNo) (st : Status) (t : State) : Prop where
  running : t.exec.running = none
  ret : t.ret = s.ret
  recon : t.recon = s.recon
  table : t.cat.table = s.cat.table
  eds : t.eds = s.eds
  kept : Kept s t
  map : ∀ i, slip = some i → (at_ bus s).dropsAnswer i = false → bget t.desk.map i = st.code

/-- The only operation of the executor ends with an answer: a refusal. -/
theorem refuses_of_endAnswer (e : s.engine ≠ .recovering) (f : Exec → Exec) (running : (f s.exec).running = some o)
    (none : (f s.exec).suspended = [] ∧ (f s.exec).waiting = []) (st : Status) (vs : List Byte) :
    Refuses bus s o.slip st (((at_ bus s).onExec f).endAnswer st vs).settleOps := by
  set v := (at_ bus s).onExec f with hv
  have alone : v.exec.suspended ++ v.exec.waiting = [] := by
    show (f s.exec).suspended ++ (f s.exec).waiting = []
    rw [none.1, none.2]
    rfl
  have ends : EndedOp (at_ bus s) v o.slip st vs (v.endAnswer st vs).settleOps :=
    endAnswer_ends (v := v) running e (by rw [alone]; simp) (.of_same (s := at_ bus s) rfl rfl rfl) rfl st vs
  refine ⟨?_, ?_, ?_, ends.segments.table, ?_, ?_, fun i hi drop => ((ends.answered i hi).2.2 drop).1⟩
  · rw [ends.running, pick, alone]
    rfl
  · exact settleOps_does (same_ret.mono rfl) (endAnswer_does (same_ret.mono rfl) st vs rfl)
  · exact settleOps_does (same_recon.mono rfl) (endAnswer_does (same_recon.mono rfl) st vs rfl)
  · exact settleOps_does (same_eds.mono rfl) (endAnswer_does (same_eds.mono rfl) st vs rfl)
  · exact settleOps_does (keeps_kept.mono rfl) (endAnswer_does (keeps_kept.mono rfl) st vs
      (onExec_does (keeps_kept.mono rfl) f (onBus_does (keeps_kept.mono rfl) bus (Kept.refl s))))

/-- A command whose first run is a refusal. -/
theorem refused {c : Instr} {x : State} {st : Status} (hx : Machine.exec c s = .next x) (r : Refuses bus s o.slip st x) :
    ∃ t, Machine.exec c s = .next t ∧ t.exec.running = none ∧ t.ret = s.ret ∧ t.recon = s.recon ∧ t.cat.table = s.cat.table ∧
      t.eds = s.eds ∧ Kept s t ∧ ∀ i, o.slip = some i → (at_ bus s).dropsAnswer i = false → bget t.desk.map i = st.code :=
  ⟨x, hx, r.running, r.ret, r.recon, r.table, r.eds, r.kept, r.map⟩

/-- A long operation that has not yet run and is the only one of the executor. -/
structure Alone (o : Op) (s : State) : Prop where
  fresh : Fresh o s
  goes : o.stopping = false
  suspended : s.exec.suspended = []
  waiting : s.exec.waiting = []

namespace Alone

variable {bus}

theorem newRunning (h : Alone o s) : (at_ bus s).newRunning = some o := newRunning_of_fresh (s := at_ bus s) h.fresh

/-- The operation is refused as it stands. -/
theorem refuses (h : Alone o s) (st : Status) (vs : List Byte) : Refuses bus s o.slip st ((at_ bus s).endAnswer st vs).settleOps :=
  refuses_of_endAnswer bus h.fresh.1.2 id h.fresh.2.1 ⟨h.suspended, h.waiting⟩ st vs

/-- The operation is refused with its first run begun. -/
theorem refuses_begun (h : Alone o s) (f : Op → Op) (slip : (f o).slip = o.slip) (st : Status) (vs : List Byte) :
    Refuses bus s o.slip st (((at_ bus s).onRunning f).endAnswer st vs).settleOps := by
  rw [← slip]
  refine refuses_of_endAnswer bus h.fresh.1.2 (fun e => { e with running := e.running.map f }) ?_ ⟨h.suspended, h.waiting⟩ st vs
  show s.exec.running.map f = some (f o)
  rw [h.fresh.2.1]
  rfl

end Alone

theorem badSwitch_false_iff (sw : Nat) : badSwitch false sw = true ↔ 1023 < sw := by simp [badSwitch]

section refusals

variable (h : Alone o s)
include h

theorem format_refused {p : FormatParams} (b : o.body = .format p) :
    (s.engine ≠ .blank → Refuses bus s o.slip .wrongState (at_ bus s).formatBegin.settleOps) ∧
    (s.engine = .blank → ¬ GoodFormat p → Refuses bus s o.slip .range (at_ bus s).formatBegin.settleOps) ∧
    (s.engine = .blank → GoodFormat p → s.onlineMask = 0 →
      Refuses bus s o.slip .mediaError (at_ bus s).formatBegin.settleOps) := by
  have engine : (at_ bus s).engine = s.engine := rfl
  have mask : (at_ bus s).onlineMask = s.onlineMask := rfl
  rw [formatBegin_eq h.newRunning b, engine, mask]
  refine ⟨fun e => ?_, fun e bad => ?_, fun e good m => ?_⟩
  · rw [if_pos e]
    exact h.refuses _ _
  · rw [if_neg (not_not.mpr e), if_pos ((badFormat_iff p).mpr bad)]
    exact h.refuses _ _
  · rw [if_neg (not_not.mpr e), if_neg (fun c => (badFormat_iff p).mp c good), if_pos m]
    exact h.refuses _ _

theorem verify_refused {sel : Selection} {i : Nat} {n : VerifyCounts} {v : Option Visit} (b : o.body = .verify sel i n v) :
    (¬ GoodSwitch sel.all sel.switch → Refuses bus s o.slip .badSwitch (at_ bus s).verifyBegin.settleOps) ∧
    (GoodSwitch sel.all sel.switch → ¬ GoodSelection sel → Refuses bus s o.slip .range (at_ bus s).verifyBegin.settleOps) := by
  rw [verifyBegin_eq h.newRunning b]
  refine ⟨fun bad => ?_, fun good bad => ?_⟩
  · rw [if_pos ((badSwitch_iff _ _).mpr bad)]
    exact h.refuses _ _
  · rw [if_neg (fun c => (badSwitch_iff _ _).mp c good), if_pos ((selection_badRange_iff sel).mpr bad)]
    exact h.refuses _ _

theorem extract_refused {p : ExtractParams} {st : ExtractState} (b : o.body = .extract p st) :
    (1023 < p.switch → Refuses bus s o.slip .badSwitch (at_ bus s).extractBegin.settleOps) ∧
    (p.switch ≤ 1023 → ¬ GoodExtract p → Refuses bus s o.slip .range (at_ bus s).extractBegin.settleOps) := by
  refine ⟨fun bad => ?_, fun good bad => ?_⟩
  · have sw := (badSwitch_false_iff p.switch).mpr bad
    rw [extractBegin_refused h.newRunning b (.inl sw), if_pos sw]
    exact h.refuses _ _
  · rw [extractBegin_refused h.newRunning b (.inr ((extract_badRange_iff p).mpr bad)),
      if_neg (fun c => absurd ((badSwitch_false_iff _).mp c) (Nat.not_lt.mpr good))]
    exact h.refuses _ _

theorem extract_resume_refused {p : ExtractParams} {st : ExtractState} (b : o.body = .extract p st) {n blk i : Nat}
    (sw : p.switch ≤ 1023) (good : GoodExtract p) (r : p.resume = some (n, blk, i)) :
    (¬ s.mayResume p n → Refuses bus s o.slip .gone (at_ bus s).extractBegin.settleOps) ∧
    ∀ ls g, s.live? n = some (ls, g) → ls ≠ .erasing → g.key.switch = p.switch → g.key.day = p.day →
      maskHas p.mask g.key.group = true → g.blocks ≤ blk → Refuses bus s o.slip .range (at_ bus s).extractBegin.settleOps := by
  have noSwitch : badSwitch false p.switch = false := by
    rw [← Bool.not_eq_true, badSwitch_false_iff]
    omega
  have noRange : p.badRange = false := by
    rw [← Bool.not_eq_true, extract_badRange_iff]
    exact not_not.mpr good
  have live : ∀ m, ((at_ bus s).onRunning fun r => { r with begun := true }).live? m = s.live? m :=
    SegmentsStand.live? (s := s) ⟨rfl, rfl, rfl, fun _ => rfl⟩
  rw [extractBegin_resume h.newRunning b noSwitch noRange r]
  refine ⟨fun gone => ?_, fun ls g hl er hs hd hm blocks => ?_⟩
  · rw [extractResume_gone (by simpa only [mayResume, live] using gone)]
    exact h.refuses_begun _ rfl _ _
  · rw [extractResume_live ((live n).trans hl) ⟨er, hs, hd, hm⟩, if_pos blocks]
    exact h.refuses_begun _ rfl _ _

theorem catalogRead_refused {sel : Selection} {b c i w : Nat} (e : o.body = .catalogRead sel b c i w) :
    (¬ GoodSwitch sel.all sel.switch → Refuses bus s o.slip .badSwitch (at_ bus s).catalogBegin.settleOps) ∧
    (GoodSwitch sel.all sel.switch → (¬ GoodSelection sel ∨ c = 0 ∨ 262144 ≤ i) →
      Refuses bus s o.slip .range (at_ bus s).catalogBegin.settleOps) := by
  rw [catalogBegin_eq h.newRunning e h.goes]
  refine ⟨fun bad => ?_, fun good bad => ?_⟩
  · rw [if_pos ((badSwitch_iff _ _).mpr bad)]
    exact h.refuses _ _
  · rw [if_neg (fun c => (badSwitch_iff _ _).mp c good), if_pos (bad.imp_left (selection_badRange_iff sel).mpr)]
    exact h.refuses _ _

theorem journalRead_refused {q cap b e n : Nat} (hb : o.body = .journalRead q cap b e n) :
    (cap = 0 ∨ s.jnl.head < q → Refuses bus s o.slip .range (at_ bus s).journalBegin.settleOps) ∧
    (cap ≠ 0 → q ≤ s.jnl.head → q < s.jnl.release → Refuses bus s o.slip .gone (at_ bus s).journalBegin.settleOps) ∧
    (cap ≠ 0 → q ≤ s.jnl.head → s.jnl.release ≤ q → s.jnl.settled ≤ q →
      Refuses bus s o.slip .done (at_ bus s).journalBegin.settleOps) := by
  have jnl : (at_ bus s).jnl = s.jnl := rfl
  rw [journalBegin_eq h.newRunning hb h.goes, jnl]
  refine ⟨fun bad => ?_, fun hc le low => ?_, fun hc le high past => ?_⟩
  · rw [if_pos bad]
    exact h.refuses _ _
  · rw [if_neg (by omega), if_pos low]
    exact h.refuses _ _
  · rw [if_neg (by omega), if_neg (by omega), journalMove, if_pos (by omega)]
    exact h.refuses_begun _ rfl _ _

end refusals

/-- Settles O50, kind by kind: each refusal is the end of an operation that is alone. -/
theorem longOperationsAreRefused : Obligations.LongOperationsAreRefused := by
  unfold Obligations.LongOperationsAreRefused
  intro bus o s fresh goes su wa Ends
  have h : Alone o s := ⟨fresh, goes, su, wa⟩
  have act : Acts s := fresh.1
  refine ⟨fun p b => ?_, fun sel i n v b => ?_, fun p st b => ?_, fun sel b cap i w e => ?_, fun q cap b e n hb => ?_⟩
  · obtain ⟨wrong, range, lanes⟩ := format_refused bus h b
    exact ⟨fun e => refused bus (exec_format bus act) (wrong e), fun e g => refused bus (exec_format bus act) (range e g),
      fun e g m => refused bus (exec_format bus act) (lanes e g m)⟩
  · obtain ⟨sw, range⟩ := verify_refused bus h b
    exact ⟨fun e => refused bus (exec_verify bus act) (sw e), fun e g => refused bus (exec_verify bus act) (range e g)⟩
  · obtain ⟨sw, range⟩ := extract_refused bus h b
    refine ⟨fun e => refused bus (exec_extract bus act) (sw e), fun e g => refused bus (exec_extract bus act) (range e g),
      fun n blk i e good r => ?_⟩
    obtain ⟨gone, block⟩ := extract_resume_refused bus h b e good r
    refine ⟨fun unread => refused bus (exec_extract bus act) (gone ?_), fun ls g hl er hs hd hm k =>
      refused bus (exec_extract bus act) (block ls g hl er hs hd hm k)⟩
    rintro ⟨ls, g, hl, er, hs, hd, hm⟩
    have := unread ls g hl
    simp [er, hs, hd, hm] at this
  · obtain ⟨sw, range⟩ := catalogRead_refused bus h e
    exact ⟨fun e => refused bus (exec_catalogRead bus act) (sw e), fun e g => refused bus (exec_catalogRead bus act) (range e g)⟩
  · obtain ⟨range, gone, done⟩ := journalRead_refused bus h hb
    exact ⟨fun e => refused bus (exec_journalRead bus act) (range e),
      fun c q r => refused bus (exec_journalRead bus act) (gone c q r),
      fun c q r k => refused bus (exec_journalRead bus act) (done c q r k)⟩

end Sys2Proof.Claims
end

section
/-! SUPPORT. The lanes' queues (R124 to R127, R178): what leaves them as they are but for a run on a journal queue, and what a grant
takes. -/

namespace Sys2Proof.Machine

/-! ## One grant (R127) -/

/-- What becomes of a queue at a grant: it stands, or its front request is in progress on a lane that had none. -/
def Granted (old new : List Request) (before after : Lane) : Prop :=
  new = old ∨ ∃ x, old = x :: new ∧ after.inProgress = some x ∧ before.inProgress = none

theorem Lane.grant_queues (share : Nat) (a : Lane) :
    Granted a.foreQ (a.grant share).foreQ a (a.grant share) ∧ Granted a.backQ (a.grant share).backQ a (a.grant share) := by
  by_cases can : a.canGrant = true
  · have idle : a.inProgress = none := by
      have := (Bool.and_eq_true _ _).mp ((Bool.and_eq_true _ _).mp can).1
      exact Option.isNone_iff_eq_none.mp this.2
    have latched : (a.latch share).foreQ = a.foreQ ∧ (a.latch share).backQ = a.backQ := by
      unfold Lane.latch
      split <;> exact ⟨rfl, rfl⟩
    have back : Granted a.foreQ (a.latch share).grantBack.foreQ a (a.latch share).grantBack ∧
        Granted a.backQ (a.latch share).grantBack.backQ a (a.latch share).grantBack := by
      unfold Lane.grantBack
      split
      · exact ⟨.inl latched.1, .inl latched.2⟩
      · rename_i r q hq
        exact ⟨.inl latched.1, .inr ⟨r, latched.2.symm.trans hq, rfl, idle⟩⟩
    have fore : Granted a.foreQ (a.latch share).grantFore.foreQ a (a.latch share).grantFore ∧
        Granted a.backQ (a.latch share).grantFore.backQ a (a.latch share).grantFore := by
      unfold Lane.grantFore
      split
      · exact ⟨.inl latched.1, .inl latched.2⟩
      · rename_i r q hq
        exact ⟨.inr ⟨r, latched.1.symm.trans hq, rfl, idle⟩, .inl latched.2⟩
    unfold Lane.grant
    simp only [can, Bool.not_true, Bool.false_eq_true, if_false]
    split
    · exact ⟨.inl rfl, .inl rfl⟩
    · split
      · exact ⟨.inl rfl, .inl rfl⟩
      · unfold Lane.windowGrant
        split
        · exact back
        · split
          · exact fore
          · exact back
  · unfold Lane.grant
    simp only [can, Bool.not_false, if_true]
    exact ⟨.inl rfl, .inl rfl⟩

/-- A lane that is OFFLINE makes no grant (R126). -/
theorem Lane.grant_of_offline {a : Lane} (h : a.online = false) (share : Nat) : a.grant share = a := by
  simp [Lane.grant, Lane.canGrant, h]

namespace State

variable {s0 s t u : State}

/-! ## The coder's turn, for relations that need a look at its one entry -/

section coder

variable {R : State → State → Prop} (o : Obeys R [.pool, .coder, .dir])
  (posts : ∀ {x : State} (k : StreamKey), R s0 x → R s0 (x.log .streamLimit (.key k) 0 0 0))
include o posts

theorem refuseOpen_keeps (k : StreamKey) (h : R s0 s) : R s0 (s.refuseOpen k) := by
  unfold refuseOpen
  split
  · split
    · exact h
    · exact posts k (setDir_does (o.mono rfl) k _ h)
  · exact h

theorem openRefused_keeps (k : StreamKey) (h : R s0 s) : R s0 (s.openRefused k) := by
  have closed := dir_does (o.mono rfl) (fun c => { c with openReq := none }) (fun _ => ⟨rfl, rfl⟩) (refuseOpen_keeps o posts k h)
  unfold openRefused
  dsimp only
  split
  · exact setBuffer_does (o.mono rfl) _ _ (setPlaces_does (o.mono rfl) _ _ closed)
  · exact closed

theorem coderNext_keeps (e : s.coderNext = some t) (h : R s0 s) : R s0 t := by
  unfold coderNext at e
  repeat' split at e
  all_goals cases e
  · exact openRefused_keeps o posts _ h
  · exact dir_does (o.mono rfl) (fun c => { c with openReq := _ }) (fun _ => ⟨rfl, rfl⟩) h
  · exact selectBlock_does o _ _ h

theorem coderLoop_keeps (n : Nat) (h : R s0 s) : R s0 (coderLoop n s) := by
  induction n generalizing s with
  | zero => exact h
  | succ n ih =>
    unfold coderLoop
    split
    · rename_i t ht
      exact ih (coderNext_keeps o posts ht h)
    · exact restCoder_does (o.mono rfl) h

/-- The coder touches the pool, itself and the directory, and submits nothing but STREAM-LIMIT (R23, R105). -/
theorem runCoder_keeps (h : R s0 s) : R s0 s.runCoder := by
  unfold runCoder
  split
  · exact h
  · exact coderLoop_keeps o posts _ h

end coder

/-! ## The queues but for the journal's -/

/-- Every lane stands but for its journal queue. -/
structure QueuesStand (s t : State) : Prop where
  share : t.lanes.share = s.lanes.share
  lane : ∀ l, ∃ j, bget t.lanes.lane l = { bget s.lanes.lane l with journalQ := j }

namespace QueuesStand

theorem of_lanes (h : t.lanes = s.lanes) : QueuesStand s t := ⟨by rw [h], fun l => ⟨(bget s.lanes.lane l).journalQ, by rw [h]⟩⟩
theorem refl (s : State) : QueuesStand s s := of_lanes rfl
theorem trans (h : QueuesStand s t) (g : QueuesStand t u) : QueuesStand s u where
  share := g.share.trans h.share
  lane l := by
    obtain ⟨j, hj⟩ := h.lane l
    obtain ⟨k, hk⟩ := g.lane l
    exact ⟨k, by rw [hk, hj]⟩

/-- The parts that leave the lanes alone. -/
theorem obeys : Obeys QueuesStand [.notes, .book, .place, .desk, .buf, .exec, .feed, .pool, .recon, .eds, .coder, .cat, .dir, .ret,
    .holds, .scrub, .jnl, .marks, .media, .regs, .bus, .power] := by
  refine ⟨fun h g => h.trans g, fun p hp => ?_⟩
  cases p
  case lanes | online | format => exact absurd hp (by decide)
  case desk => intro s a bs _ _; exact of_lanes (hostWrite_lanes ..)
  case buf => intro s a bs; exact of_lanes (hostWrite_lanes ..)
  case notes | book | place | pool | cat | dir | ret | jnl | media => intro s f _; exact .of_lanes rfl
  all_goals intro s f; exact .of_lanes rfl

end QueuesStand

theorem formRun_queues (s : State) : QueuesStand s s.formRun := by
  unfold formRun
  split
  · exact .refl s
  · split
    · exact .refl s
    · rename_i l hl
      refine ⟨rfl, fun m => ?_⟩
      by_cases e : m = l
      · subst e
        exact ⟨_, bget_bmod_self _ _ _⟩
      · exact ⟨(bget s.lanes.lane m).journalQ, bget_bmod_ne _ _ _ _ (Ne.symm e)⟩

theorem takeEntries_lanes (es : List EntryBody) (second : Bool) (s : State) : (takeEntries second es s).lanes = s.lanes := by
  induction es generalizing second s with
  | nil => rfl
  | cons b bs ih =>
    refine (ih true _).trans ?_
    unfold takeEntry
    dsimp only
    split
    · exact notice_does (same_lanes.mono rfl) .findings rfl
    · rfl

theorem submit_queues (sub : Submission) (s : State) : QueuesStand s (s.submit sub).1 := by
  unfold submit
  split
  · exact .refl s
  · split
    · have taken : QueuesStand s (takeEntries false sub.entries s) := .of_lanes (takeEntries_lanes sub.entries false s)
      unfold takeSubmission
      dsimp only
      split
      · exact taken.trans (formRun_queues _)
      · exact taken
    · exact .of_lanes rfl

theorem log_queues (k : EntryKind) (sub : Subject) (v1 : Int) (v2 v3 : Nat) (s : State) :
    QueuesStand s (s.log k sub v1 v2 v3) := submit_queues _ s

theorem dropEdition_queues (i : SlotNo) (s : State) : QueuesStand s (s.dropEdition i) :=
  (onSlot_does (QueuesStand.obeys.mono rfl) i _ (.refl s)).trans (log_queues ..)

theorem unbindEdition_queues (ref : Option EditionRef) (s : State) : QueuesStand s (s.unbindEdition ref) := by
  unfold unbindEdition
  dsimp only
  split
  · exact .refl s
  · rename_i r
    have less := onSlot_does (QueuesStand.obeys.mono rfl) r.slot (fun x => { x with refs := x.refs - 1 }) (.refl s)
    split
    · exact less.trans (dropEdition_queues _ _)
    · exact less

theorem judgeWatch_queues (s : State) : QueuesStand s s.judgeWatch := judgeWatch_does (QueuesStand.obeys.mono rfl) (.refl s)

theorem closeSegment_queues (cause : CloseCause) (n : Nat) (s : State) : QueuesStand s (s.closeSegment cause n) := by
  unfold closeSegment
  split
  · rename_i g hg
    have first : QueuesStand s (s.onDir g.key fun d => { d with filling := none }) :=
      onDir_does (QueuesStand.obeys.mono rfl) g.key _ (.refl s)
    dsimp only
    split
    · have freed := setContent_does (QueuesStand.obeys.mono rfl) n .free first
      have judged := freed.trans (judgeWatch_queues _)
      have unbound := judged.trans (unbindEdition_queues g.edition _)
      exact (dropFromDir_does (QueuesStand.obeys.mono rfl) g.key unbound).trans (log_queues ..)
    · exact (setContent_does (QueuesStand.obeys.mono rfl) n _ first).trans (log_queues ..)
  · exact .refl s

theorem closeAll_queues (cause : CloseCause) (ns : List Nat) (s : State) : QueuesStand s (closeAll cause ns s) := by
  induction ns generalizing s with
  | nil => exact .refl s
  | cons n ns ih => exact (closeSegment_queues cause n s).trans (ih _)

theorem runCoder_queues (s : State) : QueuesStand s s.runCoder :=
  runCoder_keeps (QueuesStand.obeys.mono rfl) (fun _ h => h.trans (log_queues ..)) (.refl s)

theorem resumeStalled_queues (s : State) : QueuesStand s s.resumeStalled :=
  resumeStalled_does (QueuesStand.obeys.mono rfl) (.refl s)

/-! ## The grants after an event -/

/-- Each lane after an event: a run may stand in its journal queue, and it has made its grant (R126). -/
theorem pump_lane (s : State) (l : LaneNo) : ∃ j, bget s.pump.lanes.lane l =
    Lane.grant s.lanes.share { bget s.lanes.lane l with journalQ := j } := by
  obtain ⟨j, hj⟩ := (formRun_queues s).lane l
  refine ⟨j, ?_⟩
  rw [pump, grantLanes_lane, (formRun_queues s).share, hj]

theorem pump_share (s : State) : s.pump.lanes.share = s.lanes.share := by
  rw [pump, grantLanes_share, (formRun_queues s).share]

theorem settle_lane (s : State) (l : LaneNo) : ∃ j, bget s.settle.lanes.lane l =
    Lane.grant s.lanes.share { bget s.lanes.lane l with journalQ := j } := by
  have before := (resumeStalled_queues s).trans (runCoder_queues _)
  obtain ⟨j, hj⟩ := pump_lane s.resumeStalled.runCoder l
  obtain ⟨k, hk⟩ := before.lane l
  exact ⟨j, by rw [settle, hj, hk, before.share]⟩

theorem settle_share (s : State) : s.settle.lanes.share = s.lanes.share := by
  rw [settle, pump_share]
  exact ((resumeStalled_queues s).trans (runCoder_queues _)).share

/-- A lane after an event has no further grant to make. -/
theorem settle_granted (s : State) (l : LaneNo) :
    Lane.grant s.settle.lanes.share (bget s.settle.lanes.lane l) = bget s.settle.lanes.lane l := by
  obtain ⟨j, hj⟩ := settle_lane s l
  rw [hj, settle_share, Lane.grant_grant]

/-- A request that stands last in a lane's foreground queue has joined it. -/
theorem joinedFore_settle {r : Request} {old : Lane} {l : LaneNo} {j : List Request}
    (h : bget s.lanes.lane l = { old with foreQ := old.foreQ ++ [r], journalQ := j }) : Claims.JoinedFore r old l s.settle := by
  obtain ⟨k, hk⟩ := settle_lane s l
  refine ⟨?_, settle_granted s l⟩
  rw [hk, h]
  exact (Lane.grant_queues s.lanes.share { old with foreQ := old.foreQ ++ [r], journalQ := k }).1

end State

end Sys2Proof.Machine
end

section
/-! SUPPORT. The first runs that go on: what a long operation begins with (R143, R153, R162, R168, R170, R180), for O49. -/

namespace Sys2Proof.Machine.State

variable {s t : State} {o : Op}

/-! ## A resumed EXTRACT's first fetch (R157, R170) -/

theorem setVisit_op_running (h : s.exec.running = some o) (v : Option Visit) :
    (s.setVisit (.op o.adm) v).exec.running = some { o with body := o.body.setVisit v } := by
  simp [setVisit, onOp, onExec, h]

theorem onExtract_running {p : ExtractParams} {st : ExtractState} (h : s.exec.running = some { o with body := .extract p st })
    (f : ExtractState → ExtractState) : (s.onExtract f).exec.running = some { o with body := .extract p (f st) } := by
  simp [onExtract, onBody, onRunning, onExec, h]

/-- The progress of an EXTRACT that reads a segment from its start. -/
def reading (n : Nat) (g : Segment) (st : ExtractState) : ExtractState :=
  { st with read := st.read + 1, visit := some { newVisit n g with asked := min 1048576 g.bytes, waiting := true } }

/-- The progress of an EXTRACT that is to go on at its resume point. -/
def resuming (s : State) (p : ExtractParams) (blk i : Nat) (g : Segment) (st : ExtractState) : ExtractState :=
  { st with groups := (maskGroups p.mask).filter fun q => decide (g.key.group < q),
            key := some (g.key.group, g.part + 1, ((s.dirEntry g.key).map DirEntry.highest).getD g.part),
            skip := some (blk, i) }

/-- The first reading of a part, its lane ONLINE and something to read: its first fetch joins the lane's foreground queue. -/
theorem extractRead_fetches {p : ExtractParams} {st : ExtractState} {n : Nat} {g : Segment}
    (h : s.exec.running = some { o with body := .extract p st }) (bytes : g.bytes ≠ 0) (on : s.isOnline (laneOf n) = true) :
    (s.extractRead n g).exec.running = some { o with body := .extract p (reading n g st) } ∧
    (s.extractRead n g).cat = (s.pin n).cat ∧ (s.extractRead n g).engine = s.engine ∧
    (s.extractRead n g).lanes = (s.enqueueFore (laneOf n) (Claims.fetchOf n 0 g.bytes (.op o.adm))).lanes := by
  set r : State := ((s.beginVisit (.op o.adm) n g).onExtract fun st => { st with read := st.read + 1 }) with hr
  have begun : r.exec.running = some { o with body := .extract p { st with read := st.read + 1, visit := some (newVisit n g) } } := by
    have pinned : (s.pin n).exec.running = some { o with body := .extract p st } := by
      rw [show (s.pin n).exec = s.exec from onSegment_does (same_exec.mono rfl) n _ rfl, h]
    exact onExtract_running (setVisit_op_running pinned (some (newVisit n g))) _
  have lanes : r.lanes = s.lanes := onSegment_does (same_lanes.mono rfl) n (fun g => { g with pins := g.pins + 1 }) rfl
  have online : r.isOnline (laneOf n) = true := by rw [isOnline, lanes]; exact on
  have engine : (s.pin n).engine = s.engine := onSegment_does (same_engine.mono rfl) n _ rfl
  have goes : r.extractGo = r.issueFetch (.op o.adm) (newVisit n g) := by
    unfold extractGo
    rw [begun]
    show (if g.bytes ≤ 0 then _ else if r.isOnline (laneOf n) = true then _ else _) = _
    rw [if_neg (by omega), if_pos online]
  have read : s.extractRead n g = r.extractGo := by
    unfold extractRead
    rw [h]
  rw [read, goes]
  refine ⟨?_, ?_, ?_, ?_⟩
  · show ((r.setVisit (.op o.adm) _).enqueueFore _ _).exec.running = _
    refine (setVisit_op_running (o := { o with body := .extract p { st with read := st.read + 1, visit := some (newVisit n g) } })
      begun _).trans ?_
    simp [reading, newVisit, fetchLength, Config.fetchBytes, OpBody.setVisit]
  · refine (issueFetch_does (same_cat.mono rfl) _ _ rfl : _ = r.cat).trans ?_
    exact onExtract_does (same_cat.mono rfl) _ (setVisit_does (same_cat.mono rfl) _ _ rfl)
  · exact issueFetch_does (same_engine.mono rfl) _ _
      (onExtract_does (same_engine.mono rfl) _ (setVisit_does (same_engine.mono rfl) _ _ engine))
  · have issued : (r.issueFetch (.op o.adm) (newVisit n g)).lanes =
        (r.enqueueFore (laneOf n) (Claims.fetchOf n 0 g.bytes (.op o.adm))).lanes := rfl
    rw [issued, enqueueFore, onLane, onLanes_lanes, lanes]
    rfl

end Sys2Proof.Machine.State

namespace Sys2Proof.Claims

open Sys2Proof.Machine Sys2Proof.Machine.State

variable {s t : State} {o : Op} (bus : Bus)

theorem exec_expire (a : Acts s) {p : Pass} (h : (at_ bus s).newRunning = some o) (b : o.body = .expire p) :
    Machine.exec (.expire bus) s = .next
      ((at_ bus s).onRunning fun r => { r with begun := true, body := .expire Pass.start }).takeSuspension.settleOps := by
  refine (congrArg Host.Outcome.next (s.commandedOn_on bus _ a.1 a.2)).trans (congrArg Host.Outcome.next ?_)
  change (match (at_ bus s).newRunning with
    | some o => _
    | none => _) = _
  rw [h]
  dsimp only
  rw [b]
  rfl

theorem exec_retain_walk (a : Acts s) {g : GroupNo} {i n : Nat} (front : s.frontQuick .retain = none)
    (h : (at_ bus s).newRunning = some o) (b : o.body = .walk g i n) : Machine.exec (.retain bus) s = .next
      ((at_ bus s).onRunning fun r => { r with begun := true }).takeSuspension.settleOps := by
  refine (congrArg Host.Outcome.next (s.commandedOn_on bus _ a.1 a.2)).trans (congrArg Host.Outcome.next ?_)
  have quick : (at_ bus s).frontQuick .retain = none := front
  change (match (at_ bus s).frontQuick .retain with
    | some _ => _
    | none => match (at_ bus s).newRunning with
      | some o => _
      | none => _) = _
  rw [quick, h]
  dsimp only
  rw [b]
  rfl

/-- A first run after which the operation runs on. -/
theorem begins {c : Instr} {x : State} {f : Op → Op} (fr : Fresh o s) (hx : Machine.exec c s = .next x)
    (e : x = ((at_ bus s).onRunning f).settleOps) {b : OpBody} (hf : f o = { o with begun := true, body := b }) :
    ∃ t, Machine.exec c s = .next t ∧ t.exec.running = some { o with begun := true, body := b } ∧
      t.exec.suspended = s.exec.suspended ∧ t.exec.waiting = s.exec.waiting ∧ t.ret = s.ret ∧ t.recon = s.recon ∧
      t.cat.table = s.cat.table ∧ t.eds = s.eds ∧ Kept s t := by
  subst e
  set v := (at_ bus s).onRunning f with hv
  have running : v.exec.running = some { o with begun := true, body := b } := by
    rw [← hf]
    exact onRunning_running (s := at_ bus s) fr.2.1 f
  have settled : v.settleOps = v.settle := settleOps_of_running (by rw [running]; rfl)
  rw [settled] at hx
  have exec := settle_exec v
  refine ⟨_, hx, by rw [exec]; exact running, by rw [exec]; rfl, by rw [exec]; rfl, ?_, ?_, ?_, ?_, ?_⟩
  · exact settle_does (same_ret.mono rfl) rfl
  · exact settle_does (same_recon.mono rfl) rfl
  · exact (settle_segments v).table
  · exact settle_does (same_eds.mono rfl) rfl
  · exact settle_does (keeps_kept.mono rfl) (onRunning_does (keeps_kept.mono rfl) f (onBus_does (keeps_kept.mono rfl) bus (Kept.refl s)))

theorem takeSuspension_onRunning (fr : Fresh o s) (f : Op → Op) :
    ((at_ bus s).onRunning f).takeSuspension = (at_ bus s).onRunning f := takeSuspension_of_none fr.2.2.2

theorem extract_tests {p : ExtractParams} (sw : p.switch ≤ 1023) (good : GoodExtract p) :
    badSwitch false p.switch = false ∧ p.badRange = false := by
  refine ⟨?_, ?_⟩
  · rw [← Bool.not_eq_true, badSwitch_false_iff]
    omega
  · rw [← Bool.not_eq_true, extract_badRange_iff]
    exact not_not.mpr good

section begin

variable (fr : Fresh o s) (goes : o.stopping = false)
include fr

theorem newRunning_at : (at_ bus s).newRunning = some o := newRunning_of_fresh (s := at_ bus s) fr

theorem verify_begins {sel : Selection} {i : Nat} {n : VerifyCounts} {v : Option Visit} (b : o.body = .verify sel i n v)
    (sw : GoodSwitch sel.all sel.switch) (good : GoodSelection sel) :
    (at_ bus s).verifyBegin = (at_ bus s).onRunning fun r => { r with begun := true } := by
  rw [verifyBegin_eq (newRunning_at bus fr) b, if_neg (fun c => (badSwitch_iff _ _).mp c sw),
    if_neg (fun c => (selection_badRange_iff sel).mp c good)]

theorem extract_begins {p : ExtractParams} {st : ExtractState} (b : o.body = .extract p st) (sw : p.switch ≤ 1023)
    (good : GoodExtract p) (r : p.resume = none) : (at_ bus s).extractBegin =
      ((at_ bus s).onRunning fun r => { r with begun := true, body := .extract p { st with groups := maskGroups p.mask } }) := by
  obtain ⟨hs, hr⟩ := extract_tests sw good
  rw [extractBegin_start (newRunning_at bus fr) b hs hr r]
  have running : (at_ bus s).exec.running = some o := fr.2.1
  simp only [onExtract, onBody, onRunning, onExec, running, Option.map_some, b]

include goes

theorem catalogRead_begins {sel : Selection} {b c i w : Nat} (e : o.body = .catalogRead sel b c i w)
    (sw : GoodSwitch sel.all sel.switch) (good : GoodSelection sel) (cap : c ≠ 0) (lt : i < 262144) :
    (at_ bus s).catalogBegin = (at_ bus s).onRunning fun r => { r with begun := true } := by
  have range : ¬ (sel.badRange = true ∨ c = 0 ∨ Config.segmentEnd ≤ i) := by
    rintro (bad | bad | bad)
    · exact (selection_badRange_iff sel).mp bad good
    · exact cap bad
    · exact absurd bad (Nat.not_le.mpr lt)
  rw [catalogBegin_eq (newRunning_at bus fr) e goes, if_neg (fun c => (badSwitch_iff _ _).mp c sw), if_neg range]
  exact takeSuspension_onRunning bus fr _

theorem journalRead_begins {q cap b e n : Nat} (hb : o.body = .journalRead q cap b e n) (hc : cap ≠ 0) (head : q ≤ s.jnl.head)
    (release : s.jnl.release ≤ q) (settled : q < s.jnl.settled) : (at_ bus s).journalBegin =
      (at_ bus s).onRunning fun r => { r with begun := true, body := .journalRead q cap b (min (q + cap) s.jnl.settled) q } := by
  have jnl : (at_ bus s).jnl = s.jnl := rfl
  rw [journalBegin_eq (newRunning_at bus fr) hb goes, jnl, if_neg (by omega), if_neg (by omega), journalMove, if_neg (by omega)]
  exact takeSuspension_onRunning bus fr _

end begin

/-- An EXTRACT that begins at its resume point reads the segment of the point. -/
theorem extract_resumes {p : ExtractParams} {st : ExtractState} {n blk i : Nat} {ls : LiveState} {g : Segment} (fr : Fresh o s)
    (b : o.body = .extract p st) (r : p.resume = some (n, blk, i)) (sw : p.switch ≤ 1023) (good : GoodExtract p)
    (hl : s.live? n = some (ls, g))
    (may : ls ≠ .erasing ∧ g.key.switch = p.switch ∧ g.key.day = p.day ∧ maskHas p.mask g.key.group = true)
    (blocks : blk < g.blocks) (bytes : g.bytes ≠ 0) (on : s.isOnline (laneOf n) = true) :
    ∃ t, Machine.exec (.extract bus) s = .next t ∧ t.ret = s.ret ∧ t.recon = s.recon ∧ t.eds = s.eds ∧ Kept s t ∧
      t.live? n = some (ls, { g with pins := g.pins + 1 }) ∧
      t.exec.running = some { o with begun := true, body := .extract p (resumedAt s p blk i st n g) } ∧
      JoinedFore (fetchOf n 0 g.bytes (.op o.adm)) (bget s.lanes.lane (laneOf n)) (laneOf n) t := by
  obtain ⟨noSwitch, noRange⟩ := extract_tests sw good
  set w := ((at_ bus s).onRunning fun r => { r with begun := true }).onExtract (resuming s p blk i g)
  have running : w.exec.running = some { o with begun := true, body := .extract p (resuming s p blk i g st) } := by
    have here : (at_ bus s).exec.running = some o := fr.2.1
    simp only [w, onExtract, onBody, onRunning, onExec, here, Option.map_some, b]
  have begin_eq : (at_ bus s).extractBegin = w.extractRead n g := by
    rw [extractBegin_resume (newRunning_at bus fr) b noSwitch noRange r,
      extractResume_live (s := (at_ bus s).onRunning _) (g := g) hl may, if_neg (Nat.not_le.mpr blocks)]
    rfl
  obtain ⟨runs, cat, engine, lanes⟩ :=
    extractRead_fetches (o := { o with begun := true }) (n := n) (g := g) running bytes on
  have settled : (w.extractRead n g).settleOps = (w.extractRead n g).settle := settleOps_of_running (by rw [runs]; rfl)
  refine ⟨_, exec_extract bus fr.1, ?_⟩
  rw [begin_eq, settled]
  refine ⟨?_, ?_, ?_, ?_, ?_, ?_, ?_⟩
  · exact settle_does (same_ret.mono rfl) (extractRead_does (same_ret.mono rfl) n g rfl)
  · exact settle_does (same_recon.mono rfl) (extractRead_does (same_recon.mono rfl) n g rfl)
  · exact settle_does (same_eds.mono rfl) (extractRead_does (same_eds.mono rfl) n g rfl)
  · refine settle_does (keeps_kept.mono rfl) (extractRead_does (keeps_kept.mono rfl) n g ?_)
    exact onExtract_does (keeps_kept.mono rfl) _ (onRunning_does (keeps_kept.mono rfl) _
      (onBus_does (keeps_kept.mono rfl) bus (Kept.refl s)))
  · have pinned : SegmentsStand (s.pin n) (w.extractRead n g) := by
      have same : (w.pin n).cat = (s.pin n).cat := by
        have live : w.live? n = s.live? n := SegmentsStand.live? (s := s) ⟨rfl, rfl, rfl, fun _ => rfl⟩ n
        obtain ⟨e, he, hc⟩ := live?_eq_some_iff.mp hl
        obtain ⟨e', he', hc'⟩ := live?_eq_some_iff.mp (live.trans hl)
        have ext : w.extent? n = s.extent? n := SegmentsStand.extent? (s := s) ⟨rfl, rfl, rfl, fun _ => rfl⟩ n
        obtain rfl : e = e' := Option.some.inj (he.symm.trans (ext.symm.trans he'))
        rw [pin, pin, onSegment_eq he hc, onSegment_eq he' hc']
        rfl
      have engines : (s.pin n).engine = s.engine := onSegment_does (same_engine.mono rfl) n _ rfl
      have pinnedLanes : (s.pin n).lanes = s.lanes := onSegment_does (same_lanes.mono rfl) n _ rfl
      refine ⟨by rw [engine, engines]; rfl, by rw [cat, same], by rw [cat, same], fun l => ?_⟩
      have : (w.enqueueFore (laneOf n) (fetchOf n 0 g.bytes (.op o.adm))).isOnline l = s.isOnline l := by
        refine SegmentsStand.online (s := s) (enqueueFore_does (keeps_segments.mono rfl) _ _ ⟨rfl, rfl, rfl, fun _ => rfl⟩) l
      rw [isOnline, lanes, isOnline, pinnedLanes]
      exact this
    rw [(settle_segments _).live?, pinned.live?]
    exact live?_onSegment hl _
  · rw [settle_exec]
    exact runs
  · refine joinedFore_settle (j := (bget s.lanes.lane (laneOf n)).journalQ) ?_
    rw [lanes]
    exact bget_bmod_self _ _ _

/-- Settles O49: each first run sets what the operation begins with, and nothing is chosen while it runs. -/
theorem longOperationsBegin : Obligations.LongOperationsBegin := by
  unfold Obligations.LongOperationsBegin
  intro bus o s fr goes Begins
  have act : Acts s := fr.1
  refine ⟨fun p b => ?_, fun g i n b front => ?_, fun sel i n v b sw good => ?_, fun p st b r sw good => ?_,
    fun sel b cap i w e sw good hc lt => ?_, fun q cap b e n hb hc head release settled => ?_,
    fun p st n blk i ls g b r sw good hl er hs hd hm blocks bytes on => ?_⟩
  · exact begins bus fr (exec_expire bus act (newRunning_at bus fr) b)
      (congrArg settleOps (takeSuspension_onRunning bus fr _)) rfl
  · exact begins bus fr (exec_retain_walk bus act front (newRunning_at bus fr) b)
      (congrArg settleOps (takeSuspension_onRunning bus fr _)) rfl
  · exact begins bus fr (exec_verify bus act) (congrArg settleOps (verify_begins bus fr b sw good)) rfl
  · exact begins bus fr (exec_extract bus act) (congrArg settleOps (extract_begins bus fr b sw good r)) rfl
  · exact begins bus fr (exec_catalogRead bus act) (congrArg settleOps (catalogRead_begins bus fr goes e sw good hc lt)) rfl
  · exact begins bus fr (exec_journalRead bus act)
      (congrArg settleOps (journalRead_begins bus fr goes hb hc head release settled)) rfl
  · exact extract_resumes bus fr b r sw good hl ⟨er, hs, hd, hm⟩ blocks bytes on

end Sys2Proof.Claims
end

section
/-! SUPPORT. A step of a CATALOG-READ and of a JOURNAL-READ (R37, R180), for O55. -/

namespace Sys2Proof.Machine.State

variable {s t u v : State} {o : Op}

/-! ## What a step writes off the desk -/

/-- A span of host memory that lies off the desk in use, in the address space. -/
def OffDeskSpan (s : State) (a n : Nat) : Prop := a + n ≤ 2 ^ 64 ∧ ∀ j, j < n → Claims.OffDesk s (a + j)

/-- Bytes written off the desk change no slip. -/
theorem hostWrite_stands {a : Nat} {bs : List Byte} (off : OffDeskSpan s a bs.length) : SlipsStand s (s.hostWrite a bs) where
  place := congrArg Desk.place (hostWrite_desk ..)
  held := congrArg Desk.held (hostWrite_desk ..)
  map := congrArg Desk.map (hostWrite_desk ..)
  fails := hostWrite_fails ..
  marks i := by
    have lo : s.desk.place ≤ s.slipAt i := by rw [slipAt]; omega
    have hi : s.slipAt i < s.desk.place + 8320 := by
      have := i.isLt
      rw [slipAt]
      omega
    have same : (s.hostWrite a bs).slipAt i = s.slipAt i := by simp [slipAt]
    rw [markOf, markOf, same]
    refine byte_hostWrite_outside _ _ _ _ ?_
    by_contra inside
    obtain ⟨j, hj⟩ : ∃ j, s.slipAt i = a + j := ⟨s.slipAt i - a, by omega⟩
    have := off.2 j (by omega)
    rw [← hj, Claims.OffDesk] at this
    omega
  wf := wf_hostWrite a bs

/-- A span off the desk stands across what writes nothing off the desk. -/
theorem hostBytes_of_outside {a n : Nat} (off : OffDeskSpan s a n) (h : OutsideDesk s t) : t.hostBytes a n = s.hostBytes a n := by
  refine bytes_congr _ _ fun i lo hi => h.2 i ?_
  obtain ⟨j, rfl⟩ : ∃ j, i = a + j := ⟨i - a, by omega⟩
  exact off.2 j (by omega)

/-! ## Steps -/

/-- The running operation goes on with another body. -/
def goesOn (b : OpBody) (s : State) : State := s.onBody fun _ => b

theorem goesOn_running (h : s.exec.running = some o) (b : OpBody) : (s.goesOn b).exec.running = some { o with body := b } :=
  onRunning_running h _

theorem catalogMove_on {sel : Selection} {b cap i w : Nat} (pre : s.exec.preempt = none) (lt : i + 1 < 262144) :
    s.catalogMove sel b cap i w = s.goesOn (.catalogRead sel b cap (i + 1) w) := by
  unfold catalogMove
  rw [if_neg (Nat.not_le.mpr lt)]
  exact takeSuspension_of_none pre

theorem catalogMove_end {sel : Selection} {b cap i w : Nat} (le : 262144 ≤ i + 1) :
    s.catalogMove sel b cap i w = s.endAnswer .done (fours [w, 0]) := if_pos le

section catalog

variable {sel : Selection} {b cap i w : Nat} (h : s.stepping = some o) (e : o.body = .catalogRead sel b cap i w)
  (go : o.stopping = false)
include h e go

/-- A record that the selection does not match is passed over (R37). -/
theorem catalogStep_passes (no : ¬ ∃ st g, s.live? i = some (st, g) ∧ sel.covers g.key = true) :
    s.catalogStep = s.catalogMove sel b cap i w := by
  simp only [catalogStep, h, e, go, Bool.false_eq_true, if_false]
  split
  · rename_i st g er fl he
    rw [if_neg fun c => no ⟨st, g, live?_of_extent he rfl, c⟩]
  · rfl

theorem catalogStep_matches {x : Extent} {st : LiveState} {g : Segment} (he : s.extent? i = some x)
    (hc : x.content = .live st g) (yes : sel.covers g.key = true) : s.catalogStep =
    if w < cap then (s.hostWrite (b + 64 * w) (summaryBytes i st g x)).catalogMove sel b cap i (w + 1)
    else s.endAnswer .partialDone (fours [w, i]) := by
  obtain ⟨content, er, fl⟩ := x
  obtain rfl : content = .live st g := hc
  simp only [catalogStep, h, e, go, Bool.false_eq_true, if_false, he, yes, if_true]

end catalog

theorem journalMove_on {q stop n : Nat} (pre : s.exec.preempt = none) (lt : n < stop) : s.journalMove q stop n = s := by
  unfold journalMove
  rw [if_neg (Nat.not_le.mpr lt)]
  exact takeSuspension_of_none pre

theorem journalMove_end {q stop n : Nat} (le : stop ≤ n) :
    s.journalMove q stop n = s.endAnswer .done (s.journalValues (n - q) n) := if_pos le

section journal

variable {q cap b stop n : Nat} (h : s.stepping = some o) (e : o.body = .journalRead q cap b stop n) (go : o.stopping = false)
include h e go

theorem journalStep_gone (released : n < s.jnl.release) :
    s.journalStep = s.endAnswer .gone (unsignedField 4 (n - q) ++ leBytes 8 s.jnl.release) := by
  simp only [journalStep, h, e, go, Bool.false_eq_true, if_false, released, if_true]

theorem journalStep_writes {x : Entry} (held : s.jnl.release ≤ n) (hx : s.jnl.store[n - s.jnl.release]? = some x) :
    s.journalStep = ((s.hostWrite (b + 32 * (n - q)) x.bytes).goesOn (.journalRead q cap b stop (n + 1))).journalMove q stop
      (n + 1) := by
  have stored : s.storedEntry n = some x := by rw [storedEntry, if_neg (Nat.not_lt.mpr held), hx]
  simp only [journalStep, h, e, go, Bool.false_eq_true, if_false, Nat.not_lt.mpr held, stored]
  rfl

end journal

end Sys2Proof.Machine.State

namespace Sys2Proof.Claims

open Sys2Proof.Machine Sys2Proof.Machine.State

variable {s t v : State} {o : Op} (bus : Bus)

theorem exec_catalogReadStep (a : Acts s) :
    Machine.exec (.catalogReadStep bus) s = .next (at_ bus s).catalogStep.settleOps :=
  congrArg Host.Outcome.next (s.commandedOn_on bus _ a.1 a.2)
theorem exec_journalReadStep (a : Acts s) :
    Machine.exec (.journalReadStep bus) s = .next (at_ bus s).journalStep.settleOps :=
  congrArg Host.Outcome.next (s.commandedOn_on bus _ a.1 a.2)

/-- The engine as a step of a read leaves it before the operation goes on or ends: of the blocks only host memory has changed, and
off the desk. -/
structure ReadOn (u v : State) : Prop where
  engine : v.engine = u.engine
  exec : v.exec = u.exec
  feed : v.feed = u.feed
  cat : v.cat = u.cat
  jnl : v.jnl = u.jnl
  stand : SlipsStand u v

theorem ReadOn.refl (u : State) : ReadOn u u := ⟨rfl, rfl, rfl, rfl, rfl, .refl u⟩
theorem ReadOn.write {u : State} {a : Nat} {bs : List Byte} (off : OffDeskSpan u a bs.length) : ReadOn u (u.hostWrite a bs) :=
  ⟨hostWrite_engine .., hostWrite_exec .., hostWrite_feed .., hostWrite_cat .., hostWrite_jnl .., hostWrite_stands off⟩

/-- A read that ends there is answered, its progress noted or not, and the operation chosen runs. -/
theorem read_ends_of {p : Op} (h : Stepping o s) (r : ReadOn (at_ bus s) v) (quiet : QuietChoice o s) (f : Op → Op)
    (slip : (f o).slip = o.slip) (hp : (v.onRunning f).exec.running = some p) (st : Status) (vs : List Byte) :
    let t := ((v.onRunning f).endAnswer st vs).settleOps
    (t.exec.running = s.pick ∧ t.cat.table = s.cat.table ∧ Answered (at_ bus s) o.slip st vs t) ∧ OutsideDesk v t := by
  have running : v.exec.running = some o := by rw [r.exec]; exact h.2.1
  obtain rfl : f o = p := Option.some.inj ((onRunning_running running f).symm.trans hp)
  have lists : (v.onRunning f).exec.suspended ++ (v.onRunning f).exec.waiting = s.exec.suspended ++ s.exec.waiting := by
    show v.exec.suspended ++ v.exec.waiting = _
    rw [r.exec]
    rfl
  have stand : SlipsStand (at_ bus s) (v.onRunning f) := r.stand.trans (.of_same rfl rfl rfl)
  have ends := endAnswer_ends hp (by show v.engine ≠ _; rw [r.engine]; exact h.1.2)
    (by rw [lists]; exact fun q hq => (quiet q hq).2) stand r.feed st vs
  refine ⟨⟨?_, ends.segments.table.trans ?_, by rw [← slip]; exact ends.answered⟩, ends.outside⟩
  · rw [ends.running, pick, lists]
    rfl
  · show v.cat.table = _
    rw [r.cat]
    rfl

theorem read_ends (h : Stepping o s) (r : ReadOn (at_ bus s) v) (quiet : QuietChoice o s) (st : Status) (vs : List Byte) :
    let t := (v.endAnswer st vs).settleOps
    (t.exec.running = s.pick ∧ t.cat.table = s.cat.table ∧ Answered (at_ bus s) o.slip st vs t) ∧ OutsideDesk v t := by
  have running : v.exec.running = some o := by rw [r.exec]; exact h.2.1
  have same : v.onRunning id = v := by
    unfold onRunning onExec
    rw [Option.map_id_fun]
    rfl
  have := read_ends_of (p := o) bus h r quiet id rfl (by rw [same]; exact running) st vs
  rwa [same] at this

theorem read_ends_goesOn (h : Stepping o s) (r : ReadOn (at_ bus s) v) (quiet : QuietChoice o s) (b : OpBody) (st : Status)
    (vs : List Byte) : let t := ((v.goesOn b).endAnswer st vs).settleOps
    (t.exec.running = s.pick ∧ t.cat.table = s.cat.table ∧ Answered (at_ bus s) o.slip st vs t) ∧ OutsideDesk v t :=
  read_ends_of bus h r quiet (fun o => { o with body := b }) rfl
    (goesOn_running (by rw [r.exec]; exact h.2.1) b) st vs

/-- A read that goes on runs with its new progress. -/
theorem read_on (h : Stepping o s) (r : ReadOn (at_ bus s) v) (b : OpBody) :
    let t := (v.goesOn b).settleOps
    (t.exec.running = some { o with body := b } ∧ t.cat.table = s.cat.table) ∧ OutsideDesk v t := by
  have running : v.exec.running = some o := by rw [r.exec]; exact h.2.1
  have runs := goesOn_running running b
  have settled : (v.goesOn b).settleOps = (v.goesOn b).settle := settleOps_of_running (by rw [runs]; rfl)
  simp only [settled]
  refine ⟨⟨by rw [settle_exec]; exact runs, ?_⟩, ?_⟩
  · rw [(settle_segments _).table]
    exact congrArg Catalog.table r.cat
  · exact settle_does (keeps_outside.mono rfl) (onBody_does (keeps_outside.mono rfl) _ ⟨rfl, fun _ _ => rfl⟩)

/-- A read's step touches neither the journal's marks, nor the retention unit, nor the switch table, nor what lies outside the blocks
that carry work. -/
structure ReadFrame (s t : State) : Prop where
  ret : t.ret = s.ret
  release : t.jnl.release = s.jnl.release
  settled : t.jnl.settled = s.jnl.settled
  recon : t.recon = s.recon
  kept : Kept s t

theorem catalogStep_frame (s : State) : ReadFrame s (at_ bus s).catalogStep.settleOps where
  ret := settleOps_does (same_ret.mono rfl) (catalogStep_does (same_ret.mono rfl) rfl)
  release := settleOps_does (same_release.mono rfl) (catalogStep_does (same_release.mono rfl) rfl)
  settled := settleOps_does (same_settled.mono rfl) (catalogStep_does (same_settled.mono rfl) rfl)
  recon := settleOps_does (same_recon.mono rfl) (catalogStep_does (same_recon.mono rfl) rfl)
  kept := settleOps_does (keeps_kept.mono rfl) (catalogStep_does (keeps_kept.mono rfl)
    (onBus_does (keeps_kept.mono rfl) bus (Kept.refl s)))

theorem journalStep_frame (s : State) : ReadFrame s (at_ bus s).journalStep.settleOps where
  ret := settleOps_does (same_ret.mono rfl) (journalStep_does (same_ret.mono rfl) rfl)
  release := settleOps_does (same_release.mono rfl) (journalStep_does (same_release.mono rfl) rfl)
  settled := settleOps_does (same_settled.mono rfl) (journalStep_does (same_settled.mono rfl) rfl)
  recon := settleOps_does (same_recon.mono rfl) (journalStep_does (same_recon.mono rfl) rfl)
  kept := settleOps_does (keeps_kept.mono rfl) (journalStep_does (keeps_kept.mono rfl)
    (onBus_does (keeps_kept.mono rfl) bus (Kept.refl s)))

/-- What a step of a read ends with: the statement's answer, and the operation chosen. -/
def ReadEnds (bus : Bus) (o : Op) (s : State) (st : Status) (vs : List Byte) (t : State) : Prop :=
  QuietChoice o s → t.exec.running = s.pick ∧ t.cat.table = s.cat.table ∧ Answered (at_ bus s) o.slip st vs t

/-- A CATALOG-READ goes on to the next number with some written, or past the last ends with them. -/
def CatalogGoesOn (bus : Bus) (o : Op) (s : State) (sel : Selection) (b cap i w : Nat) (t : State) : Prop :=
  (i + 1 < 262144 → t.exec.running = some { o with body := .catalogRead sel b cap (i + 1) w } ∧ t.cat.table = s.cat.table) ∧
  (262144 ≤ i + 1 → ReadEnds bus o s .done (fours [w, 0]) t)

/-- The walk moves on from a state that only host memory off the desk tells apart. -/
theorem catalogMove_goesOn (h : Stepping o s) (r : ReadOn (at_ bus s) v) (sel : Selection) (b cap i w : Nat) :
    CatalogGoesOn bus o s sel b cap i w (v.catalogMove sel b cap i w).settleOps ∧
    (i + 1 < 262144 ∨ QuietChoice o s → OutsideDesk v (v.catalogMove sel b cap i w).settleOps) := by
  by_cases lt : i + 1 < 262144
  · have pre : v.exec.preempt = none := by rw [r.exec]; exact h.2.2.2.2.2
    obtain ⟨on, outside⟩ := read_on bus h r (.catalogRead sel b cap (i + 1) w)
    rw [catalogMove_on pre lt]
    exact ⟨⟨fun _ => on, fun le => absurd lt (by omega)⟩, fun _ => outside⟩
  · rw [catalogMove_end (by omega)]
    refine ⟨⟨fun c => absurd c lt, fun _ quiet => (read_ends bus h r quiet _ _).1⟩, fun c => ?_⟩
    exact (read_ends bus h r (c.resolve_left lt) _ _).2

section catalog

variable {sel : Selection} {b cap i w : Nat} (h : Stepping o s) (e : o.body = .catalogRead sel b cap i w)
include h e

theorem catalog_passes (no : ¬ ∃ st g, s.live? i = some (st, g) ∧ sel.covers g.key = true) :
    CatalogGoesOn bus o s sel b cap i w (at_ bus s).catalogStep.settleOps := by
  rw [catalogStep_passes (stepping_of_stepping (s := at_ bus s) h) e h.2.2.2.2.1 no]
  exact (catalogMove_goesOn bus h (.refl _) sel b cap i w).1

theorem catalog_full (yes : ∃ st g, s.live? i = some (st, g) ∧ sel.covers g.key = true) (full : cap ≤ w) :
    ReadEnds bus o s .partialDone (fours [w, i]) (at_ bus s).catalogStep.settleOps := by
  obtain ⟨st, g, hl, hc⟩ := yes
  obtain ⟨x, hx, hxc⟩ := live?_eq_some_iff.mp hl
  rw [catalogStep_matches (stepping_of_stepping (s := at_ bus s) h) e h.2.2.2.2.1 (x := x) hx hxc hc,
    if_neg (Nat.not_lt.mpr full)]
  exact fun quiet => (read_ends bus h (.refl _) quiet _ _).1

theorem catalog_writes (room : w < cap) (wf : Memory.wf Config.hostFill s.mem = true)
    (off : OffDeskSpan s (b + 64 * w) 64) {x : Extent} {st : LiveState} {g : Segment} (hx : s.extent? i = some x)
    (hxc : x.content = .live st g) (hc : sel.covers g.key = true) :
    CatalogGoesOn bus o s sel b cap i (w + 1) (at_ bus s).catalogStep.settleOps ∧
    (i + 1 < 262144 ∨ QuietChoice o s →
      (at_ bus s).catalogStep.settleOps.hostBytes (b + 64 * w) 64 = summaryBytes i st g x) := by
  have long : (summaryBytes i st g x).length = 64 := summary_length i st g x
  have here : OffDeskSpan (at_ bus s) (b + 64 * w) (summaryBytes i st g x).length := by rw [long]; exact off
  have r := ReadOn.write here
  rw [catalogStep_matches (stepping_of_stepping (s := at_ bus s) h) e h.2.2.2.2.1 (x := x) hx hxc hc, if_pos room]
  obtain ⟨goes, outside⟩ := catalogMove_goesOn bus h r sel b cap i (w + 1)
  refine ⟨goes, fun c => ?_⟩
  have span : OffDeskSpan ((at_ bus s).hostWrite (b + 64 * w) (summaryBytes i st g x)) (b + 64 * w) 64 := by
    refine ⟨off.1, fun j hj => ?_⟩
    have := off.2 j hj
    unfold OffDesk at this ⊢
    rwa [show ((at_ bus s).hostWrite (b + 64 * w) (summaryBytes i st g x)).desk.place = s.desk.place from r.stand.place]
  rw [hostBytes_of_outside span (outside c)]
  have written := hostBytes_hostWrite (s := at_ bus s) (b + 64 * w) (summaryBytes i st g x)
    (by rw [long]; exact off.1) (wf_onBus bus wf)
  rwa [long] at written

end catalog

section journal

variable {q cap b stop n : Nat} (h : Stepping o s) (e : o.body = .journalRead q cap b stop n)
include h e

theorem journal_gone (released : n < s.jnl.release) :
    ReadEnds bus o s .gone (unsignedField 4 (n - q) ++ leBytes 8 s.jnl.release) (at_ bus s).journalStep.settleOps := by
  rw [journalStep_gone (stepping_of_stepping (s := at_ bus s) h) e h.2.2.2.2.1 released]
  exact fun quiet => (read_ends bus h (.refl _) quiet _ _).1

theorem journal_writes (wf : Memory.wf Config.hostFill s.mem = true) {x : Entry} (held : s.jnl.release ≤ n)
    (hx : s.jnl.store[n - s.jnl.release]? = some x) (off : OffDeskSpan s (b + 32 * (n - q)) 32) :
    (n + 1 < stop ∨ QuietChoice o s →
      (at_ bus s).journalStep.settleOps.hostBytes (b + 32 * (n - q)) 32 = x.bytes) ∧
    (n + 1 < stop → (at_ bus s).journalStep.settleOps.exec.running =
      some { o with body := .journalRead q cap b stop (n + 1) } ∧
      (at_ bus s).journalStep.settleOps.cat.table = s.cat.table) ∧
    (stop ≤ n + 1 → ReadEnds bus o s .done (unsignedField 4 (n + 1 - q) ++ leBytes 8 (n + 1) ++ leBytes 8 s.jnl.head
      ++ leBytes 8 s.jnl.settled ++ leBytes 8 s.jnl.release) (at_ bus s).journalStep.settleOps) := by
  have long : x.bytes.length = 32 := entry_length x
  have here : OffDeskSpan (at_ bus s) (b + 32 * (n - q)) x.bytes.length := by rw [long]; exact off
  have r := ReadOn.write here
  set v := (at_ bus s).hostWrite (b + 32 * (n - q)) x.bytes
  have span : OffDeskSpan v (b + 32 * (n - q)) 32 := by
    refine ⟨off.1, fun j hj => ?_⟩
    have := off.2 j hj
    unfold OffDesk at this ⊢
    rwa [show v.desk.place = s.desk.place from r.stand.place]
  have written : v.hostBytes (b + 32 * (n - q)) 32 = x.bytes := by
    have := hostBytes_hostWrite (s := at_ bus s) (b + 32 * (n - q)) x.bytes (by rw [long]; exact off.1) (wf_onBus bus wf)
    rwa [long] at this
  have running : v.exec.running = some o := by rw [r.exec]; exact h.2.1
  have step : (at_ bus s).journalStep = (v.goesOn (.journalRead q cap b stop (n + 1))).journalMove q stop (n + 1) :=
    journalStep_writes (stepping_of_stepping (s := at_ bus s) h) e h.2.2.2.2.1 held hx
  rw [step]
  clear_value v
  have pre : (v.goesOn (.journalRead q cap b stop (n + 1))).exec.preempt = none := by
    show v.exec.preempt = none
    rw [r.exec]
    exact h.2.2.2.2.2
  by_cases lt : n + 1 < stop
  · obtain ⟨on, outside⟩ := read_on bus h r (.journalRead q cap b stop (n + 1))
    rw [journalMove_on pre lt]
    exact ⟨fun _ => (hostBytes_of_outside span outside).trans written, fun _ => on, fun le => absurd lt (by omega)⟩
  · have values : (v.goesOn (.journalRead q cap b stop (n + 1))).journalValues (n + 1 - q) (n + 1) =
        unsignedField 4 (n + 1 - q) ++ leBytes 8 (n + 1) ++ leBytes 8 s.jnl.head ++ leBytes 8 s.jnl.settled ++
          leBytes 8 s.jnl.release := by
      have jnl : (v.goesOn (.journalRead q cap b stop (n + 1))).jnl = s.jnl := r.jnl
      rw [journalValues, jnl]
    rw [journalMove_end (by omega), values]
    refine ⟨fun c => ?_, fun c => absurd c lt, fun _ quiet => (read_ends_goesOn bus h r quiet _ _ _).1⟩
    exact (hostBytes_of_outside span (read_ends_goesOn bus h r (c.resolve_left lt) _ _ _).2).trans written

end journal

/-- Settles O55: a step either moves on or ends, and what it writes lies off the desk, where nothing that follows writes. -/
theorem readsWriteTheirEntries : Obligations.ReadsWriteTheirEntries := by
  unfold Obligations.ReadsWriteTheirEntries
  intro bus o s h wf Ends
  refine ⟨fun sel b cap i w e => ?_, fun q cap b stop n e => ?_⟩
  · intro matched GoesOn
    have frame := catalogStep_frame bus s
    exact ⟨_, exec_catalogReadStep bus h.1, frame.ret, frame.release, frame.settled, frame.recon, frame.kept,
      catalog_passes bus h e, catalog_full bus h e,
      fun room fits off x st g hx hxc hc => catalog_writes bus h e room wf ⟨fits, off⟩ hx hxc hc⟩
  · have frame := journalStep_frame bus s
    exact ⟨_, exec_journalReadStep bus h.1, frame.release, frame.settled, frame.ret, frame.recon, frame.kept,
      journal_gone bus h e, fun x held hx fits off => journal_writes bus h e wf held hx ⟨fits, off⟩⟩

end Sys2Proof.Claims
end

section
/-! SUPPORT. FORMAT accepted (R39): the usable set, the emptied journal and the erases queued, for O18. -/

namespace Sys2Proof.Machine.State

variable {s t : State}

/-! ## The lanes ONLINE, as a mask -/

/-- The mask of the ONLINE lanes has each lane's flag, and so it lies below 2^16. -/
theorem onlineMask_flags (s : State) :
    s.onlineMask < 2 ^ 16 ∧ ∀ l : LaneNo, (BitVec.ofNat 16 s.onlineMask).getLsbD l.val = s.isOnline l := by
  set m : BitVec 16 := BitVec.ofFnLE fun i => s.isOnline i
  have flag (l : LaneNo) : m.getLsbD l.val = s.isOnline l := by simp [m]
  have mask : s.onlineMask = m.toNat := by
    rw [← sum_flags m]
    simp only [flag]
    rfl
  rw [mask]
  exact ⟨m.isLt, fun l => by rw [BitVec.ofNat_toNat, BitVec.setWidth_eq]; exact flag l⟩

theorem usableCount_congr (h : t.cat.usable = s.cat.usable) : t.usableCount = s.usableCount := by
  unfold usableCount usableLane
  rw [h]

/-! ## The erases queued -/

/-- A lane with one erase for each of its usable extents behind what its background queue held. -/
def withErases (l : LaneNo) (a : Lane) : Lane := { a with backQ := a.backQ ++ laneErases l }

theorem laneErases_eq (l : LaneNo) : laneErases l = (List.range 16380).map fun i => Request.erase (16384 * l.val + 4 + i) := by
  simp only [laneErases, laneBase, Config.usablePerLane, Config.journalExtents, Config.extentsPerLane, Nat.mul_comm]

theorem queued_each (ls : List LaneNo) : ∀ s : State, ls.Nodup →
    let t := ls.foldl (fun t l => if t.usableLane l then t.onLane l fun a => { a with backQ := a.backQ ++ laneErases l } else t) s
    t.cat = s.cat ∧ t.lanes.share = s.lanes.share ∧ ∀ l, bget t.lanes.lane l =
      if l ∈ ls ∧ s.usableLane l = true then withErases l (bget s.lanes.lane l) else bget s.lanes.lane l := by
  induction ls with
  | nil => exact fun s _ => ⟨rfl, rfl, fun l => by simp⟩
  | cons a as ih =>
    intro s nodup
    obtain ⟨fresh, rest⟩ := List.nodup_cons.mp nodup
    set s1 := if s.usableLane a then s.onLane a fun x => { x with backQ := x.backQ ++ laneErases a } else s with hs1
    have cat : s1.cat = s.cat := by
      rw [hs1]
      split <;> rfl
    have usable (l : LaneNo) : s1.usableLane l = s.usableLane l := by simp [usableLane, cat]
    have here (l : LaneNo) : bget s1.lanes.lane l =
        if l = a ∧ s.usableLane l = true then withErases l (bget s.lanes.lane l) else bget s.lanes.lane l := by
      by_cases e : l = a
      · subst e
        by_cases hu : s.usableLane l = true
        · simp only [hs1, hu, if_true, and_self]
          exact bget_bmod_self _ _ _
        · simp [hs1, hu]
      · rw [if_neg fun c => e c.1, hs1]
        split
        · exact bget_bmod_ne _ _ _ _ (Ne.symm e)
        · rfl
    have share : s1.lanes.share = s.lanes.share := by
      rw [hs1]
      split <;> rfl
    obtain ⟨h1, h2, h3⟩ := ih s1 rest
    refine ⟨h1.trans cat, h2.trans share, fun l => (h3 l).trans ?_⟩
    rw [usable, here]
    by_cases e : l = a
    · subst e
      simp [fresh]
    · simp [e]

theorem queueErases_share (s : State) : s.queueErases.lanes.share = s.lanes.share :=
  (queued_each (indices 16) s (by decide)).2.1

theorem queueErases_lane (s : State) (l : LaneNo) : bget s.queueErases.lanes.lane l =
    if s.usableLane l = true then withErases l (bget s.lanes.lane l) else bget s.lanes.lane l := by
  rw [queueErases, (queued_each (indices 16) s (by decide)).2.2 l]
  simp [mem_indices l]

/-! ## What follows of itself while the journal is off -/

theorem submit_of_off (h : s.journalOff = true) (sub : Submission) : s.submit sub = (s, true) := by simp [submit, h]

/-- In BLANK and FORMATTING the coder submits nothing: the lanes and the journal stand. -/
structure OffStands (s t : State) : Prop where
  engine : t.engine = s.engine
  lanes : t.lanes = s.lanes
  jnl : t.jnl = s.jnl

theorem runCoder_of_off (h : s.journalOff = true) : OffStands s s.runCoder := by
  have obeys : Obeys OffStands [.pool, .coder, .dir] := by
    refine ⟨fun h g => ⟨g.engine.trans h.engine, g.lanes.trans h.lanes, g.jnl.trans h.jnl⟩, fun p hp => ?_⟩
    cases p
    case pool => exact fun s f _ => ⟨rfl, rfl, rfl⟩
    case coder => exact fun s f => ⟨rfl, rfl, rfl⟩
    case dir => exact fun s f _ => ⟨rfl, rfl, rfl⟩
    all_goals exact absurd hp (by decide)
  refine runCoder_keeps obeys (fun {x} k g => ?_) ⟨rfl, rfl, rfl⟩
  have off : x.journalOff = true := by rw [journalOff, g.engine]; exact h
  have same : x.log .streamLimit (.key k) 0 0 0 = x := by
    rw [log, post, submit_of_off off]
  rw [same]
  exact g

/-- With an empty journal that is off, what follows of itself leaves the journal, and each lane makes its grant. -/
theorem settle_of_off (h : s.journalOff = true) (empty : s.jnl.buffer = []) : s.settle.jnl = s.jnl ∧
    ∀ l, bget s.settle.lanes.lane l = Lane.grant s.lanes.share (bget s.lanes.lane l) := by
  have engine : s.resumeStalled.engine = s.engine := resumeStalled_does (same_engine.mono rfl) rfl
  have jnl : s.resumeStalled.jnl = s.jnl := resumeStalled_does (same_jnl.mono rfl) rfl
  have lanes : s.resumeStalled.lanes = s.lanes := resumeStalled_does (same_lanes.mono rfl) rfl
  have stand := runCoder_of_off (s := s.resumeStalled) (by rw [journalOff, engine]; exact h)
  have run : s.resumeStalled.runCoder.formRun = s.resumeStalled.runCoder := by
    simp [formRun, stand.jnl, jnl, empty]
  have eq : s.settle = s.resumeStalled.runCoder.grantLanes := by rw [settle, pump, run]
  refine ⟨?_, fun l => ?_⟩
  · rw [eq, show s.resumeStalled.runCoder.grantLanes.jnl = s.resumeStalled.runCoder.jnl from
      grantLanes_does (same_jnl.mono rfl) rfl, stand.jnl, jnl]
  · rw [eq, grantLanes_lane, stand.lanes, lanes]

/-! ## FORMAT accepted -/

/-- What FORMAT makes of an accepting engine before anything follows (R39, R182). -/
structure FormatAccepted (s t : State) : Prop where
  engine : t.engine = .formatting
  stamp : t.stamp = false
  ret : t.ret = s.ret
  media : t.media = s.media
  usable : t.cat.usable = BitVec.ofNat 16 s.onlineMask
  table : t.cat.table = []
  dir : t.cat.dir = []
  left : t.cat.eraseLeft = t.usableCount
  jnl : t.jnl = Journal.blank
  exec : t.exec.running = s.exec.running.map fun o => { o with begun := true }
  share : t.lanes.share = s.lanes.share
  lanes : ∀ l, bget t.lanes.lane l =
    if s.isOnline l = true then withErases l (bget s.lanes.lane l) else bget s.lanes.lane l

/-- An accepting engine before its erases are queued (R39). -/
def accepting (s : State) : State :=
  let t : State :=
    { s with stamp := false, engine := .formatting,
             cat := { s.cat with usable := BitVec.ofNat 16 s.onlineMask, table := [], dir := [], eraseFailed := [] },
             jnl := Journal.blank }
  t.onCat fun c => { c with eraseLeft := t.usableCount }

theorem formatAccept_eq (s : State) : s.formatAccept = s.accepting.queueErases.onRunning fun o => { o with begun := true } := rfl

theorem accepting_cat (s : State) : s.accepting.cat.usable = BitVec.ofNat 16 s.onlineMask ∧ s.accepting.cat.table = [] ∧
    s.accepting.cat.dir = [] ∧ s.accepting.cat.eraseLeft = s.accepting.usableCount := by
  simp [accepting, usableCount, usableLane]

theorem accepting_usableLane (s : State) (l : LaneNo) : s.accepting.usableLane l = s.isOnline l := by
  rw [usableLane, (accepting_cat s).1]
  exact (onlineMask_flags s).2 l

theorem formatAccept_accepted (s : State) : FormatAccepted s s.formatAccept := by
  have engine : s.accepting.queueErases.engine = s.accepting.engine := queueErases_does (same_engine.mono rfl) rfl
  have stamp : s.accepting.queueErases.stamp = s.accepting.stamp := queueErases_does (same_stamp.mono rfl) rfl
  have ret : s.accepting.queueErases.ret = s.accepting.ret := queueErases_does (same_ret.mono rfl) rfl
  have media : s.accepting.queueErases.media = s.accepting.media := queueErases_does (same_media.mono rfl) rfl
  have cat : s.accepting.queueErases.cat = s.accepting.cat := queueErases_does (same_cat.mono rfl) rfl
  have jnl : s.accepting.queueErases.jnl = s.accepting.jnl := queueErases_does (same_jnl.mono rfl) rfl
  have exec : s.accepting.queueErases.exec = s.accepting.exec := queueErases_does (same_exec.mono rfl) rfl
  have share := queueErases_share s.accepting
  have lanes := queueErases_lane s.accepting
  rw [formatAccept_eq]
  generalize s.accepting.queueErases = q at *
  obtain ⟨usable, table, dir, left⟩ := accepting_cat s
  rw [← cat] at usable table dir left
  refine ⟨engine, stamp, ret, media, usable, table, dir, ?_, jnl, ?_, share, fun l => ?_⟩
  · exact left.trans (usableCount_congr (congrArg Catalog.usable cat)).symm
  · simp only [onRunning, onExec_exec, exec]
    rfl
  · refine (lanes l).trans ?_
    rw [accepting_usableLane]
    rfl

end Sys2Proof.Machine.State

namespace Sys2Proof.Claims

open Sys2Proof.Machine Sys2Proof.Machine.State

variable {s t : State} {o : Op} (bus : Bus)

/-- A FORMAT that begins: the emptied journal and the directory stand in what follows of itself, and each lane makes its grant. -/
structure FormatRuns (o : Op) (s t : State) : Prop where
  engine : t.engine = .formatting
  stamp : t.stamp = false
  ret : t.ret = s.ret
  media : t.media = s.media
  usable : t.cat.usable = BitVec.ofNat 16 s.onlineMask
  table : t.cat.table = []
  dir : t.cat.dir = []
  left : t.cat.eraseLeft = t.usableCount
  running : t.exec.running = some { o with begun := true }
  jnl : t.jnl = Journal.blank
  lanes : ∀ l, bget t.lanes.lane l = Lane.grant s.lanes.share
    (if s.isOnline l = true then withErases l (bget s.lanes.lane l) else bget s.lanes.lane l)

theorem format_runs (fr : Fresh o s) : FormatRuns o s (at_ bus s).formatAccept.settleOps := by
  have a := formatAccept_accepted (at_ bus s)
  generalize (at_ bus s).formatAccept = v at a
  have running : v.exec.running = some { o with begun := true } := by
    rw [a.exec, show (at_ bus s).exec.running = some o from fr.2.1]
    rfl
  have off : v.journalOff = true := by simp [journalOff, a.engine]
  rw [settleOps_of_running (by rw [running]; rfl)]
  obtain ⟨jnl, lanes⟩ := settle_of_off off (by rw [a.jnl]; rfl)
  have turn := settle_turn v
  refine ⟨?_, ?_, ?_, ?_, ?_, turn.table.trans a.table, turn.empty a.dir, ?_, ?_, jnl.trans a.jnl, fun l => ?_⟩
  · exact (settle_does (same_engine.mono rfl) rfl).trans a.engine
  · exact (settle_does (same_stamp.mono rfl) rfl).trans a.stamp
  · exact (settle_does (same_ret.mono rfl) rfl).trans a.ret
  · exact (settle_does (same_media.mono rfl) rfl).trans a.media
  · exact turn.usable.trans a.usable
  · rw [usableCount_congr turn.usable]
    exact turn.eraseLeft.trans a.left
  · rw [settle_exec]
    exact running
  · rw [lanes, a.share, a.lanes]
    rfl

/-- A FORMAT that does not begin is refused as it stands. -/
theorem format_stays (fr : Fresh o s) {p : FormatParams} (b : o.body = .format p)
    (no : s.engine ≠ .blank ∨ ¬ GoodFormat p ∨ s.onlineMask = 0) :
    ∃ st, (at_ bus s).formatBegin = (at_ bus s).endAnswer st [] := by
  have engine : (at_ bus s).engine = s.engine := rfl
  have mask : (at_ bus s).onlineMask = s.onlineMask := rfl
  rw [formatBegin_eq (newRunning_of_fresh (s := at_ bus s) fr) b, engine, mask]
  by_cases e : s.engine = .blank
  · rw [if_neg (not_not.mpr e)]
    split
    · exact ⟨_, rfl⟩
    · rename_i range
      have good : GoodFormat p := not_not.mp fun c => range ((badFormat_iff p).mpr c)
      rw [if_pos ((no.resolve_left (not_not.mpr e)).resolve_left (not_not.mpr good))]
      exact ⟨_, rfl⟩
  · rw [if_pos e]
    exact ⟨_, rfl⟩

theorem format_accepts (fr : Fresh o s) {p : FormatParams} (b : o.body = .format p) (e : s.engine = .blank) (good : GoodFormat p)
    (lanes : s.onlineMask ≠ 0) : (at_ bus s).formatBegin = (at_ bus s).formatAccept := by
  have engine : (at_ bus s).engine = s.engine := rfl
  have mask : (at_ bus s).onlineMask = s.onlineMask := rfl
  rw [formatBegin_eq (newRunning_of_fresh (s := at_ bus s) fr) b, engine, mask, if_neg (not_not.mpr e),
    if_neg (fun c => (badFormat_iff p).mp c good), if_neg lanes]

/-- What the queued erases become at a lane: an OFFLINE lane stands, an ONLINE one has them behind its queue, of which it may have
granted the first (R124, R126, R133). -/
theorem format_lane (l : LaneNo) (share : Nat) (a : Lane) :
    let now := Lane.grant share (if a.online = true then withErases l a else a)
    (a.online = false → now = a) ∧
    (a.online = true → ∀ q, q = a.backQ ++ (List.range 16380).map (fun i => Request.erase (16384 * l.val + 4 + i)) →
      now.backQ = q ∨ ∃ r, q = r :: now.backQ ∧ now.inProgress = some r ∧ a.inProgress = none) := by
  refine ⟨fun off => ?_, fun on q hq => ?_⟩
  · simp only [off, Bool.false_eq_true, if_false]
    exact Lane.grant_of_offline off share
  · simp only [on, if_true]
    rw [hq, ← laneErases_eq]
    exact (Lane.grant_queues share (withErases l a)).2

/-- Settles O18, by the refusals as the operation stands and by what follows an acceptance while the journal is off. -/
theorem formatBegins : Obligations.FormatBegins := by
  unfold Obligations.FormatBegins
  intro bus o p s fr b
  by_cases no : s.engine ≠ .blank ∨ ¬ GoodFormat p ∨ s.onlineMask = 0
  · obtain ⟨st, refusal⟩ := format_stays bus fr b no
    refine ⟨_, exec_format bus fr.1, ?_⟩
    rw [refusal]
    refine ⟨?_, ?_, fun _ => ⟨?_, ?_, ?_, ?_, ?_⟩, fun ⟨e, good, lanes⟩ => ?_⟩
    · exact settleOps_does (same_ret.mono rfl) (endAnswer_does (same_ret.mono rfl) st [] rfl)
    · exact settleOps_does (same_media.mono rfl) (endAnswer_does (same_media.mono rfl) st [] rfl)
    · exact settleOps_does (same_engine.mono rfl) (endAnswer_does (same_engine.mono rfl) st [] rfl)
    · exact settleOps_does (same_stamp.mono rfl) (endAnswer_does (same_stamp.mono rfl) st [] rfl)
    · exact settleOps_does (same_usable.mono rfl) (endAnswer_does (same_usable.mono rfl) st [] rfl)
    · exact settleOps_does (same_release.mono rfl) (endAnswer_does (same_release.mono rfl) st [] rfl)
    · exact settleOps_does (same_settled.mono rfl) (endAnswer_does (same_settled.mono rfl) st [] rfl)
    · exact absurd no (by simp [e, good, lanes])
  · obtain ⟨e, good, lanes⟩ : s.engine = .blank ∧ GoodFormat p ∧ s.onlineMask ≠ 0 := by
      simpa only [not_or, ne_eq, not_not] using no
    have r := format_runs bus fr
    refine ⟨_, exec_format bus fr.1, ?_⟩
    rw [format_accepts bus fr b e good lanes]
    generalize (at_ bus s).formatAccept.settleOps = t at r
    refine ⟨r.ret, r.media, fun c => absurd c no, fun _ => ?_⟩
    refine ⟨r.engine, r.stamp, ?_, r.table, r.dir, r.left, r.running, ?_⟩
    · rw [r.usable, BitVec.toNat_ofNat, Nat.mod_eq_of_lt (onlineMask_flags s).1]
    · rw [r.jnl]
      refine ⟨rfl, rfl, rfl, rfl, rfl, rfl, rfl, rfl, fun l => ?_⟩
      rw [r.lanes]
      exact format_lane l s.lanes.share (bget s.lanes.lane l)

end Sys2Proof.Claims
end

section
/-! SUPPORT. The erases of a FORMAT and its completion (R40, R36, R65, R84, R101, R155, R173, R182), for O19. -/

namespace Sys2Proof.Machine.State

variable {s t u : State} {o : Op}

/-! ## The choice on an engine that holds no segment -/

/-- What a choice leaves on an engine that holds no segment: the catalog, the journal, the lanes and FREE-WATCH. -/
structure ChoiceStands (s t : State) : Prop where
  engine : t.engine = s.engine
  cat : t.cat = s.cat
  jnl : t.jnl = s.jnl
  lanes : t.lanes = s.lanes
  watch : bget t.desk.counters Counter.freeWatch.index = bget s.desk.counters Counter.freeWatch.index

theorem ChoiceStands.refl (s : State) : ChoiceStands s s := ⟨rfl, rfl, rfl, rfl, rfl⟩
theorem ChoiceStands.trans (h : ChoiceStands s t) (g : ChoiceStands t u) : ChoiceStands s u :=
  ⟨g.engine.trans h.engine, g.cat.trans h.cat, g.jnl.trans h.jnl, g.lanes.trans h.lanes, g.watch.trans h.watch⟩

theorem writeAnswer_freeWatch (i : SlipNo) (st : Status) (vs : List Byte) (s : State) :
    bget (s.writeAnswer i st vs).desk.counters Counter.freeWatch.index = bget s.desk.counters Counter.freeWatch.index := by
  unfold writeAnswer
  set w := ((s.hostWrite (s.answerAt i) (answerBytes st vs)).setMark i markAnswered).setMap i st.code with hw
  have counters : w.desk.counters = s.desk.counters := by
    have mapped : w.desk.counters = ((s.hostWrite (s.answerAt i) (answerBytes st vs)).setMark i markAnswered).desk.counters := by
      rw [hw, setMap, hostWrite_desk]
      rfl
    rw [mapped, setMark, hostWrite_desk, hostWrite_desk]
  show bget (w.notice .answers).desk.counters _ = _
  rw [notice_counter_ne (by decide), counters]

theorem answer_stands (slip : Option SlipNo) (st : Status) (vs : List Byte) (s : State) : ChoiceStands s (s.answer slip st vs) where
  engine := answer_does (same_engine.mono rfl) slip st vs rfl
  cat := answer_does (same_cat.mono rfl) slip st vs rfl
  jnl := answer_does (same_jnl.mono rfl) slip st vs rfl
  lanes := answer_does (same_lanes.mono rfl) slip st vs rfl
  watch := by
    unfold answer
    split
    · rfl
    · split
      · rfl
      · exact writeAnswer_freeWatch _ _ _ _

theorem endAnswer_stands (st : Status) (vs : List Byte) (s : State) : ChoiceStands s (s.endAnswer st vs) := by
  unfold endAnswer
  split
  · exact (answer_stands _ _ _ s).trans ⟨rfl, rfl, rfl, rfl, rfl⟩
  · exact .refl s

theorem ChoiceStands.segments (h : ChoiceStands s t) : SegmentsStand s t :=
  ⟨h.engine, by rw [h.cat], by rw [h.cat], fun l => by rw [isOnline, h.lanes]; rfl⟩

/-- Without a segment a resumed operation has nothing to read: it stays as it is or is answered. -/
theorem resumeKept_stands (none : ∀ n, s.live? n = .none) : ChoiceStands s s.resumeKept := by
  have ends : ChoiceStands s s.verifyEnd := by
    unfold verifyEnd
    split
    · split
      · exact endAnswer_stands _ _ s
      · exact .refl s
    · exact .refl s
  have noVerify (r : Reader) (b : List Byte) : s.verifyArrives r (.bytes b) = s := by
    unfold verifyArrives
    split
    · rfl
    · simp [none]
  have noExtract (b : List Byte) : s.extractArrives (.bytes b) = s := by
    unfold extractArrives
    split
    · contradiction
    · split
      · split
        · simp [none]
        · rfl
      · rfl
  have arrives (b : List Byte) : s.opArrives (.bytes b) = s := by
    unfold opArrives
    split
    · split
      · exact noVerify _ b
      · exact noExtract b
      · rfl
    · rfl
  unfold resumeKept
  split
  · split
    · split
      · rw [arrives]
        exact .refl s
      · exact .refl s
    · exact ends
  · exact .refl s

theorem nextLoop_stands (n : Nat) (none : ∀ n, s.live? n = .none) : ChoiceStands s (nextLoop n s) := by
  induction n generalizing s with
  | zero => exact .refl s
  | succ n ih =>
    unfold nextLoop
    split
    · exact .refl s
    · split
      · rename_i o _
        have chosen : ChoiceStands s (s.makeRunning o) := ⟨rfl, rfl, rfl, rfl, rfl⟩
        have resumed := chosen.trans (resumeKept_stands fun m => (chosen.segments.live? m).trans (none m))
        exact resumed.trans (ih fun m => (resumed.segments.live? m).trans (none m))
      · exact .refl s

/-- On an engine that holds no segment the choice touches the executor and the answers alone. -/
theorem nextOp_stands (none : ∀ n, s.live? n = .none) : ChoiceStands s s.nextOp := by
  unfold nextOp
  split
  · exact .refl s
  · exact nextLoop_stands 4 none

/-! ## A coder without a page -/

/-- With no page and nothing asked for, a coder at rest stays as it is (R102, R105). -/
theorem runCoder_of_rest (pages : s.pool.pages = []) (coder : s.coder = Coder.blank) (req : s.cat.openReq = none) :
    s.runCoder = s := by
  have buffer (i : Fin 2) : bget s.coder.buffers i = .free := by rw [coder]; exact bget_replicate _ i
  have hand : s.inHand = none := by simp [inHand, buffer]
  have next : s.coderNext = none := by
    unfold coderNext
    simp [req, hand, readyKey, pages]
  have rest : s.restCoder = s := by
    have free : s.freeBuffer.isSome = true := by simp [freeBuffer, buffer]
    unfold restCoder
    simp only [hand, free, Option.isSome_none, Bool.false_eq_true, if_false, if_true]
    have same : ({ s.coder with state := .idle, target := none } : Coder) = s.coder := by rw [coder]; rfl
    exact congrArg (fun c => ({ s with coder := c } : State)) same
  unfold runCoder
  split
  · rfl
  · unfold coderLoop
    simp [next, rest]

/-! ## The completion (R40) -/

/-- The engine as FORMAT's completion builds it, before its entries. -/
def formatBuilt (p : FormatParams) (s : State) : State :=
  { s with engine := .ready, pool := Pool.blank, recon := Recon.blank, eds := Editions.blank, coder := Coder.blank,
           feed := Feed.blank, jnl := Journal.blank,
           cat := { s.cat with table := formatTable s.cat.eraseFailed, dir := [], rotation := 0, openReq := none, eraseLeft := 0,
                               eraseFailed := [] },
           ret := { day := p.day, classMap := Vector.replicate 8 0, groups := formatGroups p.days, holds := [],
                    lateWindow := p.window, gapHorizon := p.horizon, autoCut := true },
           scrub := { s.scrub with cursor := 0, checked := 0, failed := 0, startDay := none, state := .resting, awaitsRoom := false,
                                   visit := none } }

/-- The entries of the completion, FORMATTED first. -/
def formatEntries (s : State) : List EntryBody :=
  EntryBody.mk0 .formatted .none s.usableCount s.cat.eraseFailed.length (s.usableCount / 16380) :: retiredEntries s.cat.eraseFailed

/-- The completion before its answer. -/
def formatLogged (p : FormatParams) (s : State) : State :=
  { postEach .block s.formatEntries (s.formatBuilt p).setSide with stamp := true }

theorem formatDone_eq (p : FormatParams) (s : State) : s.formatDone p =
    (s.formatLogged p).endAnswer (if s.cat.eraseFailed.isEmpty then .done else .mediaError)
      (fours [s.usableCount, s.cat.eraseFailed.length]) := rfl

theorem tfind_formatTable (failed : List Nat) (n : Nat) : tfind n (formatTable failed) =
    if n ∈ failed then some { content := .retired, erases := 0, fault := true } else none := by
  have each (l : List Nat) : ∀ t : List (Nat × Extent),
      tfind n (l.foldl (fun t n => tput n { content := .retired, erases := 0, fault := true } t) t) =
        if n ∈ l then some { content := .retired, erases := 0, fault := true } else tfind n t := by
    induction l with
    | nil => simp
    | cons m ms ih =>
      intro t
      rw [List.foldl_cons, ih]
      by_cases e : n = m
      · subst e
        simp
      · simp [e, tfind_tput_ne e]
  exact each failed []

/-- Every record after the completion: the failed extents RETIRED, the others FREE (R40). -/
theorem formatBuilt_extent {p : FormatParams} {n : Nat} (h : s.usable n = true) : (s.formatBuilt p).extent? n =
    some (if n ∈ s.cat.eraseFailed then { content := .retired, erases := 0, fault := true }
          else { content := .free, erases := 0, fault := false }) := by
  have built : (s.formatBuilt p).tableBuilt = true := rfl
  have here : (s.formatBuilt p).usable n = true := h
  rw [extent?_of_built built here]
  show some ((tfind n (formatTable s.cat.eraseFailed)).getD Extent.fresh) = _
  rw [tfind_formatTable]
  split <;> rfl

theorem formatBuilt_live (p : FormatParams) (s : State) (n : Nat) : (s.formatBuilt p).live? n = none := by
  by_cases h : s.usable n = true
  · refine live?_of_content (formatBuilt_extent h) ?_
    split
    · exact .inr rfl
    · exact .inl rfl
  · have here : (s.formatBuilt p).usable n = false := Bool.eq_false_iff.mpr h
    simp [live?, extent?, here]

theorem postEach_quiet (who : Producer) (es : List EntryBody) (s : State) : Quiet s (postEach who es s) := by
  induction es generalizing s with
  | nil => exact .refl s
  | cons e es ih => exact (post_quiet who [e] s).trans (ih _)

theorem postEach_submitted (ready : s.engine = .ready) (who : Producer) (es : List EntryBody) :
    ∀ b ∈ es, Claims.Submitted b (postEach who es s) := by
  induction es generalizing s with
  | nil => simp
  | cons e es ih =>
    intro b hb
    obtain rfl | later := List.mem_cons.mp hb
    · exact (postEach_quiet who es _).submitted (submit_submitted ready _ _ (by simp))
    · exact ih (by rw [post_engine]; exact ready) b later

/-- The first entry of an empty journal of a READY engine has number 1 and the day D (R174, R182). -/
theorem post_first (ready : s.engine = .ready) (blank : s.jnl = Journal.blank) (b : EntryBody) :
    (s.post .block [b]).jnl.store = [{ seq := 1, day := s.ret.day, second := false, body := b }] := by
  have fits : s.takesAtOnce { entries := [b], who := .block, acts := [] } = true := by
    rw [takesAtOnce_iff, windowSize, blank]
    simp [Journal.blank]
  have taken : s.post .block [b] = s.takeSubmission [b] := by
    rw [post, submit_of_takes (by simp [tableBuilt, ready]) fits]
  have entry : (s.takeEntry false b).jnl.store = [{ seq := 1, day := s.ret.day, second := false, body := b }] := by
    rw [takeEntry_jnl, entryOf, blank]
    rfl
  obtain ⟨out, at', hj⟩ := formRun_jnl (s.takeEntry false b)
  rw [taken]
  show (if s.jnl.buffer.isEmpty then (s.takeEntry false b).formRun else s.takeEntry false b).jnl.store = _
  split
  · rw [hj]
    exact entry
  · exact entry

/-- The completion as its answer finds it, on the engine as built. -/
structure FormatLogged (p : FormatParams) (s t : State) : Prop where
  stamp : t.stamp = true
  ret : t.ret = (s.formatBuilt p).ret
  recon : t.recon = Recon.blank
  eds : t.eds = Editions.blank
  pool : t.pool = Pool.blank
  feed : t.feed = Feed.blank
  coder : t.coder = Coder.blank
  scrub : t.scrub = (s.formatBuilt p).scrub
  exec : t.exec = s.exec
  media : t.media = s.media
  segments : SegmentsStand (s.formatBuilt p) t
  cat : t.cat = { (s.formatBuilt p).cat with watch := { s.cat.watch with low := (s.formatBuilt p).sideLow } }
  quiet : Quiet (s.formatBuilt p) t
  first : t.jnl.store.head? = some { seq := 1, day := p.day, second := false,
                                     body := EntryBody.mk0 .formatted .none s.usableCount s.cat.eraseFailed.length (s.usableCount / 16380) }
  submitted : ∀ b ∈ s.formatEntries, Claims.Submitted b t

theorem formatLogged_logged (p : FormatParams) (s : State) : FormatLogged p s (s.formatLogged p) := by
  set c := (s.formatBuilt p).setSide with hc
  have sided : Quiet (s.formatBuilt p) c := onCat_quiet _ _
  have posted : Quiet c (postEach .block s.formatEntries c) := postEach_quiet _ _ c
  have stamped : Quiet (postEach .block s.formatEntries c) (s.formatLogged p) := .of_same rfl rfl rfl rfl rfl rfl rfl rfl rfl
  have ready : c.engine = .ready := rfl
  have cat : (postEach .block s.formatEntries c).cat = c.cat := postEach_does (same_cat.mono rfl) .block s.formatEntries rfl
  have segments : SegmentsStand c (postEach .block s.formatEntries c) :=
    postEach_does (keeps_segments.mono rfl) .block s.formatEntries (.refl c)
  refine
    { stamp := rfl
      ret := postEach_does (same_ret.mono rfl) .block s.formatEntries (s := c) rfl
      recon := postEach_does (same_recon.mono rfl) .block s.formatEntries (s := c) rfl
      eds := postEach_does (same_eds.mono rfl) .block s.formatEntries (s := c) rfl
      pool := postEach_does (same_pool.mono rfl) .block s.formatEntries (s := c) rfl
      feed := postEach_does (same_feed.mono rfl) .block s.formatEntries (s := c) rfl
      coder := postEach_does (same_coder.mono rfl) .block s.formatEntries (s := c) rfl
      scrub := postEach_does (same_scrub.mono rfl) .block s.formatEntries (s := c) rfl
      exec := postEach_does (same_exec.mono rfl) .block s.formatEntries (s := c) rfl
      media := postEach_does (same_media.mono rfl) .block s.formatEntries (s := c) rfl
      segments := SegmentsStand.trans (t := c) ⟨rfl, rfl, rfl, fun _ => rfl⟩
        (segments.trans ⟨rfl, rfl, rfl, fun _ => rfl⟩)
      cat := cat
      quiet := (sided.trans posted).trans stamped
      first := ?_
      submitted := fun b hb => stamped.submitted (postEach_submitted ready .block s.formatEntries b hb) }
  have head := post_first (s := c) ready rfl
    (EntryBody.mk0 .formatted .none s.usableCount s.cat.eraseFailed.length (s.usableCount / 16380))
  obtain ⟨more, hm⟩ := (postEach_quiet .block (retiredEntries s.cat.eraseFailed) (c.post .block
    [EntryBody.mk0 .formatted .none s.usableCount s.cat.eraseFailed.length (s.usableCount / 16380)])).store
  show (postEach .block (retiredEntries s.cat.eraseFailed) (c.post .block
    [EntryBody.mk0 .formatted .none s.usableCount s.cat.eraseFailed.length (s.usableCount / 16380)])).jnl.store.head? = _
  rw [← hm, head]
  rfl

/-- After the completion's answer the choice leaves the blocks, and nothing more follows of itself but a run and the grants. -/
theorem formatLogged_settles (p : FormatParams) (s : State) (st : Status) (vs : List Byte) :
    let l := s.formatLogged p
    let x := (l.endAnswer st vs).nextOp
    (l.endAnswer st vs).settleOps = x.pump ∧ ChoiceStands l x ∧ x.pool = Pool.blank ∧ x.feed = Feed.blank ∧
      x.coder = Coder.blank := by
  have logged := formatLogged_logged p s
  generalize s.formatLogged p = l at logged
  have ended := endAnswer_stands st vs l
  have none (n : Nat) : (l.endAnswer st vs).live? n = .none := by
    rw [ended.segments.live?, logged.segments.live?, formatBuilt_live]
  have next := nextOp_stands none
  have stands := ended.trans next
  have pool : (l.endAnswer st vs).nextOp.pool = Pool.blank :=
    (nextOp_does (same_pool.mono rfl) (endAnswer_does (same_pool.mono rfl) st vs rfl)).trans logged.pool
  have feed : (l.endAnswer st vs).nextOp.feed = Feed.blank :=
    (nextOp_does (same_feed.mono rfl) (endAnswer_does (same_feed.mono rfl) st vs rfl)).trans logged.feed
  have coder : (l.endAnswer st vs).nextOp.coder = Coder.blank :=
    (nextOp_does (same_coder.mono rfl) (endAnswer_does (same_coder.mono rfl) st vs rfl)).trans logged.coder
  have req : (l.endAnswer st vs).nextOp.cat.openReq = .none := by rw [stands.cat, logged.cat]; rfl
  refine ⟨?_, stands, pool, feed, coder⟩
  rw [settleOps, settle_eq (.inl (by rw [feed]; rfl)), runCoder_of_rest (by rw [pool]; rfl) coder req]

end Sys2Proof.Machine.State

namespace Sys2Proof.Claims

open Sys2Proof.Machine Sys2Proof.Machine.State

variable {s t u v : State} {o : Op} {p : FormatParams}

/-- The engine when the last FORMAT erase has completed: the built blocks, the first entries, and the answer given. -/
structure FormatEnds (u w : State) (o : Op) (p : FormatParams) (t : State) : Prop where
  engine : t.engine = .ready
  stamp : t.stamp = true
  ret : t.ret = (w.formatBuilt p).ret
  recon : t.recon = Recon.blank
  eds : t.eds = Editions.blank
  segments : SegmentsStand (w.formatBuilt p) t
  cat : t.cat = { (w.formatBuilt p).cat with watch := { w.cat.watch with low := decide (t.freeCount < t.threshold) } }
  watch : bget t.desk.counters Counter.freeWatch.index = bget w.desk.counters Counter.freeWatch.index
  first : t.jnl.store.head? = some { seq := 1, day := p.day, second := false,
                                     body := EntryBody.mk0 .formatted .none w.usableCount w.cat.eraseFailed.length (w.usableCount / 16380) }
  submitted : ∀ b ∈ w.formatEntries, Submitted b t
  feed : t.feed = Feed.blank
  pool : t.pool = Pool.blank
  coder : t.coder = Coder.blank
  alone : w.exec.suspended = [] → w.exec.waiting = [] →
    t.scrub = (w.formatBuilt p).scrub ∧ t.exec = Exec.blank ∧
    Answered u o.slip (if w.cat.eraseFailed = [] then .done else .mediaError) (fours [w.usableCount, w.cat.eraseFailed.length]) t

theorem formatDone_ends {w : State} (running : w.exec.running = some o) (stand : SlipsStand u w) :
    FormatEnds u w o p (w.formatDone p).settleOps := by
  rw [formatDone_eq, show w.cat.eraseFailed.isEmpty = decide (w.cat.eraseFailed = []) by cases w.cat.eraseFailed <;> rfl]
  simp only [decide_eq_true_eq]
  set st : Status := if w.cat.eraseFailed = [] then .done else .mediaError
  set vs := fours [w.usableCount, w.cat.eraseFailed.length]
  have logged := formatLogged_logged p w
  obtain ⟨settled, stands, pool, feed, coder⟩ := formatLogged_settles p w st vs
  rw [settled]
  have ran : (w.formatLogged p).exec.running = some o := by rw [logged.exec, running]
  have exec := endAnswer_exec ran st vs
  have answered := endAnswer_answered ran (stand.trans (SlipsStand.trans (t := w.formatLogged p)
    (.of_same (s := w) (t := w.formatBuilt p) rfl rfl rfl) (.of_quiet logged.quiet))) st vs
  have recon : ((w.formatLogged p).endAnswer st vs).nextOp.recon = Recon.blank :=
    (nextOp_does (same_recon.mono rfl) (endAnswer_does (same_recon.mono rfl) st vs rfl)).trans logged.recon
  have eds : ((w.formatLogged p).endAnswer st vs).nextOp.eds = Editions.blank :=
    (nextOp_does (same_eds.mono rfl) (endAnswer_does (same_eds.mono rfl) st vs rfl)).trans logged.eds
  have ret : ((w.formatLogged p).endAnswer st vs).nextOp.ret = (w.formatBuilt p).ret :=
    (nextOp_does (same_ret.mono rfl) (endAnswer_does (same_ret.mono rfl) st vs rfl)).trans logged.ret
  have stamp : ((w.formatLogged p).endAnswer st vs).nextOp.stamp = true :=
    (nextOp_does (same_stamp.mono rfl) (endAnswer_does (same_stamp.mono rfl) st vs rfl)).trans logged.stamp
  have scrub : ((w.formatLogged p).endAnswer st vs).scrub = (w.formatBuilt p).scrub :=
    (endAnswer_does (same_scrub.mono rfl) st vs rfl).trans logged.scrub
  have place : ((w.formatLogged p).endAnswer st vs).desk.place = u.desk.place := by
    rw [show ((w.formatLogged p).endAnswer st vs).desk.place = (w.formatLogged p).desk.place from
      endAnswer_does (same_place.mono rfl) st vs rfl, logged.quiet.place]
    exact stand.place
  generalize (w.formatLogged p).endAnswer st vs = y at *
  have quiet := pump_quiet y.nextOp
  have segments : SegmentsStand (w.formatBuilt p) y.nextOp.pump :=
    (logged.segments.trans stands.segments).trans (pump_does (keeps_segments.mono rfl) (.refl _))
  have cat : y.nextOp.pump.cat = { (w.formatBuilt p).cat with watch := { w.cat.watch with low := (w.formatBuilt p).sideLow } } :=
    ((pump_does (same_cat.mono rfl) rfl : _ = y.nextOp.cat).trans stands.cat).trans logged.cat
  have side : decide (y.nextOp.pump.freeCount < y.nextOp.pump.threshold) = (w.formatBuilt p).sideLow :=
    sideLow_congr segments (by rw [cat]; rfl)
  obtain ⟨more, hm⟩ := quiet.store
  refine
    { engine := (quiet.engine.trans stands.engine).trans logged.segments.engine
      stamp := (pump_does (same_stamp.mono rfl) rfl).trans stamp
      ret := (pump_does (same_ret.mono rfl) rfl).trans ret
      recon := quiet.recon.trans recon
      eds := (pump_does (same_eds.mono rfl) rfl).trans eds
      segments := segments
      cat := by rw [side]; exact cat
      watch := ((quiet.counters .freeWatch (by decide)).trans stands.watch).trans (logged.quiet.counters .freeWatch (by decide))
      first := ?_
      submitted := fun b hb => quiet.submitted (submitted_congr stands.jnl (logged.submitted b hb))
      feed := quiet.feed.trans feed
      pool := (pump_does (same_pool.mono rfl) rfl).trans pool
      coder := (pump_does (same_coder.mono rfl) rfl).trans coder
      alone := fun su wa => ?_ }
  · have head := logged.first
    rw [← stands.jnl] at head
    rw [← hm, List.head?_append, head]
    rfl
  · have idle : y.pick = none := by
      rw [pick, exec, logged.exec, su, wa]
      rfl
    rw [nextOp_of_none idle] at *
    refine ⟨(pump_does (same_scrub.mono rfl) rfl).trans scrub, (pump_does (same_exec.mono rfl) rfl).trans ?_,
      answered_quiet answered place quiet⟩
    show y.exec = Exec.blank
    rw [exec, logged.exec]
    dsimp only
    rw [su, wa]
    rfl

/-! ## O19 -/

/-- The erase in progress completed on its lane and module, before FORMAT takes note of it (R131, R132). -/
def eraseCompleted (l : LaneNo) (ok : Bool) (n : Nat) (s : State) : State :=
  (if ok then s.mediaErase n else s).onLane l (Lane.complete ok)

/-- FORMAT's note of a completed erase (R40). -/
def eraseNoted (n : Nat) (ok : Bool) (s : State) : State :=
  s.onCat fun c => { c with eraseLeft := c.eraseLeft - 1, eraseFailed := if ok then c.eraseFailed else c.eraseFailed ++ [n] }

theorem exec_formatEraseCompletion (l : LaneNo) (ok : Bool) (bus : Bus) {n : Nat} {s : State} (on : s.powered = true)
    (f : s.engine = .formatting) (h : (bget s.lanes.lane l).inProgress = some (.erase n)) :
    Machine.exec (.formatEraseCompletion l ok bus) s = .next (((eraseCompleted l ok n (at_ bus s)).formatErased n ok).settleOps) := by
  refine (congrArg Host.Outcome.next (s.commandedOn_on bus _ on (by rw [f]; decide))).trans ?_
  have engine : (s.onBus bus).engine = .formatting := f
  have busy : (bget (s.onBus bus).lanes.lane l).inProgress = some (.erase n) := h
  show Host.Outcome.next (if (s.onBus bus).engine = .formatting then _ else _) = _
  rw [if_pos engine, busy]
  rfl

theorem eraseCompleted_rest (l : LaneNo) (ok : Bool) (n : Nat) (s : State) : (eraseCompleted l ok n s).exec = s.exec ∧
    (eraseCompleted l ok n s).cat = s.cat ∧ (eraseCompleted l ok n s).desk = s.desk ∧ (eraseCompleted l ok n s).fails = s.fails ∧
    (eraseCompleted l ok n s).mem = s.mem ∧ (eraseCompleted l ok n s).scrub = s.scrub ∧
    (eraseCompleted l ok n s).engine = s.engine ∧ (eraseCompleted l ok n s).stamp = s.stamp ∧
    (eraseCompleted l ok n s).ret = s.ret ∧
    (eraseCompleted l ok n s).media = (if ok then s.mediaErase n else s).media := by
  unfold eraseCompleted
  cases ok <;> exact ⟨rfl, rfl, rfl, rfl, rfl, rfl, rfl, rfl, rfl, rfl⟩

theorem formatErased_more {n : Nat} {ok : Bool} (h : 1 < v.cat.eraseLeft) : v.formatErased n ok = eraseNoted n ok v :=
  if_pos (show 0 < v.cat.eraseLeft - 1 by omega)

theorem formatErased_last {n : Nat} {ok : Bool} (running : v.exec.running = some o) (b : o.body = .format p)
    (h : v.cat.eraseLeft ≤ 1) : v.formatErased n ok = (eraseNoted n ok v).formatDone p := by
  obtain ⟨slip, adm, prio, urgent, begun, stopping, ended, body⟩ := o
  obtain rfl : body = .format p := b
  have here : (eraseNoted n ok v).exec.running = v.exec.running := rfl
  show (if 0 < v.cat.eraseLeft - 1 then _ else match (eraseNoted n ok v).exec.running with
    | some { body := .format p, .. } => (eraseNoted n ok v).formatDone p
    | _ => eraseNoted n ok v) = _
  rw [if_neg (by omega), here, running]

/-- While more than one erase is owed FORMAT goes on (R40). -/
theorem formatErase_goes_on {n : Nat} {ok : Bool} (running : v.exec.running = some o) (h : 1 < v.cat.eraseLeft) :
    let t := (v.formatErased n ok).settleOps
    t.engine = v.engine ∧ t.cat.eraseLeft = v.cat.eraseLeft - 1 ∧ t.stamp = v.stamp ∧ t.ret = v.ret ∧
      t.cat.eraseFailed = if ok then v.cat.eraseFailed else v.cat.eraseFailed ++ [n] := by
  rw [formatErased_more h]
  have still : (eraseNoted n ok v).exec.running.isSome = true := by
    show v.exec.running.isSome = true
    rw [running]
    rfl
  rw [settleOps_of_running still]
  have turn := settle_turn (eraseNoted n ok v)
  exact ⟨settle_does (same_engine.mono rfl) rfl, turn.eraseLeft, settle_does (same_stamp.mono rfl) rfl,
    settle_does (same_ret.mono rfl) rfl, turn.eraseFailed⟩

theorem formatGroups_get (days : List Nat) (g : GroupNo) :
    bget (formatGroups days) g = { days := days.getD g.val 1, walk := none } := by
  have := bget_foldl_bset (fun g : GroupNo => ({ days := days.getD g.val 1, walk := none } : Group)) (indices 4)
    (Vector.replicate 4 { days := 1, walk := none }) g
  rw [if_pos (mem_indices g)] at this
  exact this

/-- Settles O19, by the note of an erase that is not the last, and by the completion with the last. -/
theorem formatEraseCompletes : Obligations.FormatEraseCompletes := by
  unfold Obligations.FormatEraseCompletes
  intro bus l ok n o p s on f running b busy failed
  obtain ⟨exec, cat, desk, fails, mem, scrub, engine, stamp, ret, media⟩ := eraseCompleted_rest l ok n (at_ bus s)
  set v := eraseCompleted l ok n (at_ bus s)
  have ran : v.exec.running = some o := by rw [exec]; exact running
  have left : v.cat.eraseLeft = s.cat.eraseLeft := congrArg Catalog.eraseLeft cat
  have noted : (if ok then v.cat.eraseFailed else v.cat.eraseFailed ++ [n]) = failed := by rw [cat]; rfl
  have modules : (v.formatErased n ok).settleOps.media = (if ok then (at_ bus s).mediaErase n else at_ bus s).media :=
    (settleOps_does (same_media.mono rfl) (formatErased_does (same_media.mono rfl) n ok rfl)).trans media
  refine ⟨_, exec_formatEraseCompletion l ok bus on f busy, ?_, ?_, fun more => ?_, fun last => ?_, ?_, ?_⟩
  · exact (settleOps_does (same_base.mono rfl) (formatErased_does (same_base.mono rfl) n ok rfl)).trans (congrArg Desk.base desk)
  · exact (settleOps_does (same_period.mono rfl) (formatErased_does (same_period.mono rfl) n ok rfl)).trans (congrArg Desk.period desk)
  · obtain ⟨h1, h2, h3, h4, h5⟩ := formatErase_goes_on (n := n) (ok := ok) ran (by rw [left]; exact more)
    exact ⟨(h1.trans engine).trans f, by rw [h2, left], h3.trans stamp, h4.trans ret, h5.trans noted⟩
  · rw [formatErased_last ran b (by rw [left]; exact last)]
    set w := eraseNoted n ok v with hw
    have lost : w.cat.eraseFailed = failed := noted
    have set : w.cat.usable = s.cat.usable := by
      show v.cat.usable = _
      rw [cat]
      rfl
    have count : w.usableCount = s.usableCount := usableCount_congr set
    have wexec : w.exec = s.exec := exec
    have wscrub : w.scrub = s.scrub := scrub
    have watch : w.cat.watch = s.cat.watch := by
      show v.cat.watch = _
      rw [cat]
      rfl
    have counters : w.desk.counters = s.desk.counters := congrArg Desk.counters desk
    have usable (m : Nat) : w.usable m = s.usable m := by
      simp only [State.usable, usableLane, set]
    have ends := formatDone_ends (p := p) (u := at_ bus s) (w := w) (o := o) (by rw [wexec]; exact running)
      (.of_same (s := at_ bus s) desk fails mem)
    clear_value w
    generalize (w.formatDone p).settleOps = t at ends
    have cats := ends.cat
    have rets := ends.ret
    refine ⟨ends.engine, ends.stamp, by rw [rets]; rfl, by rw [rets]; rfl, by rw [rets]; rfl, by rw [rets]; rfl,
      by rw [rets]; rfl, by rw [rets]; rfl, fun g => by rw [rets]; exact formatGroups_get p.days g, ends.recon, ends.eds,
      by rw [cats]; rfl, by rw [cats]; rfl, ?_, by rw [ends.watch, counters], ?_, fun m hm => ends.submitted _ ?_,
      by rw [ends.feed]; rfl, by rw [cats]; rfl, fun su wa => ?_⟩
    · conv_lhs => rw [cats]
      rw [watch]
    · rw [ends.first, count, lost]
    · refine List.mem_cons_of_mem _ (List.mem_map.mpr ⟨m, ?_, rfl⟩)
      rw [lost]
      exact hm
    · obtain ⟨scrubs, execs, answered⟩ := ends.alone (by rw [wexec]; exact su) (by rw [wexec]; exact wa)
      rw [lost, count] at answered
      refine ⟨fun m hm => ?_, ends.pool, ends.feed, ends.coder, ?_, execs, answered⟩
      · rw [ends.segments.extent?, formatBuilt_extent (by rw [usable]; exact hm), lost]
      · rw [scrubs, ← wscrub]
        rfl
  · rintro rfl i hi
    rw [modules]
    exact byte_mediaErase n i hi (at_ bus s)
  · rintro rfl
    exact modules

end Sys2Proof.Claims
end

section
/-! SUPPORT. A sweep that finds every slip FREE (R35, R36, R128, R164, R186, R195, R196), for O13. -/

namespace Sys2Proof.Machine

/-- A byte of a span. -/
theorem bytes_getD (fill : Byte) (m : Memory) (a n i : Nat) (h : i < n) :
    (Memory.bytes fill m a n).getD i 0 = Memory.byte fill m (a + i) := by
  induction n generalizing a i with
  | zero => omega
  | succ n ih =>
    rw [Memory.bytes]
    cases i with
    | zero => rfl
    | succ i =>
      rw [List.getD_cons_succ, ih (a + 1) i (by omega)]
      congr 1
      omega

namespace State

variable {s t u v : State}

/-! ## The settings of the header (R36, R128, R164) -/

theorem takeWatch_cat (level : Nat) (edge : Byte) (s : State) :
    (s.takeWatch level edge).cat = { s.cat with watch :=
      { level := min level 15, falling := edge.getLsbD 0, rising := edge.getLsbD 1,
        low := if min level 15 = s.cat.watch.level then s.cat.watch.low
               else decide (s.freeCount < min level 15 * s.usableCount / 16) } } := by
  unfold takeWatch
  dsimp only
  split
  · rename_i same
    rw [same]
    rfl
  · rfl

/-- A lap begins at the sweep: the scrub is active and RESTING, and its last lap began before D or never (R164). -/
def lapBegins (s : State) : Prop :=
  s.engine = .ready ∧ s.scrub.enable = true ∧ s.scrub.state = .resting ∧ ∀ d, s.scrub.startDay = some d → d < s.ret.day

theorem lapBegins_iff : (s.scrubActive && s.scrub.state == .resting && (match s.scrub.startDay with
      | none => true
      | some d => decide (d < s.ret.day))) = true ↔ s.lapBegins := by
  unfold lapBegins scrubActive
  cases hd : s.scrub.startDay <;> simp [and_assoc]

theorem beginLap_of_begins (h : s.lapBegins) : s.beginLap =
    s.onScrub fun x => { x with cursor := 0, checked := 0, failed := 0, startDay := some s.ret.day, state := .walking } :=
  if_pos (lapBegins_iff.mpr h)

theorem beginLap_of_not (h : ¬ s.lapBegins) : s.beginLap = s := if_neg fun c => h (lapBegins_iff.mp c)

theorem takeSettings_desk (h : List Byte) (s : State) :
    (s.takeSettings h).desk = { s.desk with threshold := min (field h 0 1) 3, enable := h.getD 1 0 } :=
  beginLap_does (same_desk.mono rfl) (onScrub_does (same_desk.mono rfl) _ (takeWatch_does (same_desk.mono rfl) _ _ rfl))

theorem takeSettings_lanes (h : List Byte) (s : State) :
    (s.takeSettings h).lanes = { s.lanes with share := min (field h 2 2) 1023 } :=
  beginLap_does (same_lanes.mono rfl) (onScrub_does (same_lanes.mono rfl) _ (takeWatch_does (same_lanes.mono rfl) _ _ rfl))

theorem takeSettings_cat (h : List Byte) (s : State) : (s.takeSettings h).cat = { s.cat with watch :=
    { level := min (field h 4 1) 15, falling := (h.getD 5 0).getLsbD 0, rising := (h.getD 5 0).getLsbD 1,
      low := if min (field h 4 1) 15 = s.cat.watch.level then s.cat.watch.low
             else decide (s.freeCount < min (field h 4 1) 15 * s.usableCount / 16) } } :=
  (beginLap_does (same_cat.mono rfl) (onScrub_does (same_cat.mono rfl) _ rfl)).trans (takeWatch_cat _ _ _)

/-- The scrub with the settings of the header. -/
def scrubSet (h : List Byte) (x : Scrub) : Scrub := { x with enable := flagSet (h.getD 6 0), period := max (field h 7 1) 1 }

theorem takeSettings_scrub (h : List Byte) (s : State) :
    ((s.onScrub (scrubSet h)).lapBegins → (s.takeSettings h).scrub =
      { scrubSet h s.scrub with cursor := 0, checked := 0, failed := 0, startDay := some s.ret.day, state := .walking }) ∧
    (¬ (s.onScrub (scrubSet h)).lapBegins → (s.takeSettings h).scrub = scrubSet h s.scrub) := by
  set w := (((s.onDesk fun d => { d with threshold := min (field h 0 1) 3, enable := h.getD 1 0 }).onLanes fun l =>
    { l with share := min (field h 2 2) 1023 }).takeWatch (field h 4 1) (h.getD 5 0)).onScrub (scrubSet h) with hw
  have eq : s.takeSettings h = w.beginLap := rfl
  have scrub : w.scrub = scrubSet h s.scrub :=
    congrArg (scrubSet h) (takeWatch_does (same_scrub.mono rfl) (field h 4 1) (h.getD 5 0) rfl)
  have engine : w.engine = s.engine := onScrub_does (same_engine.mono rfl) _ (takeWatch_does (same_engine.mono rfl) _ _ rfl)
  have ret : w.ret = s.ret := onScrub_does (same_ret.mono rfl) _ (takeWatch_does (same_ret.mono rfl) _ _ rfl)
  have begins : w.lapBegins ↔ (s.onScrub (scrubSet h)).lapBegins := by
    unfold lapBegins
    rw [engine, ret, scrub]
    rfl
  rw [eq, ← begins]
  clear_value w
  refine ⟨fun c => ?_, fun c => ?_⟩
  · rw [beginLap_of_begins c, onScrub_scrub, scrub, ret]
  · rw [beginLap_of_not c, scrub]

/-! ## Every mark FREE (R187) -/

/-- A slip that is FREE, not held and clear in the map is passed over. -/
theorem dealSlip_of_free {i : SlipNo} (first : Bool) (read : s.readFails (s.slipAt i) 1 = false) (mark : s.markOf i = markFree)
    (held : bget s.desk.held i = .notHeld) (map : bget s.desk.map i = 0) : s.dealSlip first i = s := by
  have clear : s.clearEntry i markFree = s := by simp [clearEntry, map]
  unfold dealSlip
  rw [read, held, mark]
  show (if markFree = markPosted then (s.clearEntry i markFree).admitSlip i
    else if markFree = markTaken ∧ first = true then (s.clearEntry i markFree).writeAnswer i .restarted []
    else s.clearEntry i markFree) = s
  rw [if_neg (by decide), if_neg (fun c => absurd c.1 (by decide)), clear]

theorem dealSlips_of_free (first : Bool) (h : ∀ i, s.dealSlip first i = s) (is : List SlipNo) :
    is.foldl (fun t i => t.dealSlip first i) s = s := by
  induction is with
  | nil => rfl
  | cons i is ih => rw [List.foldl_cons, h, ih]

/-! ## The sweep as a whole (R186) -/

/-- The engine with the header taken, at the marks. -/
def sweeping (h : List Byte) (s : State) : State :=
  ((s.onDesk fun d => { d with asked := false }).takeSettings h).onDesk fun d => { d with sweep := some { quick := [], long := [] } }

/-- What the header leaves of the blocks. -/
structure Sweeping (h : List Byte) (s t : State) : Prop where
  desk : t.desk = { s.desk with asked := false, threshold := min (field h 0 1) 3, enable := h.getD 1 0,
                                sweep := some { quick := [], long := [] } }
  lanes : t.lanes = { s.lanes with share := min (field h 2 2) 1023 }
  cat : t.cat = { s.cat with watch :=
    { level := min (field h 4 1) 15, falling := (h.getD 5 0).getLsbD 0, rising := (h.getD 5 0).getLsbD 1,
      low := if min (field h 4 1) 15 = s.cat.watch.level then s.cat.watch.low
             else decide (s.freeCount < min (field h 4 1) 15 * s.usableCount / 16) } }
  laps : (s.onScrub (scrubSet h)).lapBegins → t.scrub =
      { scrubSet h s.scrub with cursor := 0, checked := 0, failed := 0, startDay := some s.ret.day, state := .walking }
  rests : ¬ (s.onScrub (scrubSet h)).lapBegins → t.scrub = scrubSet h s.scrub
  pending : t.pending = s.pending
  powered : t.powered = s.powered
  stamp : t.stamp = s.stamp
  engine : t.engine = s.engine
  media : t.media = s.media
  mem : t.mem = s.mem
  fails : t.fails = s.fails
  exec : t.exec = s.exec
  feed : t.feed = s.feed
  pool : t.pool = s.pool
  coder : t.coder = s.coder
  recon : t.recon = s.recon
  ret : t.ret = s.ret
  segments : SegmentsStand s t

theorem sweeping_sweeping (h : List Byte) (s : State) : Sweeping h s (s.sweeping h) := by
  obtain ⟨laps, rests⟩ := takeSettings_scrub h (s.onDesk fun d => { d with asked := false })
  have desk := takeSettings_desk h (s.onDesk fun d => { d with asked := false })
  have lanes := takeSettings_lanes h (s.onDesk fun d => { d with asked := false })
  have cat := takeSettings_cat h (s.onDesk fun d => { d with asked := false })
  have kept {α : Type} (F : State → α) (same : F ((s.onDesk fun d => { d with asked := false }).takeSettings h) =
      F (s.onDesk fun d => { d with asked := false })) := same
  have pending := kept State.pending (takeSettings_does (same_pending.mono rfl) h rfl)
  have powered := kept State.powered (takeSettings_does (same_powered.mono rfl) h rfl)
  have stamp := kept State.stamp (takeSettings_does (same_stamp.mono rfl) h rfl)
  have engine := kept State.engine (takeSettings_does (same_engine.mono rfl) h rfl)
  have media := kept State.media (takeSettings_does (same_media.mono rfl) h rfl)
  have mem := kept State.mem (takeSettings_does (same_mem.mono rfl) h rfl)
  have fails := kept State.fails (takeSettings_does (same_fails.mono rfl) h rfl)
  have exec := kept State.exec (takeSettings_does (same_exec.mono rfl) h rfl)
  have feed := kept State.feed (takeSettings_does (same_feed.mono rfl) h rfl)
  have pool := kept State.pool (takeSettings_does (same_pool.mono rfl) h rfl)
  have coder := kept State.coder (takeSettings_does (same_coder.mono rfl) h rfl)
  have recon := kept State.recon (takeSettings_does (same_recon.mono rfl) h rfl)
  have ret := kept State.ret (takeSettings_does (same_ret.mono rfl) h rfl)
  unfold sweeping
  generalize (s.onDesk fun d => { d with asked := false }).takeSettings h = w at *
  exact
    { desk := by
        show { w.desk with sweep := some { quick := [], long := [] } } = _
        rw [desk]
        rfl
      lanes := lanes
      cat := cat
      laps := laps
      rests := rests
      pending := pending
      powered := powered
      stamp := stamp
      engine := engine
      media := media
      mem := mem
      fails := fails
      exec := exec
      feed := feed
      pool := pool
      coder := coder
      recon := recon
      ret := ret
      segments :=
        { engine := engine
          usable := by rw [show (w.onDesk _).cat = w.cat from rfl, cat]; rfl
          table := by rw [show (w.onDesk _).cat = w.cat from rfl, cat]; rfl
          online := fun l => by show (bget w.lanes.lane l).online = _; rw [lanes]; rfl } }

/-! ## What the coder does next (R105) -/

/-- What the coder's next turn depends on. -/
structure CoderSees (s t : State) : Prop where
  segments : SegmentsStand s t
  openReq : t.cat.openReq = s.cat.openReq
  dir : t.cat.dir = s.cat.dir
  pool : t.pool = s.pool
  coder : t.coder = s.coder
  feed : t.feed = s.feed

theorem coderNext_of_sees (h : CoderSees s t) (idle : s.coderNext = none) : t.coderNext = none := by
  have hand : t.inHand = s.inHand := by simp [inHand, h.coder]
  have buffer : t.freeBuffer = s.freeBuffer := by simp [freeBuffer, h.coder]
  have available : t.availableOf = s.availableOf := by funext k; simp [availableOf, h.pool]
  have bound : t.switchBound = s.switchBound := by funext n; simp [switchBound, h.feed]
  have keyReady : t.keyReady = s.keyReady := by funext k; simp [State.keyReady, available, bound, h.dir]
  have ready : t.readyKey = s.readyKey := by simp [readyKey, h.pool, keyReady]
  have entry : t.dirEntry = s.dirEntry := by funext k; simp [dirEntry, h.dir]
  have busy : t.partBusy = s.partBusy := by funext k; simp [partBusy, entry, h.segments.partOf]
  have limit : t.atPartLimit = s.atPartLimit := by funext k; simp [atPartLimit, entry]
  unfold coderNext at idle ⊢
  rw [h.openReq, hand, buffer, ready]
  cases hr : s.cat.openReq with
  | some r =>
    simp only [hr] at idle ⊢
    rw [busy, limit]
    split at idle
    · rename_i stays
      rw [if_pos stays]
    · split at idle <;> cases idle
  | none =>
    simp only [hr] at idle ⊢
    cases hh : s.inHand with
    | some x => rfl
    | none =>
      simp only [hh] at idle ⊢
      cases hb : s.freeBuffer <;> cases hk : s.readyKey <;> simp_all

/-- With nothing to select the coder only rests. -/
theorem runCoder_of_idle (e : s.engine ≠ .recovering) (idle : s.coderNext = none) : s.runCoder = s.restCoder := by
  unfold runCoder
  rw [if_neg e, coderLoop, idle]

/-! ## The notice gate at the end of a sweep (R196) -/

/-- A counter that the mask enables differs from its kept value. -/
def counterDiffers (s : State) : Prop := ∃ c : Counter, s.enabled c = true ∧ bget s.desk.counters c.index ≠ bget s.desk.kept c.index

theorem counterDiffers_iff : (allCounters.any fun c => s.enabled c && bget s.desk.counters c.index != bget s.desk.kept c.index) = true ↔
    s.counterDiffers := by
  have every (c : Counter) : c ∈ allCounters := by cases c <;> decide
  simp only [List.any_eq_true, counterDiffers, Bool.and_eq_true, bne_iff_ne, every, true_and]

theorem openGate_of_differs (h : s.counterDiffers) : s.openGate = s.sendMessage := if_pos (counterDiffers_iff.mpr h)
theorem openGate_of_not (h : ¬ s.counterDiffers) : s.openGate = s.onDesk fun d => { d with gateOpen := true } :=
  if_neg fun c => h (counterDiffers_iff.mp c)

/-- The gate opens in the desk unit alone, and only in the gate, the kept values and the messages. -/
theorem openGate_eq (s : State) : ∃ m k g, s.openGate = s.onDesk fun d => { d with messages := m, kept := k, gateOpen := g } := by
  by_cases h : s.counterDiffers
  · exact ⟨_, _, _, openGate_of_differs h⟩
  · exact ⟨_, _, _, openGate_of_not h⟩

/-! ## The sweep at its end -/

/-- The engine fields of the header (R195). -/
def fieldBytes (s : State) : List Byte := leBytes 2 s.ret.day ++ unsignedField 2 s.pagesInUse ++ unsignedField 4 s.freeCount

theorem fieldBytes_length (s : State) : s.fieldBytes.length = 8 := by simp [fieldBytes]

theorem writeFields_of_later (h : s.desk.first = false) : s.writeFields = s.hostWrite (s.desk.place + 8) s.fieldBytes := by
  unfold writeFields
  rw [h]
  rfl

/-- What the end of a sweep leaves of the engine `v` at its marks. -/
structure SweepEnds (v z : State) : Prop where
  desk : ∃ m k g, z.desk = { v.desk with sweep := none, first := false, messages := m, kept := k, gateOpen := g }
  opens : ¬ v.counterDiffers → z.desk = { v.desk with sweep := none, first := false, gateOpen := true }
  sends : v.counterDiffers → z.desk = { v.desk with sweep := none, first := false, messages := v.desk.messages + 1,
                                                     kept := v.desk.counters, gateOpen := false }
  mem : z.mem = (v.hostWrite (v.desk.place + 8) v.fieldBytes).mem
  pending : z.pending = v.pending
  powered : z.powered = v.powered
  stamp : z.stamp = v.stamp
  engine : z.engine = v.engine
  media : z.media = v.media
  exec : z.exec = v.exec
  feed : z.feed = v.feed
  pool : z.pool = v.pool
  coder : z.coder = v.coder
  recon : z.recon = v.recon
  ret : z.ret = v.ret
  scrub : z.scrub = v.scrub
  cat : z.cat = v.cat
  lanes : z.lanes = v.lanes

/-- A write to host memory changes that memory alone. -/
theorem hostWrite_eq (a : Nat) (bs : List Byte) (s : State) : s.hostWrite a bs = s.onMem fun _ => (s.hostWrite a bs).mem := by
  unfold hostWrite
  split <;> rfl

theorem sweepEnds (later : v.desk.first = false) :
    SweepEnds v (v.writeFields.openGate.onDesk fun d => { d with sweep := none, first := false }) := by
  obtain ⟨m, written, mem⟩ : ∃ m, v.hostWrite (v.desk.place + 8) v.fieldBytes = v.onMem (fun _ => m) ∧
      m = (v.hostWrite (v.desk.place + 8) v.fieldBytes).mem := ⟨_, hostWrite_eq .., rfl⟩
  rw [writeFields_of_later later, written]
  have same : (v.onMem fun _ => m).counterDiffers ↔ v.counterDiffers := Iff.rfl
  have ends : ∀ n k g, (v.onMem fun _ => m).openGate = (v.onMem fun _ => m).onDesk (fun d => { d with messages := n, kept := k, gateOpen := g }) →
      (¬ v.counterDiffers → n = v.desk.messages ∧ k = v.desk.kept ∧ g = true) →
      (v.counterDiffers → n = v.desk.messages + 1 ∧ k = v.desk.counters ∧ g = false) →
      SweepEnds v ((v.onMem fun _ => m).openGate.onDesk fun d => { d with sweep := none, first := false }) := by
    intro n k g eq opens sends
    rw [eq]
    refine
      { desk := ⟨n, k, g, rfl⟩, opens := fun c => ?_, sends := fun c => ?_, mem := mem, pending := rfl, powered := rfl, stamp := rfl
        engine := rfl, media := rfl, exec := rfl, feed := rfl, pool := rfl, coder := rfl, recon := rfl, ret := rfl, scrub := rfl
        cat := rfl, lanes := rfl }
    · obtain ⟨rfl, rfl, rfl⟩ := opens c
      rfl
    · obtain ⟨rfl, rfl, rfl⟩ := sends c
      rfl
  by_cases c : v.counterDiffers
  · exact ends _ _ _ (openGate_of_differs (same.mpr c)) (fun d => absurd c d) fun _ => ⟨rfl, rfl, rfl⟩
  · exact ends _ _ _ (openGate_of_not (mt same.mp c)) (fun _ => ⟨rfl, rfl, rfl⟩) fun d => absurd d c

theorem onSweep_of_empty (h : s.desk.sweep = some { quick := [], long := [] }) : (s.onSweep fun x => { x with long := [] }) = s := by
  show { s with desk := { s.desk with sweep := s.desk.sweep.map fun x => { x with long := [] } } } = s
  have same : (s.desk.sweep.map fun x => { x with long := [] }) = s.desk.sweep := by rw [h]; rfl
  rw [same]

/-- A sweep with no quick slip and nothing to hand over ends. -/
theorem finishSweep_of_empty (h : s.desk.sweep = some { quick := [], long := [] }) (later : s.desk.first = false)
    (steady : Claims.Steady s) : s.finishSweep = s.writeFields.openGate.onDesk fun d => { d with sweep := none, first := false } := by
  have handed : s.handOverLong = s := by
    unfold handOverLong
    rw [h]
    show ((s.onSweep fun x => { x with long := [] })).nextOp = s
    rw [onSweep_of_empty h, nextOp_of_noChoice steady.2]
  unfold finishSweep
  rw [handed]
  obtain ⟨m, k, g, desk⟩ := (sweepEnds later).desk
  dsimp only
  rw [if_neg]
  rw [desk]
  show ¬ s.desk.baseWritten = true
  rw [steady.1]
  decide

/-- A sweep of a desk whose every slip is passed over runs to its end (R186). -/
theorem beginSweep_of_quiet (ready : s.sweepReady = true) (read : s.readFails s.desk.place 8 = false) (later : s.desk.first = false)
    (steady : Claims.Steady s) (pass : ∀ first i, (s.sweeping (s.hostBytes s.desk.place 8)).dealSlip first i =
      s.sweeping (s.hostBytes s.desk.place 8)) :
    s.beginSweep = (s.sweeping (s.hostBytes s.desk.place 8)).writeFields.openGate.onDesk
      fun d => { d with sweep := none, first := false } := by
  have w := sweeping_sweeping (s.hostBytes s.desk.place 8) s
  have first : (s.sweeping (s.hostBytes s.desk.place 8)).desk.first = false := by rw [w.desk]; exact later
  have empty : (s.sweeping (s.hostBytes s.desk.place 8)).desk.sweep = some { quick := [], long := [] } := by rw [w.desk]
  have still : Claims.Steady (s.sweeping (s.hostBytes s.desk.place 8)) := by
    unfold Claims.Steady Claims.NoChoice pick
    rw [w.desk, w.exec]
    exact steady
  rw [← finishSweep_of_empty empty first still]
  have reads (f : Desk → Desk) (a n : Nat) : (s.onDesk f).readFails a n = s.readFails a n := by simp only [readFails, onDesk_fails]
  have bytes (f : Desk → Desk) (a n : Nat) : (s.onDesk f).hostBytes a n = s.hostBytes a n := by simp only [hostBytes, onDesk_mem]
  unfold beginSweep
  rw [if_neg (by rw [ready]; decide)]
  simp only [reads, bytes, onDesk_desk, read, Bool.false_eq_true, if_false]
  generalize s.hostBytes s.desk.place 8 = h at *
  change ((indices 64).foldl (fun t i => t.dealSlip (s.sweeping h).desk.first i)
    (if (s.sweeping h).desk.first = true then (s.sweeping h).rebuildMap else s.sweeping h)).sweepGoesOn = _
  clear read
  generalize s.sweeping h = v at *
  rw [if_neg (by rw [first]; decide), dealSlips_of_free _ (pass _)]
  unfold sweepGoesOn
  rw [empty]
  rfl

/-! ## A quiet desk -/

/-- A sweep passes over every slip of a quiet desk. -/
theorem dealSlip_of_quiet {h : List Byte} (fits : Claims.DeskFits s) (reads : s.fails = []) (free : ∀ i, bget s.desk.held i = .notHeld)
    (clear : ∀ i, bget s.desk.map i = 0) (marks : ∀ i, Claims.byteAt s (s.slipAt i) = markFree) (first : Bool) (i : SlipNo) :
    (s.sweeping h).dealSlip first i = s.sweeping h := by
  have w := sweeping_sweeping h s
  have at_ : (s.sweeping h).slipAt i = s.slipAt i := by simp [slipAt, w.desk]
  refine dealSlip_of_free first ?_ ?_ (by rw [w.desk]; exact free i) (by rw [w.desk]; exact clear i)
  · rw [at_]
    unfold Claims.DeskFits at fits
    have slip : s.slipAt i + 1 ≤ 2 ^ 64 := by
      have := i.isLt
      unfold slipAt
      omega
    simp only [readFails, w.fails, reads, List.any_nil, Bool.or_false]
    exact decide_eq_false (by omega)
  · rw [markOf, at_, w.mem]
    exact marks i

end State

end Sys2Proof.Machine
end

section

namespace Sys2Proof.Claims
open Sys2Proof.Machine Sys2Proof.Machine.State

/-- Settles O13: no slip is dealt with, so the sweep is the header taken, the engine fields written and the gate opened; what follows
of itself then leaves the fields, and, where the coder has nothing to select, the gate. -/
theorem sweepOfAQuietDesk : Obligations.SweepOfAQuietDesk := by
  unfold Obligations.SweepOfAQuietDesk
  intro bus s powered ready fits reads wf later steady held clear marks h sc begins differs
  have acts : s.engine ≠ .recovering := by
    unfold sweepReady at ready
    simp only [Bool.and_eq_true, bne_iff_ne] at ready
    exact ready.2
  have span := fits
  unfold DeskFits at span
  have read : (at_ bus s).readFails s.desk.place 8 = false := by
    have none : (at_ bus s).fails = [] := reads
    simp only [readFails, none, List.any_nil, Bool.or_false, decide_eq_false_iff_not]
    omega
  have begun := beginSweep_of_quiet (s := at_ bus s) ready read later steady
    (dealSlip_of_quiet (s := at_ bus s) fits reads held clear marks)
  have w : Sweeping h (at_ bus s) ((at_ bus s).sweeping h) := sweeping_sweeping h (at_ bus s)
  change (at_ bus s).beginSweep = ((at_ bus s).sweeping h).writeFields.openGate.onDesk _ at begun
  have wfu : Memory.wf Config.hostFill (at_ bus s).mem = true := wf_onBus bus wf
  have bits : h.getD 1 0 = byteAt (at_ bus s) (s.desk.place + 1) := bytes_getD _ _ _ _ _ (by decide)
  have seen : SegmentsStand s (at_ bus s) := ⟨rfl, rfl, rfl, fun _ => rfl⟩
  have on := s.commandedOn_on bus (fun t => t.beginSweep.settleOps) powered acts
  change _ = (at_ bus s).beginSweep.settleOps at on
  have eq : Machine.exec (.sweep bus) s = .next (s.commandedOn bus fun t => t.beginSweep.settleOps) := rfl
  rw [eq, on, begun]
  clear eq on begun
  have first : ((at_ bus s).sweeping h).desk.first = false := by rw [w.desk]; exact later
  have e := sweepEnds first
  clear_value h
  generalize (at_ bus s).sweeping h = v at *
  generalize v.writeFields.openGate.onDesk (fun d => { d with sweep := none, first := false }) = z at *
  have idle : NoChoice z := by
    unfold NoChoice pick
    rw [e.exec, w.exec]
    exact steady.2
  rw [settleOps, nextOp_of_noChoice idle]
  obtain ⟨m, k, g, desk⟩ := e.desk
  rw [w.desk] at desk
  have notes : z.settle.desk = z.desk.withNotes z.settle.desk := settle_does (keeps_notes.mono rfl) (s := z) rfl
  have cat : z.settle.cat.watch = v.cat.watch := by rw [(settle_turn z).watch, e.cat]
  have scrub : z.settle.scrub = v.scrub := (settle_does (same_scrub.mono rfl) rfl).trans e.scrub
  have place : z.desk.place = s.desk.place := by rw [desk]; rfl
  have seenZ : SegmentsStand s z := (seen.trans w.segments).trans
    ⟨e.engine, by rw [e.cat], by rw [e.cat], fun l => by simp only [isOnline, e.lanes]⟩
  have fields : v.fieldBytes = leBytes 2 s.ret.day ++ unsignedField 2 s.pagesInUse ++ unsignedField 4 s.freeCount := by
    unfold fieldBytes pagesInUse
    rw [w.ret, w.pool, w.segments.freeCount, seen.freeCount]
    rfl
  have at_v : v.desk.place = s.desk.place := by rw [w.desk]; rfl
  have wfv : Memory.wf Config.hostFill v.mem = true := by rw [w.mem]; exact wfu
  have written := hostBytes_hostWrite (s := v) (s.desk.place + 8) v.fieldBytes (by rw [fieldBytes_length]; omega) wfv
  have mem := e.mem
  rw [at_v] at mem
  rw [fieldBytes_length] at written
  have header (a : Nat) (low : a < s.desk.place + 16) : byteAt z.settle a = byteAt z a := by
    have resumed := (standsAt_resumeStalled fun c _ => drainsApart_header z c).bytes a (by omega)
    have still : z.resumeStalled.desk = z.desk := resumeStalled_does (same_desk.mono rfl) rfl
    have coded := (runCoder_quiet z.resumeStalled).outside a (.inl (by rw [still, place]; exact low))
    have pumped := (pump_quiet z.resumeStalled.runCoder).outside a
      (.inl (by rw [(runCoder_quiet z.resumeStalled).place, still, place]; exact low))
    exact (pumped.trans coded).trans resumed
  refine ⟨z.settle, rfl, ?_, ?_, ?_, ?_, ?_, ?_, ?_, ?_, ?_, ?_, ?_, ?_, ?_, ?_, ?_, ?_, ?_, ?_, ?_⟩
  · rw [notes, desk]; rfl
  · rw [notes, desk]; rfl
  · rw [settle_share, e.lanes, w.lanes]
  · rw [notes, desk]; rfl
  · rw [notes, desk]; exact bits
  · rw [cat, w.cat]
  · rw [cat, w.cat]
  · rw [cat, w.cat]
  · rw [cat, w.cat]
    exact fun same => if_pos same
  · rw [cat, w.cat]
    exact fun ne => if_neg ne
  · rw [(settle_held z).count, desk]
    rfl
  · exact fun b => scrub.trans (w.laps b)
  · exact fun b => scrub.trans (w.rests b)
  · rw [← fields, ← written]
    exact (bytes_congr _ _ fun a lo hi => header a (by omega)).trans (by rw [hostBytes, mem])
  · intro a off
    have outside : OutsideDesk z z.settle := settle_does (keeps_outside.mono rfl) ⟨rfl, fun _ _ => rfl⟩
    unfold OffDesk at off
    rw [byteAt, outside.2 a (by rwa [place]), mem, byte_hostWrite_outside _ _ _ _ (by rw [fieldBytes_length]; omega), w.mem]
    rfl
  · exact (settle_does (same_ret.mono rfl) rfl).trans (e.ret.trans w.ret)
  · exact (settle_does (same_recon.mono rfl) rfl).trans (e.recon.trans w.recon)
  · refine settle_does (keeps_kept.mono rfl) (s := z) ⟨?_, ?_, ?_, ?_, ?_, ?_, ?_⟩
    · exact e.pending.trans w.pending
    · exact e.powered.trans w.powered
    · exact e.stamp.trans w.stamp
    · exact e.engine.trans w.engine
    · rw [desk]; rfl
    · rw [desk]; rfl
    · exact e.media.trans w.media
  · intro resumes still
    have feed : z.feed = s.feed := e.feed.trans w.feed
    have none : NoneResumes z := by
      unfold NoneResumes
      rw [feed, e.pool, w.pool]
      exact resumes
    have rests : z.settle = z.restCoder.pump := by
      rw [settle_eq none, runCoder_of_idle (by rw [e.engine, w.engine]; exact acts) (coderNext_of_sees
        ⟨seenZ, by rw [e.cat, w.cat]; rfl, by rw [e.cat, w.cat]; rfl, e.pool.trans w.pool, e.coder.trans w.coder, feed⟩ still)]
    have desks : z.settle.desk = z.desk := by
      rw [rests]
      exact pump_does (same_desk.mono rfl) (restCoder_does (same_desk.mono rfl) rfl)
    have same : v.counterDiffers ↔ differs := by
      unfold counterDiffers enabled
      rw [w.desk]
      rfl
    refine ⟨?_, ?_, ?_, fun d => ?_, fun d => ?_⟩
    · rw [desks, desk]
      rfl
    · rw [settle_exec, e.exec, w.exec]
      rfl
    · exact (settle_quiet none).feed.trans feed
    · rw [desks, e.sends (same.mpr d), w.desk]
      exact ⟨rfl, rfl, rfl⟩
    · rw [desks, e.opens (mt same.mp d), w.desk]
      exact ⟨rfl, rfl, rfl⟩

end Sys2Proof.Claims
end

section
/-! SUPPORT. Places, readiness and the coder's selection (R104, R105, R117), for O30, O31 and O34. -/

namespace Sys2Proof.Machine

/-! ## Places of a page -/

/-- The places of a page that the coder can take, by number. -/
theorem Page.mem_available_iff (p : Page) (i : Nat) :
    i ∈ p.available ↔ i < p.committed ∧ ∃ x, p.places[i]? = some x ∧ x.standing = .held := by
  unfold Page.available
  rw [List.mem_filterMap]
  constructor
  · rintro ⟨⟨x, j⟩, mem, hx⟩
    obtain ⟨held, rfl⟩ : x.standing = .held ∧ j = i := by
      dsimp only at hx
      split at hx
      · rename_i held
        exact ⟨held, Option.some.inj hx⟩
      · cases hx
    rw [List.mem_zipIdx_iff_getElem?, List.getElem?_take] at mem
    split at mem
    · rename_i low
      exact ⟨low, x, mem, held⟩
    · cases mem
  · rintro ⟨low, x, hx, held⟩
    refine ⟨(x, i), ?_, by simp [held]⟩
    rw [List.mem_zipIdx_iff_getElem?, List.getElem?_take, if_pos low]
    exact hx

theorem Page.available_pairwise (p : Page) : p.available.Pairwise (· < ·) := by
  unfold Page.available
  rw [List.pairwise_filterMap]
  have rises : ((p.places.take p.committed).zipIdx.map Prod.snd).Pairwise (· < ·) := by
    rw [List.zipIdx_map_snd]
    exact List.pairwise_lt_range'
  refine (List.pairwise_map.mp rises).imp fun {a b} lt x hx y hy => ?_
  split at hx <;> split at hy <;> simp_all

theorem getElem?_setStanding (st : Standing) (n : Nat) (xs : List Place) (j : Nat) :
    (setStanding st n xs)[j]? = if j = n then xs[j]?.map fun x => { x with standing := st } else xs[j]? := by
  induction xs generalizing n j with
  | nil => simp [setStanding]
  | cons x xs ih =>
    cases n with
    | zero => cases j <;> simp [setStanding]
    | succ n => cases j <;> simp [setStanding, ih]

namespace State

variable {s t u : State} {k : StreamKey}

/-! ## Readiness (R104, R105) -/

theorem mem_availableOf_iff (id : PlaceId) : id ∈ s.availableOf k ↔ ∃ p ∈ s.pool.pages, p.key = k ∧ p.serial = id.1 ∧
    id.2 < p.committed ∧ ∃ x, p.places[id.2]? = some x ∧ x.standing = .held := by
  unfold availableOf
  rw [List.mem_flatMap]
  constructor
  · rintro ⟨p, hp, mem⟩
    split at mem
    · rename_i key
      obtain ⟨i, hi, rfl⟩ := List.mem_map.mp mem
      exact ⟨p, hp, key, rfl, (p.mem_available_iff i).mp hi⟩
    · cases mem
  · rintro ⟨p, hp, key, serial, place⟩
    refine ⟨p, hp, ?_⟩
    rw [if_pos key]
    exact List.mem_map.mpr ⟨id.2, (p.mem_available_iff _).mpr place, by rw [serial]⟩

/-- The serials of a legal pool rise. -/
theorem serials_of_legal {p : Pool} (h : p.legal = true) : p.pages.Pairwise fun a b => a.serial < b.serial := by
  unfold Pool.legal at h
  simp only [Bool.and_eq_true, decide_eq_true_eq] at h
  exact h.1.1

theorem availableOf_pairwise (legal : s.pool.legal = true) (k : StreamKey) :
    (s.availableOf k).Pairwise fun a b => a.1 < b.1 ∨ (a.1 = b.1 ∧ a.2 < b.2) := by
  unfold availableOf
  rw [List.pairwise_flatMap]
  have of (p : Page) : ∀ x ∈ (if p.key = k then p.available.map fun i => (p.serial, i) else []), x.1 = p.serial := by
    intro x hx
    split at hx
    · obtain ⟨i, _, rfl⟩ := List.mem_map.mp hx
      rfl
    · cases hx
  refine ⟨fun p _ => ?_, (serials_of_legal legal).imp fun {a b} lt x hx y hy => .inl ?_⟩
  · split
    · exact List.pairwise_map.mpr (p.available_pairwise.imp fun lt => .inr ⟨rfl, lt⟩)
    · exact .nil
  · rw [of a x hx, of b y hy]
    exact lt

theorem switchBound_eq_false_iff (n : Nat) :
    s.switchBound n = false ↔ ∀ c f, (s.chan c).file = some f → f.bound = true → f.switch ≠ n := by
  unfold switchBound chan
  rw [Bool.eq_false_iff, ne_eq, List.any_eq_true]
  constructor
  · intro none c f file bound switch
    refine none ⟨c, mem_indices c, ?_⟩
    rw [file]
    simp [bound, switch]
  · rintro none ⟨c, -, is⟩
    split at is
    · rename_i f file
      simp only [Bool.and_eq_true, beq_iff_eq] at is
      exact none c f file is.1 is.2
    · cases is

theorem keyReady_iff : s.keyReady k = true ↔ 0 < (s.availableOf k).length ∧
    (64 ≤ (s.availableOf k).length ∨ ∀ c f, (s.chan c).file = some f → f.bound = true → f.switch ≠ k.switch) ∧
    ∀ d, s.dirEntry k = some d → d.limited = false := by
  rw [← switchBound_eq_false_iff]
  have entry : ((!((tfind k.code s.cat.dir).map DirEntry.limited).getD false) = true) ↔ ∀ d, s.dirEntry k = some d → d.limited = false := by
    unfold dirEntry
    cases tfind k.code s.cat.dir <;> simp
  unfold keyReady
  rw [Bool.and_eq_true, Bool.and_eq_true, entry, and_assoc]
  simp [Config.blockRecords]

/-- The page of a ready key's places. -/
theorem page_of_ready (h : s.keyReady k = true) {a : PlaceId} (ha : a ∈ s.availableOf k) : ∃ p ∈ s.pool.pages, p.key = k ∧
    p.serial = a.1 ∧ (!p.available.isEmpty && s.keyReady p.key) = true := by
  obtain ⟨p, hp, key, serial, place⟩ := (mem_availableOf_iff a).mp ha
  have some : p.available.isEmpty = false := by
    rw [List.isEmpty_eq_false_iff]
    exact List.ne_nil_of_mem ((p.mem_available_iff _).mpr place)
  exact ⟨p, hp, key, serial, by rw [some, key, h]; rfl⟩

theorem readyKey_eq_none_iff : s.readyKey = none ↔ ∀ k, s.keyReady k = false := by
  unfold readyKey
  rw [Option.map_eq_none_iff, List.find?_eq_none]
  constructor
  · intro none k
    by_contra ready
    have ready := Bool.eq_true_of_not_eq_false ready
    obtain ⟨a, ha⟩ := List.exists_mem_of_length_pos (keyReady_iff.mp ready).1
    obtain ⟨p, hp, -, -, is⟩ := page_of_ready ready ha
    exact none p hp is
  · intro none p _
    simp [none]

/-- The ready key is that of the first page with a place of one, so its oldest place has the lowest serial (R105). -/
theorem readyKey_oldest (legal : s.pool.legal = true) (h : s.readyKey = some k) : s.keyReady k = true ∧
    ∀ k', s.keyReady k' = true → ∀ a b, (s.availableOf k).head? = some a → (s.availableOf k').head? = some b → a.1 ≤ b.1 := by
  unfold readyKey at h
  obtain ⟨p, find, rfl⟩ := Option.map_eq_some_iff.mp h
  obtain ⟨is, before, after, pages, first⟩ := List.find?_eq_some_iff_append.mp find
  rw [Bool.and_eq_true] at is
  refine ⟨is.2, fun k' ready a b ha hb => ?_⟩
  obtain ⟨i, hi⟩ : ∃ i, i ∈ p.available := by
    have := is.1
    simp only [Bool.not_eq_true', List.isEmpty_eq_false_iff] at this
    exact List.exists_mem_of_ne_nil _ this
  have own : (p.serial, i) ∈ s.availableOf p.key :=
    (mem_availableOf_iff _).mpr ⟨p, by rw [pages]; simp, rfl, rfl, (p.mem_available_iff i).mp hi⟩
  have low : a.1 ≤ p.serial := by
    obtain ⟨rest, hrest⟩ := List.head?_eq_some_iff.mp ha
    have pairs := availableOf_pairwise legal p.key
    rw [hrest] at own pairs
    rcases List.mem_cons.mp own with same | later
    · rw [← same]
    · have := (List.pairwise_cons.mp pairs).1 _ later
      omega
  obtain ⟨q, hq, -, serial, good⟩ := page_of_ready ready (List.mem_of_head? hb)
  have high : p.serial ≤ q.serial := by
    have pairs := serials_of_legal legal
    rw [pages] at hq pairs
    rcases List.mem_append.mp hq with early | late
    · have := first q early
      rw [good] at this
      cases this
    · rcases List.mem_cons.mp late with same | later
      · rw [same]
      · have := (List.pairwise_cons.mp (List.pairwise_append.mp pairs).2.1).1 q later
        omega
  omega

/-! ## Places that take a standing -/

/-- A page with some places standing otherwise. -/
def stood (st : Standing) (ids : List PlaceId) (p : Page) : Page :=
  { p with places := p.places.mapIdx fun j x => if (p.serial, j) ∈ ids then { x with standing := st } else x }

theorem stood_place (st : Standing) (ids : List PlaceId) (p : Page) (j : Nat) : (stood st ids p).places[j]? =
    p.places[j]?.map fun x => if (p.serial, j) ∈ ids then { x with standing := st } else x := List.getElem?_mapIdx

theorem stood_data (st : Standing) (ids : List PlaceId) (p : Page) : (stood st ids p).places.map Place.data = p.places.map Place.data := by
  refine List.ext_getElem? fun j => ?_
  rw [List.getElem?_map, List.getElem?_map, stood_place]
  cases p.places[j]? with
  | none => rfl
  | some x =>
    simp only [Option.map_some]
    split <;> rfl

theorem setPlace_pool (st : Standing) (id : PlaceId) (s : State) :
    (s.setPlace st id).pool = { s.pool with pages := s.pool.pages.map (stood st [id]) } := by
  have page (p : Page) : (if p.serial = id.1 then { p with places := setStanding st id.2 p.places } else p) = stood st [id] p := by
    have place (j : Nat) : (setStanding st id.2 p.places)[j]? = p.places[j]?.map fun x => if j = id.2 then { x with standing := st } else x := by
      rw [getElem?_setStanding]
      split <;> simp
    split
    · rename_i serial
      unfold stood
      congr 1
      refine List.ext_getElem? fun j => ?_
      rw [place, List.getElem?_mapIdx]
      simp only [List.mem_singleton, Prod.ext_iff, serial, true_and]
    · rename_i serial
      unfold stood
      have stays : (p.places.mapIdx fun j x => if (p.serial, j) ∈ [id] then { x with standing := st } else x) = p.places := by
        refine List.ext_getElem? fun j => ?_
        rw [List.getElem?_mapIdx]
        simp [Prod.ext_iff, serial]
      rw [stays]
  show ({ s.pool with pages := s.pool.pages.map fun p => if p.serial = id.1 then _ else p } : Pool) = _
  rw [List.map_congr_left fun p _ => page p]

theorem setPlaces_pool (st : Standing) (ids : List PlaceId) (s : State) :
    (setPlaces st ids s).pool = { s.pool with pages := s.pool.pages.map (stood st ids) } := by
  induction ids generalizing s with
  | nil =>
    have stays (p : Page) : stood st [] p = p := by
      unfold stood
      have : (p.places.mapIdx fun j x => if (p.serial, j) ∈ ([] : List PlaceId) then { x with standing := st } else x) = p.places := by
        refine List.ext_getElem? fun j => ?_
        rw [List.getElem?_mapIdx]
        simp
      rw [this]
    show s.pool = { s.pool with pages := s.pool.pages.map (stood st []) }
    rw [List.map_congr_left fun p _ => stays p, List.map_id']
  | cons id ids ih =>
    have both (p : Page) : stood st ids (stood st [id] p) = stood st (id :: ids) p := by
      unfold stood
      congr 1
      refine List.ext_getElem? fun j => ?_
      simp only [List.getElem?_mapIdx, Option.map_map]
      congr 1
      funext x
      by_cases first : (p.serial, j) = id <;> by_cases later : (p.serial, j) ∈ ids <;> simp [first, later]
    rw [setPlaces, ih, setPlace_pool]
    simp only [List.map_map]
    congr 1
    exact List.map_congr_left fun p _ => both p

/-! ## The buffers -/

theorem setPlaces_coder (st : Standing) (ids : List PlaceId) (s : State) : (setPlaces st ids s).coder = s.coder :=
  setPlaces_does (same_coder.mono rfl) st ids rfl

theorem inHand_buffer {i : Fin 2} {places : List PlaceId} (h : s.inHand = some (i, k, places)) :
    bget s.coder.buffers i = .forming k places := by
  unfold inHand at h
  split at h
  · cases h
    assumption
  · split at h
    · cases h
      assumption
    · cases h

theorem freeBuffer_free {i : Fin 2} (h : s.freeBuffer = some i) : bget s.coder.buffers i = .free := by
  unfold freeBuffer at h
  split at h
  · cases h
    assumption
  · split at h
    · cases h
      assumption
    · cases h

theorem inHand_of_forming {i : Fin 2} {places : List PlaceId} (h : bget s.coder.buffers i = .forming k places) : s.inHand.isSome = true := by
  unfold inHand
  split
  · rfl
  · rename_i other
    split
    · rfl
    · rename_i none
      have : i = 0 ∨ i = 1 := by omega
      rcases this with rfl | rfl
      · exact absurd h (other k places)
      · exact absurd h (none k places)

/-- A block formed where none was in hand is the block in hand. -/
theorem inHand_of_formed {i : Fin 2} {places : List PlaceId} (none : s.inHand = none)
    (h : t.coder.buffers = bset s.coder.buffers i (.forming k places)) : t.inHand = some (i, k, places) := by
  have idle (j : Fin 2) (k' : StreamKey) (ps : List PlaceId) : bget s.coder.buffers j ≠ .forming k' ps := fun c => by
    have := inHand_of_forming c
    rw [none] at this
    cases this
  unfold inHand
  rw [h]
  have which : i = 0 ∨ i = 1 := by omega
  rcases which with rfl | rfl
  · rw [bget_bset_self]
  · rw [bget_bset_ne _ _ _ _ (by decide), bget_bset_self]
    split
    · rename_i k' ps c
      exact absurd c (idle 0 k' ps)
    · rfl

theorem inHand_congr (h : t.coder.buffers = s.coder.buffers) : t.inHand = s.inHand := by simp [inHand, h]

/-! ## A selection (R105) -/

/-- The block that a selection forms. -/
theorem selectBlock_blocks (i : Fin 2) (k : StreamKey) (s : State) :
    (s.selectBlock i k).pool = (setPlaces .inFlight ((s.availableOf k).take 64) s).pool ∧
    (s.selectBlock i k).coder.buffers = bset s.coder.buffers i (.forming k ((s.availableOf k).take 64)) := by
  have coder := setPlaces_coder .inFlight ((s.availableOf k).take 64) s
  unfold selectBlock
  dsimp only [Config.blockRecords]
  generalize setPlaces .inFlight ((s.availableOf k).take 64) s = x at *
  have formed : (x.setBuffer i (.forming k ((s.availableOf k).take 64))).coder.buffers =
      bset s.coder.buffers i (.forming k ((s.availableOf k).take 64)) := by rw [← coder]; rfl
  split <;> exact ⟨rfl, formed⟩

/-! ## Places let go (R30, R117) -/

/-- Each of some places is HELD, or in a block that is being formed. -/
def LetGo (places : List PlaceId) (t : State) : Prop :=
  ∀ p ∈ t.pool.pages, ∀ j x, (p.serial, j) ∈ places → p.places[j]? = some x →
    x.standing = .held ∨ ∃ b k' ps, bget t.coder.buffers b = .forming k' ps ∧ (p.serial, j) ∈ ps

theorem LetGo.congr {places : List PlaceId} (h : LetGo places s) (pool : t.pool = s.pool) (buffers : t.coder.buffers = s.coder.buffers) :
    LetGo places t := by
  unfold LetGo at h ⊢
  rwa [pool, buffers]

/-- Places that have just been let go are HELD. -/
theorem held_setPlaces {places : List PlaceId} {p : Page} (hp : p ∈ (setPlaces .held places s).pool.pages) {j : Nat} {x : Place}
    (mem : (p.serial, j) ∈ places) (hx : p.places[j]? = some x) : x.standing = .held := by
  rw [setPlaces_pool] at hp
  obtain ⟨q, -, rfl⟩ := List.mem_map.mp hp
  obtain ⟨y, -, rfl⟩ := Option.map_eq_some_iff.mp (stood_place .held places q j ▸ hx)
  rw [if_pos (show (q.serial, j) ∈ places from mem)]

/-- Places that are HELD in every page there is are let go. -/
theorem letGo_of_pages {places : List PlaceId} (pages : ∀ p ∈ t.pool.pages, p ∈ (setPlaces .held places s).pool.pages) : LetGo places t :=
  fun p hp _ _ mem hx => .inl (held_setPlaces (pages p hp) mem hx)

theorem refuseOpen_pool (k : StreamKey) (s : State) : (s.refuseOpen k).pool = s.pool := refuseOpen_does (same_pool.mono rfl) k rfl
theorem refuseOpen_coder (k : StreamKey) (s : State) : (s.refuseOpen k).coder = s.coder := refuseOpen_does (same_coder.mono rfl) k rfl

/-- A refused open, where a block is in hand: its places are HELD and its buffer is FREE (R117). -/
theorem openRefused_of_hand {i : Fin 2} {j : StreamKey} {places : List PlaceId} (k : StreamKey) (h : s.inHand = some (i, j, places)) :
    (s.openRefused k).pool = (setPlaces .held places s).pool ∧
    (s.openRefused k).coder.buffers = bset s.coder.buffers i .free := by
  have hand : ((s.refuseOpen k).onCat fun c => { c with openReq := none }).inHand = some (i, j, places) :=
    (inHand_congr (congrArg Coder.buffers (refuseOpen_coder k s))).trans h
  unfold openRefused
  dsimp only
  rw [hand]
  dsimp only
  refine ⟨?_, ?_⟩
  · show (setPlaces .held places _).pool = _
    rw [setPlaces_pool, setPlaces_pool, show (((s.refuseOpen k).onCat fun c => { c with openReq := none })).pool = s.pool from refuseOpen_pool k s]
  · show bset (setPlaces .held places _).coder.buffers i .free = _
    rw [setPlaces_coder, show (((s.refuseOpen k).onCat fun c => { c with openReq := none })).coder = s.coder from refuseOpen_coder k s]

theorem openRefused_of_none (j : StreamKey) (hand : s.inHand = none) :
    s.openRefused j = (s.refuseOpen j).onCat fun c => { c with openReq := none } := by
  have empty : ((s.refuseOpen j).onCat fun c => { c with openReq := none }).inHand = none :=
    (inHand_congr (congrArg Coder.buffers (refuseOpen_coder j s))).trans hand
  unfold openRefused
  dsimp only
  rw [empty]

theorem openRefused_coder_of_none (j : StreamKey) (hand : s.inHand = none) : (s.openRefused j).coder = s.coder := by
  rw [openRefused_of_none j hand]
  exact refuseOpen_coder j s

theorem letGo_openRefused {places : List PlaceId} (h : LetGo places s) (k : StreamKey) : LetGo places (s.openRefused k) := by
  cases hand : s.inHand with
  | none =>
    rw [openRefused_of_none k hand]
    exact h.congr (refuseOpen_pool k s) (congrArg Coder.buffers (refuseOpen_coder k s))
  | some b =>
    obtain ⟨i, j, ps⟩ := b
    obtain ⟨pool, buffers⟩ := openRefused_of_hand k hand
    have formed := inHand_buffer hand
    intro p hp n x mem hx
    rw [pool, setPlaces_pool] at hp
    obtain ⟨q, hq, rfl⟩ := List.mem_map.mp hp
    obtain ⟨y, hy, rfl⟩ := Option.map_eq_some_iff.mp (stood_place .held ps q n ▸ hx)
    by_cases inside : (q.serial, n) ∈ ps
    · exact .inl (by rw [if_pos inside])
    · rw [if_neg inside, buffers]
      refine (h q hq n y mem hy).imp_right fun ⟨b, k', qs, forming, there⟩ => ⟨b, k', qs, ?_, there⟩
      have ne : b ≠ i := by
        rintro rfl
        rw [formed] at forming
        cases forming
        exact inside there
      rw [bget_bset_ne _ _ _ _ ne.symm]
      exact forming

theorem letGo_selectBlock {places : List PlaceId} {i : Fin 2} (h : LetGo places s) (free : bget s.coder.buffers i = .free) (k : StreamKey) :
    LetGo places (s.selectBlock i k) := by
  obtain ⟨pool, buffers⟩ := selectBlock_blocks i k s
  intro p hp n x mem hx
  rw [pool, setPlaces_pool] at hp
  obtain ⟨q, hq, rfl⟩ := List.mem_map.mp hp
  obtain ⟨y, hy, rfl⟩ := Option.map_eq_some_iff.mp (stood_place .inFlight _ q n ▸ hx)
  rw [buffers]
  by_cases inside : (q.serial, n) ∈ (s.availableOf k).take 64
  · exact .inr ⟨i, k, _, bget_bset_self _ _ _, inside⟩
  · rw [if_neg inside]
    refine (h q hq n y mem hy).imp_right fun ⟨b, k', qs, forming, there⟩ => ⟨b, k', qs, ?_, there⟩
    have ne : b ≠ i := by
      rintro rfl
      rw [free] at forming
      cases forming
    rw [bget_bset_ne _ _ _ _ ne.symm]
    exact forming

theorem letGo_coderNext {places : List PlaceId} (h : LetGo places s) (e : s.coderNext = some t) : LetGo places t := by
  unfold coderNext at e
  repeat' split at e
  all_goals cases e
  · exact letGo_openRefused h _
  · exact h.congr rfl rfl
  · rename_i free _
    exact letGo_selectBlock h (freeBuffer_free free) _

theorem restCoder_buffers (s : State) : s.restCoder.coder.buffers = s.coder.buffers := by
  unfold restCoder
  split <;> rfl

theorem letGo_coderLoop {places : List PlaceId} (h : LetGo places s) (n : Nat) : LetGo places (coderLoop n s) := by
  induction n generalizing s with
  | zero => exact h
  | succ n ih =>
    unfold coderLoop
    split
    · rename_i t e
      exact ih (letGo_coderNext h e)
    · exact h.congr (restCoder_does (same_pool.mono rfl) rfl) (restCoder_buffers s)

theorem letGo_runCoder {places : List PlaceId} (h : LetGo places s) : LetGo places s.runCoder := by
  unfold runCoder
  split
  · exact h
  · exact letGo_coderLoop h _

theorem pump_pool (s : State) : s.pump.pool = s.pool := pump_does (same_pool.mono rfl) rfl
theorem pump_coder (s : State) : s.pump.coder = s.coder := pump_does (same_coder.mono rfl) rfl

/-- Places let go stay so while the coder goes on. -/
theorem letGo_settle {places : List PlaceId} (h : LetGo places s) (none : Claims.NoneResumes s) : LetGo places s.settle := by
  rw [settle_eq none]
  exact (letGo_runCoder h).congr (pump_pool _) (congrArg Coder.buffers (pump_coder _))

/-! ## A key's limit flag (R23) -/

/-- The limit flag of a key's directory entry. -/
def limitOf (s : State) (k : StreamKey) : Option Bool := (s.dirEntry k).map DirEntry.limited

theorem dirEntry_log (e : EntryKind) (sub : Subject) (v1 : Int) (v2 v3 : Nat) (s : State) (k : StreamKey) :
    (s.log e sub v1 v2 v3).dirEntry k = s.dirEntry k := by
  unfold dirEntry
  rw [log_cat]

/-- A flag that is set stays set at a refused open. -/
theorem limitOf_refuseOpen (k j : StreamKey) (h : s.limitOf k = some true) : (s.refuseOpen j).limitOf k = some true := by
  unfold refuseOpen
  split
  · split
    · exact h
    · unfold limitOf
      rw [dirEntry_log]
      show (tfind k.code (tput j.code _ s.cat.dir)).map DirEntry.limited = some true
      by_cases same : k.code = j.code
      · rw [same, tfind_tput_self]
        rfl
      · rw [tfind_tput_ne same]
        exact h
  · exact h

/-- An open refused at the part limit sets the flag, and submits STREAM-LIMIT where it was not set (R23). -/
theorem refuseOpen_refuses (h : s.atPartLimit k = true) : (s.refuseOpen k).limitOf k = some true ∧
    (s.engine = .ready → s.limitOf k = some false → Claims.Submitted (EntryBody.mk0 .streamLimit (.key k) 0 0 0) (s.refuseOpen k)) := by
  unfold atPartLimit at h
  split at h
  · rename_i d hd
    unfold refuseOpen limitOf
    rw [hd]
    dsimp only
    split
    · rename_i set
      exact ⟨by rw [hd]; exact congrArg some set, fun _ clear => by simp [set] at clear⟩
    · refine ⟨?_, fun ready _ => log_submitted (s := s.setDir k { d with limited := true }) ready _ _ _ _ _⟩
      rw [dirEntry_log]
      show (tfind k.code (tput k.code _ s.cat.dir)).map DirEntry.limited = some true
      rw [tfind_tput_self]
      rfl
  · cases h

theorem openRefused_cat (j : StreamKey) (s : State) : (s.openRefused j).cat = { (s.refuseOpen j).cat with openReq := none } := by
  unfold openRefused
  dsimp only
  split
  · exact setBuffer_does (same_cat.mono rfl) _ _ (setPlaces_does (same_cat.mono rfl) _ _ rfl)
  · rfl

theorem limitOf_openRefused (j : StreamKey) (s : State) : (s.openRefused j).limitOf = (s.refuseOpen j).limitOf := by
  funext k
  unfold limitOf dirEntry
  rw [openRefused_cat]

theorem selectBlock_dir (i : Fin 2) (j : StreamKey) (s : State) : (s.selectBlock i j).cat.dir = s.cat.dir := by
  have cat : (setPlaces .inFlight ((s.availableOf j).take 64) s).cat = s.cat := setPlaces_does (same_cat.mono rfl) _ _ rfl
  unfold selectBlock
  dsimp only [Config.blockRecords]
  generalize setPlaces .inFlight ((s.availableOf j).take 64) s = x at *
  rw [← cat]
  split <;> rfl

theorem limitOf_coderNext (e : s.coderNext = some t) (h : s.limitOf k = some true) : t.limitOf k = some true := by
  unfold coderNext at e
  repeat' split at e
  all_goals cases e
  · rw [limitOf_openRefused]
    exact limitOf_refuseOpen k _ h
  · exact h
  · unfold limitOf dirEntry
    rw [selectBlock_dir]
    exact h

theorem limitOf_coderLoop (n : Nat) (h : s.limitOf k = some true) : (coderLoop n s).limitOf k = some true := by
  induction n generalizing s with
  | zero => exact h
  | succ n ih =>
    unfold coderLoop
    split
    · rename_i t e
      exact ih (limitOf_coderNext e h)
    · unfold limitOf dirEntry
      rw [show s.restCoder.cat = s.cat from restCoder_does (same_cat.mono rfl) rfl]
      exact h

theorem limitOf_pump (s : State) (k : StreamKey) : s.pump.limitOf k = s.limitOf k := by
  unfold limitOf dirEntry
  rw [show s.pump.cat = s.cat from pump_does (same_cat.mono rfl) rfl]

/-- An open has been refused: the key's flag is set, and STREAM-LIMIT submitted where it was not. -/
def Refused (s : State) (k : StreamKey) (t : State) : Prop := t.limitOf k = some true ∧
  (s.engine = .ready → s.limitOf k = some false → Claims.Submitted (EntryBody.mk0 .streamLimit (.key k) 0 0 0) t)

theorem refused_openRefused (h : s.atPartLimit k = true) : Refused s k (s.openRefused k) := by
  obtain ⟨flag, entry⟩ := refuseOpen_refuses h
  refine ⟨by rw [limitOf_openRefused]; exact flag, fun ready clear => ?_⟩
  have jnl : (s.openRefused k).jnl = (s.refuseOpen k).jnl := by
    unfold openRefused
    dsimp only
    split
    · exact setBuffer_does (same_jnl.mono rfl) _ _ (setPlaces_does (same_jnl.mono rfl) _ _ rfl)
    · rfl
  have there := entry ready clear
  unfold Claims.Submitted at there ⊢
  rwa [jnl]

theorem Refused.loop (h : Refused s k t) (n : Nat) : Refused s k (coderLoop n t).pump :=
  ⟨by rw [limitOf_pump]; exact limitOf_coderLoop n h.1,
    fun ready clear => (pump_quiet _).submitted ((coderLoop_quiet n t).submitted (h.2 ready clear))⟩

/-! ## The coder goes as far as it can (R105, R113, R26) -/

theorem coderLoop_of_next (e : s.coderNext = some t) (n : Nat) : coderLoop (n + 1) s = coderLoop n t := by rw [coderLoop, e]
theorem coderLoop_of_idle (e : s.coderNext = none) (n : Nat) : coderLoop (n + 1) s = s.restCoder := by rw [coderLoop, e]

theorem restCoder_of_hand (h : s.inHand.isSome = true) : s.restCoder = s := if_pos h

/-- With a block in hand and a waiting open, the coder waits for the open. -/
theorem coderNext_of_waits {r : OpenRequest} (hr : s.cat.openReq = some r) (h : r.arrived = true ∨ s.partBusy r.key = true) :
    s.coderNext = none := by
  unfold coderNext
  rw [hr]
  dsimp only
  rw [if_pos (by simpa using h)]

theorem coderNext_of_arrival {r : OpenRequest} (hr : s.cat.openReq = some r) (new : r.arrived = false) (free : s.partBusy r.key = false) :
    s.coderNext = some (if s.atPartLimit r.key then s.openRefused r.key
      else s.onCat fun c => { c with openReq := some { r with arrived := true } }) := by
  unfold coderNext
  rw [hr]
  dsimp only
  rw [if_neg (by simp [new, free])]
  split <;> rfl

theorem coderNext_of_select {i : Fin 2} (hr : s.cat.openReq = none) (hand : s.inHand = none) (free : s.freeBuffer = some i)
    (ready : s.readyKey = some k) : s.coderNext = some (s.selectBlock i k) := by
  unfold coderNext
  rw [hr, hand, free, ready]

/-- With nothing in hand, no open and nothing to select, the coder rests. -/
theorem coderNext_of_rest (hr : s.cat.openReq = none) (hand : s.inHand = none) (nothing : s.freeBuffer = none ∨ s.readyKey = none) :
    s.coderNext = none := by
  unfold coderNext
  rw [hr, hand]
  dsimp only
  rcases nothing with none | none <;> rw [none]
  cases s.freeBuffer <;> rfl

/-- The block that a selection forms, with its target or the open that is asked for. -/
theorem selectBlock_coder (i : Fin 2) (k : StreamKey) (s : State) :
    (s.selectBlock i k).coder = { buffers := bset s.coder.buffers i (.forming k ((s.availableOf k).take 64)),
                                  target := s.fillingOf k,
                                  state := if (s.fillingOf k).isSome then .coding else .waitingExtent } ∧
    (s.selectBlock i k).cat = { s.cat with openReq := if (s.fillingOf k).isSome then s.cat.openReq
                                                      else some { key := k, arrived := false } } := by
  have coder := setPlaces_coder .inFlight ((s.availableOf k).take 64) s
  have cat : (setPlaces .inFlight ((s.availableOf k).take 64) s).cat = s.cat := setPlaces_does (same_cat.mono rfl) _ _ rfl
  have filling : ((setPlaces .inFlight ((s.availableOf k).take 64) s).setBuffer i
      (.forming k ((s.availableOf k).take 64))).fillingOf k = s.fillingOf k := by
    unfold fillingOf dirEntry
    rw [show ((setPlaces .inFlight ((s.availableOf k).take 64) s).setBuffer i _).cat = _ from cat]
  unfold selectBlock
  dsimp only [Config.blockRecords]
  rw [filling]
  generalize setPlaces .inFlight ((s.availableOf k).take 64) s = x at *
  rw [← cat, ← coder]
  cases s.fillingOf k <;> exact ⟨rfl, rfl⟩

theorem selectBlock_segments (i : Fin 2) (k : StreamKey) (s : State) : SegmentsStand s (s.selectBlock i k) :=
  selectBlock_does (keeps_segments.mono rfl) i k (.refl s)

/-- Whether an open for a key waits, and whether it is refused, depend on the records and the directory. -/
theorem partBusy_congr (h : SegmentsStand s t) (dir : t.cat.dir = s.cat.dir) (k : StreamKey) :
    t.partBusy k = s.partBusy k ∧ t.atPartLimit k = s.atPartLimit k := by
  have entry : t.dirEntry k = s.dirEntry k := by simp [dirEntry, dir]
  unfold partBusy atPartLimit
  rw [entry]
  simp [h.partOf]

theorem runCoder_eq (e : s.engine ≠ .recovering) : ∃ n, s.runCoder = coderLoop (n + 4) s := ⟨_, if_neg e⟩

/-- With nothing in hand and nothing to select the coder is IDLE, or WAITING-LANE without a FREE buffer (R102). -/
theorem runCoder_rests (e : s.engine ≠ .recovering) (hr : s.cat.openReq = none) (hand : s.inHand = none)
    (nothing : s.freeBuffer = none ∨ s.readyKey = none) : s.runCoder =
      s.onCoder fun c => { c with state := if s.freeBuffer.isSome then .idle else .waitingLane, target := none } := by
  obtain ⟨n, eq⟩ := runCoder_eq e
  rw [eq, coderLoop_of_idle (coderNext_of_rest hr hand nothing)]
  unfold restCoder
  rw [if_neg (by rw [hand]; decide)]

/-- With an open that waits the coder goes no further (R26). -/
theorem runCoder_waits {r : OpenRequest} (e : s.engine ≠ .recovering) (hand : s.inHand.isSome = true) (hr : s.cat.openReq = some r)
    (h : r.arrived = true ∨ s.partBusy r.key = true) : s.runCoder = s := by
  obtain ⟨n, eq⟩ := runCoder_eq e
  rw [eq, coderLoop_of_idle (coderNext_of_waits hr h), restCoder_of_hand hand]

/-- An open arrives once the key's highest part has no store in flight (R26). -/
theorem coderLoop_arrives {r : OpenRequest} (hand : s.inHand.isSome = true) (hr : s.cat.openReq = some r)
    (new : r.arrived = false) (free : s.partBusy r.key = false) (below : s.atPartLimit r.key = false) (n : Nat) :
    coderLoop (n + 2) s = s.onCat fun c => { c with openReq := some { r with arrived := true } } := by
  have next := coderNext_of_arrival hr new free
  rw [if_neg (by rw [below]; decide)] at next
  rw [coderLoop_of_next next, coderLoop_of_idle (coderNext_of_waits (r := { r with arrived := true }) rfl (.inl rfl))]
  exact restCoder_of_hand (s := s.onCat _) hand

/-- At the part limit it is refused: the key's flag is set and the places of the block in hand are let go (R23, R117). -/
theorem coderLoop_refuses {r : OpenRequest} {i : Fin 2} {places : List PlaceId} (hand : s.inHand = some (i, k, places))
    (hr : s.cat.openReq = some r) (new : r.arrived = false) (free : s.partBusy r.key = false) (limit : s.atPartLimit r.key = true)
    (n : Nat) : Refused s r.key (coderLoop (n + 1) s).pump ∧ LetGo places (coderLoop (n + 1) s).pump := by
  have next := coderNext_of_arrival hr new free
  rw [if_pos limit] at next
  rw [coderLoop_of_next next]
  obtain ⟨pool, -⟩ := openRefused_of_hand r.key hand
  have letGo : LetGo places (s.openRefused r.key) := letGo_of_pages (s := s) fun p hp => by rwa [pool] at hp
  exact ⟨(refused_openRefused limit).loop n, (letGo_coderLoop letGo n).congr (pump_pool _) (congrArg Coder.buffers (pump_coder _))⟩

section select

variable {i : Fin 2} (e : s.engine ≠ .recovering) (hr : s.cat.openReq = none) (hand : s.inHand = none) (free : s.freeBuffer = some i)
  (ready : s.readyKey = some k)
include e hr hand free ready

theorem runCoder_selects : ∃ n, s.runCoder = coderLoop (n + 3) (s.selectBlock i k) ∧
    (s.selectBlock i k).inHand.isSome = true := by
  obtain ⟨n, eq⟩ := runCoder_eq e
  refine ⟨n, by rw [eq, coderLoop_of_next (coderNext_of_select hr hand free ready)], ?_⟩
  refine inHand_of_forming (i := i) (k := k) (places := (s.availableOf k).take 64) ?_
  rw [(selectBlock_coder i k s).1]
  exact bget_bset_self _ _ _

/-- A selection that finds the key's FILLING segment, or whose open waits, or arrives. -/
theorem runCoder_takes (stays : (s.fillingOf k).isSome = true ∨ s.atPartLimit k = false ∨ s.partBusy k = true) :
    s.runCoder.coder = (s.selectBlock i k).coder ∧ s.runCoder.pool = (s.selectBlock i k).pool ∧
    (s.fillingOf k = none → s.runCoder.cat.openReq = some { key := k, arrived := !s.partBusy k }) := by
  obtain ⟨n, eq, held⟩ := runCoder_selects e hr hand free ready
  have cat := (selectBlock_coder i k s).2
  obtain ⟨busy, limit⟩ := partBusy_congr (selectBlock_segments i k s) (selectBlock_dir i k s) k
  rw [eq]
  cases filling : s.fillingOf k with
  | some m =>
    rw [filling] at cat
    have idle : (s.selectBlock i k).coderNext = none := by
      obtain ⟨b, hb⟩ := Option.isSome_iff_exists.mp held
      unfold coderNext
      rw [show (s.selectBlock i k).cat.openReq = none by rw [cat]; exact hr, hb]
    rw [coderLoop_of_idle idle, restCoder_of_hand held]
    exact ⟨rfl, rfl, fun none => by cases none⟩
  | none =>
    rw [filling] at cat
    have req : (s.selectBlock i k).cat.openReq = some { key := k, arrived := false } := by rw [cat]; rfl
    by_cases b : s.partBusy k = true
    · rw [coderLoop_of_idle (coderNext_of_waits req (.inr (busy.trans b))), restCoder_of_hand held, b]
      exact ⟨rfl, rfl, fun _ => req⟩
    · have below : s.atPartLimit k = false := by
        rcases stays with some | below | yes
        · rw [filling] at some
          cases some
        · exact below
        · exact absurd yes b
      rw [coderLoop_arrives held req rfl (busy.trans (Bool.eq_false_of_not_eq_true b)) (limit.trans below), Bool.eq_false_of_not_eq_true b]
      exact ⟨rfl, rfl, fun _ => rfl⟩

/-- A selection whose open is refused. -/
theorem runCoder_lets (none : s.fillingOf k = none) (busy : s.partBusy k = false) (limit : s.atPartLimit k = true) :
    Refused s k s.runCoder.pump ∧ LetGo ((s.availableOf k).take 64) s.runCoder.pump := by
  obtain ⟨n, eq, -⟩ := runCoder_selects e hr hand free ready
  obtain ⟨coder, cat⟩ := selectBlock_coder i k s
  rw [none] at cat
  obtain ⟨same, at_⟩ := partBusy_congr (selectBlock_segments i k s) (selectBlock_dir i k s) k
  have formed : (s.selectBlock i k).inHand = some (i, k, (s.availableOf k).take 64) := by
    refine inHand_of_formed hand ?_
    rw [coder]
  rw [eq]
  obtain ⟨⟨flag, entry⟩, places⟩ := coderLoop_refuses (r := { key := k, arrived := false }) formed (by rw [cat]; rfl) rfl
    (same.trans busy) (at_.trans limit) (n + 2)
  refine ⟨⟨flag, fun ready clear => entry ?_ ?_⟩, places⟩
  · rw [(selectBlock_segments i k s).engine]
    exact ready
  · unfold limitOf dirEntry at clear ⊢
    rw [selectBlock_dir]
    exact clear

end select

end State

end Sys2Proof.Machine
end

section
/-! SUPPORT. What the coder's turns make of a buffer (R102, R105, R117). -/

namespace Sys2Proof.Machine

/-- A buffer without a store: FREE, or FORMING with a block. -/
def Buffer.Idle (b : Buffer) : Prop := b = .free ∨ ∃ k ps, b = .forming k ps

namespace State

variable {s t u : State} {k : StreamKey}

/-- A buffer stands, or goes from a block to none or from none to a block. -/
def BufferTurn (a b : Buffer) : Prop := b = a ∨ (a.Idle ∧ b.Idle)

theorem BufferTurn.trans {a b c : Buffer} (h : BufferTurn a b) (g : BufferTurn b c) : BufferTurn a c := by
  rcases g with rfl | ⟨ib, ic⟩
  · exact h
  · rcases h with rfl | ⟨ia, -⟩
    · exact .inr ⟨ib, ic⟩
    · exact .inr ⟨ia, ic⟩

theorem BufferTurn.idle {a b : Buffer} (h : BufferTurn a b) (i : a.Idle) : b.Idle := by
  rcases h with rfl | ⟨-, ib⟩
  · exact i
  · exact ib

theorem BufferTurn.stays {a b : Buffer} (h : BufferTurn a b) (i : ¬ a.Idle) : b = a := h.resolve_right fun c => i c.1

/-- A buffer that takes a new content, both idle. -/
theorem bufferTurn_bset {v : Vector Buffer 2} {i : Fin 2} {b : Buffer} (old : (bget v i).Idle) (new : b.Idle) (j : Fin 2) :
    BufferTurn (bget v j) (bget (bset v i b) j) := by
  by_cases same : j = i
  · subst same
    rw [bget_bset_self]
    exact .inr ⟨old, new⟩
  · rw [bget_bset_ne _ _ _ _ (Ne.symm same)]
    exact .inl rfl

theorem openRefused_buffer (j : StreamKey) (s : State) (i : Fin 2) :
    BufferTurn (bget s.coder.buffers i) (bget (s.openRefused j).coder.buffers i) := by
  cases hand : s.inHand with
  | none => exact .inl (by rw [openRefused_coder_of_none j hand])
  | some x =>
    obtain ⟨b, k, ps⟩ := x
    rw [(openRefused_of_hand j hand).2]
    exact bufferTurn_bset (.inr ⟨k, ps, inHand_buffer hand⟩) (.inl rfl) i

theorem coderNext_buffer (e : s.coderNext = some t) (i : Fin 2) : BufferTurn (bget s.coder.buffers i) (bget t.coder.buffers i) := by
  unfold coderNext at e
  repeat' split at e
  all_goals cases e
  · exact openRefused_buffer _ s i
  · exact .inl rfl
  · rename_i b k free _
    rw [(selectBlock_blocks b k s).2]
    exact bufferTurn_bset (.inl (freeBuffer_free free)) (.inr ⟨_, _, rfl⟩) i

theorem runCoder_buffer (s : State) (i : Fin 2) : BufferTurn (bget s.coder.buffers i) (bget s.runCoder.coder.buffers i) := by
  have loop (n : Nat) : ∀ s : State, BufferTurn (bget s.coder.buffers i) (bget (coderLoop n s).coder.buffers i) := by
    induction n with
    | zero => exact fun _ => .inl rfl
    | succ n ih =>
      intro s
      unfold coderLoop
      split
      · rename_i t e
        exact (coderNext_buffer e i).trans (ih t)
      · rw [restCoder_buffers]
        exact .inl rfl
  unfold runCoder
  split
  · exact .inl rfl
  · exact loop _ s

theorem settle_buffer (none : Claims.NoneResumes s) (i : Fin 2) :
    BufferTurn (bget s.coder.buffers i) (bget s.settle.coder.buffers i) := by
  rw [settle_eq none, pump_coder]
  exact runCoder_buffer s i

/-! ## A key at its limit is not selected (R104) -/

theorem keyReady_of_limited (h : s.limitOf k = some true) : s.keyReady k = false := by
  unfold limitOf dirEntry at h
  unfold keyReady
  rw [h]
  simp

theorem readyKey_ready (h : s.readyKey = some k) : s.keyReady k = true := by
  unfold readyKey at h
  obtain ⟨p, find, rfl⟩ := Option.map_eq_some_iff.mp h
  have is := List.find?_some find
  rw [Bool.and_eq_true] at is
  exact is.2

/-- No block of a key is in a buffer. -/
def Bare (i : Fin 2) (k : StreamKey) (s : State) : Prop := ∀ ps, bget s.coder.buffers i ≠ .forming k ps

theorem bare_coderNext {i : Fin 2} (bare : Bare i k s) (limited : s.limitOf k = some true) (e : s.coderNext = some t) : Bare i k t := by
  unfold coderNext at e
  repeat' split at e
  all_goals cases e
  · intro ps c
    cases hand : s.inHand with
    | none =>
      rw [openRefused_coder_of_none _ hand] at c
      exact bare ps c
    | some x =>
      obtain ⟨b, j, qs⟩ := x
      rw [(openRefused_of_hand _ hand).2] at c
      by_cases same : b = i
      · subst same
        rw [bget_bset_self] at c
        cases c
      · rw [bget_bset_ne _ _ _ _ same] at c
        exact bare ps c
  · exact bare
  · rename_i b j free ready
    intro ps c
    rw [(selectBlock_blocks b j s).2] at c
    by_cases same : b = i
    · subst same
      rw [bget_bset_self] at c
      cases c
      have := readyKey_ready ready
      rw [keyReady_of_limited limited] at this
      cases this
    · rw [bget_bset_ne _ _ _ _ same] at c
      exact bare ps c

theorem bare_coderLoop {i : Fin 2} (n : Nat) (bare : Bare i k s) (limited : s.limitOf k = some true) : Bare i k (coderLoop n s) := by
  induction n generalizing s with
  | zero => exact bare
  | succ n ih =>
    unfold coderLoop
    split
    · rename_i t e
      exact ih (bare_coderNext bare limited e) (limitOf_coderNext e limited)
    · unfold Bare
      rw [restCoder_buffers]
      exact bare

end State

end Sys2Proof.Machine
end

section

namespace Sys2Proof.Claims
open Sys2Proof.Machine Sys2Proof.Machine.State

/-- Settles O31: readiness by the pages' available places, and the coder's turns one by one. -/
theorem coderSelectsTheOldestReadyKey : Obligations.CoderSelectsTheOldestReadyKey := by
  unfold Obligations.CoderSelectsTheOldestReadyKey
  refine ⟨fun s k => ⟨mem_availableOf_iff, fun legal => availableOf_pairwise legal k, keyReady_iff⟩,
    fun s legal => ⟨readyKey_eq_none_iff, fun k h => readyKey_oldest legal h⟩, ?_⟩
  intro s ⟨powered, acts⟩ off none
  have rests : ({ s with fresh := s.fresh + 1 } : State).scrubStep = { s with fresh := s.fresh + 1 } := by
    unfold scrubStep scrubActive
    rw [show ({ s with fresh := s.fresh + 1 } : State).scrub.enable = false from off, Bool.and_false]
    rfl
  have eq : Machine.exec .scrubStep s = .next (s.commanded fun t => ({ t with fresh := t.fresh + 1 } : State).scrubStep.settle) := rfl
  have on : (s.commanded fun t => ({ t with fresh := t.fresh + 1 } : State).scrubStep.settle) =
      ({ s with fresh := s.fresh + 1 } : State).settle := by
    unfold commanded
    rw [if_pos (by simp [powered, acts])]
    dsimp only
    rw [rests]
  rw [eq, on]
  have seen : SegmentsStand s { s with fresh := s.fresh + 1 } := ⟨rfl, rfl, rfl, fun _ => rfl⟩
  have busy (k : StreamKey) := (partBusy_congr seen rfl k).1
  have limit (k : StreamKey) := (partBusy_congr seen rfl k).2
  generalize hu : ({ s with fresh := s.fresh + 1 } : State) = u at *
  have uacts : u.engine ≠ .recovering := by rw [← hu]; exact acts
  have stalled : NoneResumes u := .inl (by rw [← hu]; exact none)
  have settled : u.settle = u.runCoder.pump := settle_eq stalled
  have pool : u.settle.pool = u.runCoder.pool := by rw [settled, pump_pool]
  have coder : u.settle.coder = u.runCoder.coder := by rw [settled, pump_coder]
  have cat : u.settle.cat = u.runCoder.cat := by rw [settled]; exact pump_does (same_cat.mono rfl) rfl
  refine ⟨u.settle, rfl, ?_, ?_, ?_, ?_, ?_, ?_, ?_, ?_, ?_⟩
  · exact settle_does (same_ret.mono rfl) (by rw [← hu]; rfl)
  · exact settle_does (same_recon.mono rfl) (by rw [← hu]; rfl)
  · exact settle_does (same_eds.mono rfl) (by rw [← hu]; rfl)
  · rw [(settle_quiet stalled).feed, ← hu]
  · rw [settle_exec, ← hu]
  · exact settle_does (same_scrub.mono rfl) (by rw [← hu]; rfl)
  · rw [(settle_turn u).table, ← hu]
  · exact settle_does (keeps_kept.mono rfl) (by rw [← hu]; exact ⟨rfl, rfl, rfl, rfl, rfl, rfl, rfl⟩)
  · have hand_eq : u.inHand = s.inHand := by rw [← hu]; rfl
    have free_eq : u.freeBuffer = s.freeBuffer := by rw [← hu]; rfl
    have ready_eq : u.readyKey = s.readyKey := by rw [← hu]; rfl
    have req_eq : u.cat.openReq = s.cat.openReq := by rw [← hu]
    have coder_eq : u.coder = s.coder := by rw [← hu]
    have pool_eq : u.pool = s.pool := by rw [← hu]
    have places_eq (k : StreamKey) : u.availableOf k = s.availableOf k := by rw [← hu]; rfl
    have filling_eq (k : StreamKey) : u.fillingOf k = s.fillingOf k := by rw [← hu]; rfl
    have refused_eq (k : StreamKey) (t : State) : Refused u k t ↔ Refused s k t := by rw [← hu]; rfl
    rw [← hand_eq, ← free_eq, ← ready_eq, ← req_eq, ← coder_eq, ← pool_eq]
    refine ⟨fun hand hr => ⟨fun full => ?_, fun free idle => ?_, fun i k free ready => ?_⟩, fun r i k places hr hand => ?_⟩
    · rw [coder, pool, runCoder_rests uacts hr hand (.inl full), full]
      exact ⟨rfl, rfl⟩
    · rw [coder, pool, runCoder_rests uacts hr hand (.inr idle), free]
      exact ⟨rfl, rfl⟩
    · simp only [← places_eq, ← filling_eq, ← busy, ← limit]
      refine ⟨fun stays => ?_, fun none stays => ?_, fun none stays => ?_⟩
      · obtain ⟨c, p, -⟩ := runCoder_takes uacts hr hand free ready stays
        have set : u.settle.pool.pages = u.pool.pages.map (stood .inFlight ((u.availableOf k).take 64)) := by
          rw [pool, p, (selectBlock_blocks i k u).1, setPlaces_pool]
        refine ⟨by rw [coder, c, (selectBlock_coder i k u).1], fun q hq j x mem hx => ?_, fun q hq => ?_⟩
        · rw [set] at hq
          obtain ⟨p, -, rfl⟩ := List.mem_map.mp hq
          obtain ⟨y, -, rfl⟩ := Option.map_eq_some_iff.mp (stood_place .inFlight _ p j ▸ hx)
          rw [if_pos (show (p.serial, j) ∈ _ from mem)]
        · rw [set] at hq
          obtain ⟨p, hp, rfl⟩ := List.mem_map.mp hq
          refine ⟨p, hp, rfl, rfl, rfl, rfl, stood_data _ _ p, fun j out => ?_⟩
          rw [stood_place]
          cases p.places[j]? with
          | none => rfl
          | some x => rw [Option.map_some, if_neg (show (p.serial, j) ∉ _ from out)]
      · rw [cat]
        exact (runCoder_takes uacts hr hand free ready (.inr stays)).2.2 none
      · rw [not_or, Bool.not_eq_false, Bool.not_eq_true] at stays
        rw [settled]
        obtain ⟨refused, places⟩ := runCoder_lets uacts hr hand free ready none stays.2 stays.1
        exact ⟨(refused_eq k _).mp refused, places⟩
    · have held : u.inHand.isSome = true := by rw [hand]; rfl
      rw [← busy, ← limit]
      refine ⟨fun waits => ?_, fun new free below => ?_, fun new free at_ => ?_⟩
      · rw [coder, pool, cat, runCoder_waits uacts held hr waits]
        exact ⟨hr, rfl, rfl⟩
      · obtain ⟨n, eq⟩ := runCoder_eq uacts
        rw [coder, pool, cat, eq, coderLoop_arrives held hr new free below]
        exact ⟨rfl, rfl, rfl⟩
      · obtain ⟨n, eq⟩ := runCoder_eq uacts
        rw [settled, eq]
        obtain ⟨refused, letGo⟩ := coderLoop_refuses hand hr new free at_ (n + 3)
        exact ⟨(refused_eq r.key _).mp refused, letGo⟩

end Sys2Proof.Claims
end

section
/-! SUPPORT. What a close makes of a FILLING segment (R31), for O9, O30, O32, O48 and O59. -/

namespace Sys2Proof.Machine.State

variable {s t u : State} {n m : Nat} {g : Segment} {e : Extent} {k : StreamKey}

/-! ## Entries that stay submitted -/

/-- What has been submitted stays so. -/
def Remembers (s t : State) : Prop := ∀ b, Claims.Submitted b s → Claims.Submitted b t

theorem Remembers.refl (s : State) : Remembers s s := fun _ => id
theorem Remembers.trans (h : Remembers s t) (g : Remembers t u) : Remembers s u := fun b hb => g b (h b hb)
theorem Remembers.of_quiet (h : Quiet s t) : Remembers s t := fun _ => h.submitted
theorem Remembers.of_jnl (h : t.jnl = s.jnl) : Remembers s t := fun b hb => by
  unfold Claims.Submitted at hb ⊢
  rwa [h]

theorem judgeWatch_jnl (s : State) : s.judgeWatch.jnl = s.jnl := judgeWatch_does (same_jnl.mono rfl) rfl
theorem setContent_jnl (n : Nat) (c : Content) (s : State) : (s.setContent n c).jnl = s.jnl := setContent_does (same_jnl.mono rfl) n c rfl
theorem onDir_jnl (k : StreamKey) (f : DirEntry → DirEntry) (s : State) :
    (s.onDir k f).jnl = s.jnl := by
  unfold onDir
  split <;> rfl
theorem dropFromDir_jnl (k : StreamKey) (s : State) : (s.dropFromDir k).jnl = s.jnl := dropFromDir_does (same_jnl.mono rfl) k rfl

/-! ## The close -/

/-- The directory's entry of a key without its FILLING segment. -/
def unfilled (d : DirEntry) : DirEntry := { d with filling := none }

/-- A FILLING segment that has been given a store is CLOSED. -/
theorem closeSegment_of_given (h : s.live? n = some (.filling, g)) (given : g.reserve ≠ 0) (cause : CloseCause) :
    s.closeSegment cause n = ((s.onDir g.key unfilled).setContent n (.live .closed g)).log .segmentClosed (.segment n)
      cause.code g.part 2 := by
  unfold closeSegment
  rw [h]
  exact if_neg given

/-- The extent of one that has not is FREE. -/
theorem closeSegment_of_ungiven (h : s.live? n = some (.filling, g)) (none : g.reserve = 0) (cause : CloseCause) :
    s.closeSegment cause n = (((((s.onDir g.key unfilled).setContent n .free).judgeWatch).unbindEdition g.edition).dropFromDir
      g.key).log .segmentClosed (.segment n) cause.code g.part 1 := by
  unfold closeSegment
  rw [h]
  exact if_pos none

theorem closeSegment_of_not (h : ∀ g, s.live? n ≠ some (.filling, g)) (cause : CloseCause) : s.closeSegment cause n = s := by
  unfold closeSegment
  split
  · rename_i g hg
    exact absurd hg (h g)
  · rfl

/-- What a close makes of the content of an extent. -/
def closedContent (g : Segment) : Content := if g.reserve = 0 then .free else .live .closed g

/-- The outcome that SEGMENT-CLOSED gives: FREE or CLOSED. -/
def closeOutcome (g : Segment) : Nat := if g.reserve = 0 then 1 else 2

theorem extent?_onDir (k : StreamKey) (f : DirEntry → DirEntry) (s : State) (m : Nat) : (s.onDir k f).extent? m = s.extent? m := by
  unfold onDir
  split <;> rfl

theorem table_onDir (k : StreamKey) (f : DirEntry → DirEntry) (s : State) : (s.onDir k f).cat.table = s.cat.table := by
  unfold onDir
  split <;> rfl

theorem dropFromDir_segments (k : StreamKey) (s : State) : SegmentsStand s (s.dropFromDir k) :=
  dropFromDir_does (keeps_segments.mono rfl) k (.refl s)

theorem closeSegment_engine (cause : CloseCause) (n : Nat) (s : State) : (s.closeSegment cause n).engine = s.engine :=
  closeSegment_does (same_engine.mono rfl) cause n rfl

/-- The extent of a closed segment. -/
theorem extent?_closeSegment (he : s.extent? n = some e) (c : e.content = .live .filling g)
    (ok : g.reserve ≠ 0 ∨ rising s.cat.table = true) (cause : CloseCause) :
    (s.closeSegment cause n).extent? n = some { e with content := closedContent g } := by
  have live := live?_of_extent he c
  have there : (s.onDir g.key unfilled).extent? n = some e := (extent?_onDir ..).trans he
  unfold closedContent
  by_cases given : g.reserve = 0
  · rw [closeSegment_of_ungiven live given, (log_segments ..).extent?, (dropFromDir_segments ..).extent?,
      (unbindEdition_segments ..).extent?, (judgeWatch_segments _).extent?, if_pos given]
    refine extent?_setContent_of_rising ?_ there _
    rw [table_onDir]
    exact ok.resolve_left fun c => c given
  · rw [closeSegment_of_given live given, (log_segments ..).extent?, if_neg given]
    exact extent?_setContent_live there _ _

theorem extent?_closeSegment_ne (h : m ≠ n) (cause : CloseCause) : (s.closeSegment cause n).extent? m = s.extent? m := by
  unfold closeSegment
  split
  · rename_i g hg
    dsimp only
    split
    · rw [(log_segments ..).extent?, (dropFromDir_segments ..).extent?, (unbindEdition_segments ..).extent?,
        (judgeWatch_segments _).extent?, extent?_setContent_ne h, extent?_onDir]
    · rw [(log_segments ..).extent?, extent?_setContent_ne h, extent?_onDir]
  · rfl

theorem live?_closeSegment_ne (h : m ≠ n) (cause : CloseCause) : (s.closeSegment cause n).live? m = s.live? m := by
  simp [live?, extent?_closeSegment_ne h]

theorem live?_closeSegment (h : s.live? n = some (.filling, g)) (given : g.reserve ≠ 0) (cause : CloseCause) :
    (s.closeSegment cause n).live? n = some (.closed, g) := by
  obtain ⟨e, he, c⟩ := live?_eq_some_iff.mp h
  refine live?_of_extent (extent?_closeSegment he c (.inl given) cause) ?_
  exact if_neg given

theorem rising_closeSegment (hr : rising s.cat.table = true) (cause : CloseCause) (n : Nat) :
    rising (s.closeSegment cause n).cat.table = true := by
  unfold closeSegment
  split
  · rename_i g hg
    have dir : rising (s.onDir g.key unfilled).cat.table = true := by rwa [table_onDir]
    dsimp only
    split
    · rw [(log_segments ..).table, (dropFromDir_segments ..).table, (unbindEdition_segments ..).table, (judgeWatch_segments _).table]
      exact rising_onExtent dir _ _
    · rw [(log_segments ..).table]
      exact rising_onExtent dir _ _
  · exact hr

/-- A READY engine submits SEGMENT-CLOSED. -/
theorem closeSegment_submits (h : s.live? n = some (.filling, g)) (ready : s.engine = .ready) (cause : CloseCause) :
    Claims.Submitted (EntryBody.mk0 .segmentClosed (.segment n) cause.code g.part (closeOutcome g)) (s.closeSegment cause n) := by
  unfold closeOutcome
  by_cases given : g.reserve = 0
  · rw [closeSegment_of_ungiven h given, if_pos given]
    refine log_submitted (Eq.trans ?_ ready) _ _ _ _ _
    exact dropFromDir_does (same_engine.mono rfl) _ (unbindEdition_does (same_engine.mono rfl) _ (judgeWatch_does (same_engine.mono rfl)
      (setContent_does (same_engine.mono rfl) _ _ (onDir_does (same_engine.mono rfl) _ _ rfl))))
  · rw [closeSegment_of_given h given, if_neg given]
    refine log_submitted (Eq.trans ?_ ready) _ _ _ _ _
    exact setContent_does (same_engine.mono rfl) _ _ (onDir_does (same_engine.mono rfl) _ _ rfl)

theorem closeSegment_remembers (cause : CloseCause) (n : Nat) (s : State) : Remembers s (s.closeSegment cause n) := by
  unfold closeSegment
  split
  · rename_i g hg
    dsimp only
    split
    · refine .trans ?_ (.of_quiet (log_quiet ..))
      refine .trans ?_ (.of_jnl (dropFromDir_jnl ..))
      refine .trans ?_ (.of_quiet (unbindEdition_quiet ..))
      exact .of_jnl ((judgeWatch_jnl _).trans ((setContent_jnl ..).trans (onDir_jnl ..)))
    · exact .trans (.of_jnl ((setContent_jnl ..).trans (onDir_jnl ..))) (.of_quiet (log_quiet ..))
  · exact .refl s

/-! ## Closes in turn (R32, R33, R42) -/

/-- What a close makes of an extent's record. -/
def closedExtent (e : Extent) : Extent :=
  match e.content with
  | .live .filling g => { e with content := closedContent g }
  | _ => e

theorem closedExtent_filling (c : e.content = .live .filling g) : closedExtent e = { e with content := closedContent g } := by
  unfold closedExtent
  rw [c]

theorem closedExtent_other (c : ∀ g, e.content ≠ .live .filling g) : closedExtent e = e := by
  unfold closedExtent
  split
  · rename_i g hg
    exact absurd hg (c g)
  · rfl

theorem closedContent_not_filling (g h : Segment) : closedContent g ≠ .live .filling h := by
  unfold closedContent
  split <;> exact fun c => by cases c

theorem closedExtent_twice (e : Extent) : closedExtent (closedExtent e) = closedExtent e := by
  by_cases c : ∃ g, e.content = .live .filling g
  · obtain ⟨g, c⟩ := c
    rw [closedExtent_filling c]
    exact closedExtent_other fun h => closedContent_not_filling g h
  · rw [closedExtent_other (fun g hg => c ⟨g, hg⟩)]
    exact closedExtent_other fun g hg => c ⟨g, hg⟩

theorem extent?_closeSegment_self (hr : rising s.cat.table = true) (cause : CloseCause) (n : Nat) :
    (s.closeSegment cause n).extent? n = (s.extent? n).map closedExtent := by
  cases he : s.extent? n with
  | none =>
    rw [closeSegment_of_not (fun g hg => ?_), he]
    · rfl
    · obtain ⟨e, there, -⟩ := live?_eq_some_iff.mp hg
      rw [he] at there
      cases there
  | some e =>
    by_cases c : ∃ g, e.content = .live .filling g
    · obtain ⟨g, c⟩ := c
      rw [extent?_closeSegment he c (.inr hr), Option.map_some, closedExtent_filling c]
    · rw [closeSegment_of_not (fun g hg => ?_), he, Option.map_some, closedExtent_other fun g hg => c ⟨g, hg⟩]
      obtain ⟨x, there, hx⟩ := live?_eq_some_iff.mp hg
      obtain rfl : e = x := Option.some.inj (he.symm.trans there)
      exact c ⟨g, hx⟩

theorem rising_closeAll (hr : rising s.cat.table = true) (cause : CloseCause) (ns : List Nat) :
    rising (closeAll cause ns s).cat.table = true := by
  induction ns generalizing s with
  | nil => exact hr
  | cons n ns ih => exact ih (rising_closeSegment hr cause n)

theorem extent?_closeAll (hr : rising s.cat.table = true) (cause : CloseCause) (ns : List Nat) (m : Nat) :
    (closeAll cause ns s).extent? m = if m ∈ ns then (s.extent? m).map closedExtent else s.extent? m := by
  induction ns generalizing s with
  | nil => rfl
  | cons n ns ih =>
    rw [closeAll, ih (rising_closeSegment hr cause n)]
    by_cases same : m = n
    · subst same
      rw [extent?_closeSegment_self hr, if_pos List.mem_cons_self, Option.map_map]
      have twice : closedExtent ∘ closedExtent = closedExtent := funext closedExtent_twice
      rw [twice, ite_self]
    · rw [extent?_closeSegment_ne same]
      simp only [List.mem_cons, same, false_or]

theorem closeAll_engine (cause : CloseCause) (ns : List Nat) (s : State) : (closeAll cause ns s).engine = s.engine :=
  closeAll_does (same_engine.mono rfl) cause ns rfl

theorem closeAll_remembers (cause : CloseCause) (ns : List Nat) (s : State) : Remembers s (closeAll cause ns s) := by
  induction ns generalizing s with
  | nil => exact .refl s
  | cons n ns ih => exact (closeSegment_remembers cause n s).trans (ih _)

/-- A READY engine submits SEGMENT-CLOSED for each. -/
theorem closeAll_submits {ns : List Nat} (hn : n ∈ ns) (h : s.live? n = some (.filling, g)) (ready : s.engine = .ready)
    (cause : CloseCause) : Claims.Submitted (EntryBody.mk0 .segmentClosed (.segment n) cause.code g.part (closeOutcome g))
      (closeAll cause ns s) := by
  induction ns generalizing s with
  | nil => cases hn
  | cons m ns ih =>
    by_cases same : n = m
    · subst same
      exact closeAll_remembers cause ns _ _ (closeSegment_submits h ready cause)
    · exact ih ((List.mem_cons.mp hn).resolve_left same) ((live?_closeSegment_ne same cause).trans h)
        ((closeSegment_engine cause m s).trans ready)

end Sys2Proof.Machine.State
end

section
/-! SUPPORT. A state whose directory lists one key twice, which no run reaches, for O34. -/

namespace Sys2Proof.Claims
open Sys2Proof.Machine Sys2Proof.Machine.State

/-- A FILLING segment that has been given no place, with a store in flight. -/
def unplaced : Segment :=
  { key := { switch := 5, day := 90, group := 1 }, part := 1, edition := none, records := 0, blocks := 0, bytes := 0, firstSeq := none,
    lastSeq := none, digest := 0, link := 0, expiry := 100, mark := .unverified, verified := none, fails := 0, pins := 0, reserve := 0,
    inFlight := 1 }

/-- An entry that names segment 7 as the FILLING one. -/
def entryOfSeven : DirEntry := { highest := 1, digest := 0, filling := some 7, count := 1, limited := false }

/-- A READY engine with the store in progress on lane 0, whose directory lists the segment's key twice. -/
def listedTwice : State :=
  { State.reset with
    powered := true, engine := .ready
    cat := { State.reset.cat with
      usable := 1, table := [(7, { content := .live .filling unplaced, erases := 0, fault := false })]
      dir := [(unplaced.key.code, entryOfSeven), (unplaced.key.code, entryOfSeven)] }
    lanes := { State.reset.lanes with
      lane := bset State.reset.lanes.lane 0 { Lane.start true with inProgress := some (.store 7 0 0 []) } }
    coder := { State.reset.coder with buffers := bset State.reset.coder.buffers 0 (.inFlight 7 0 [] 0 0 []) } }

/-- What the failed store leaves: the extent is FREE, and the second entry still names it. -/
theorem listedTwice_fails : ∃ t, Machine.exec (.storeCompletion 0 false) listedTwice = .next t ∧
    t.fillingOf unplaced.key = some 7 := ⟨_, rfl, by decide +kernel⟩

/-- Refutes O34: nothing asks that the directory list each key once. A store of a FILLING segment with reserve mark 0 fails where it
lists the key twice, both entries naming the segment: the close takes away the first entry alone, and the key still has a FILLING
segment. The key has none where the directory's keys rise. -/
theorem not_storeCompletionAppends : ¬ Obligations.StoreCompletionAppends := by
  unfold Obligations.StoreCompletionAppends
  rintro ⟨holds, -⟩
  obtain ⟨t, next, -, -, -, -, -, -, -, -, failed, -⟩ := holds 0 false 7 0 0 [] 0 0 [] .filling unplaced listedTwice
    ⟨by decide +kernel, by decide +kernel⟩ (by decide +kernel) (by decide +kernel) (by decide +kernel) (by decide +kernel)
  obtain ⟨-, -, -, closed, -⟩ := failed rfl
  obtain ⟨u, other, still⟩ := listedTwice_fails
  have same : t = u := Host.Outcome.next.inj (next.symm.trans other)
  rw [same, still] at closed
  cases (closed rfl).1

end Sys2Proof.Claims
end

section
/-! SUPPORT. The completion of a coding (R28, R30, R105, R114, R134), for O30. -/

namespace Sys2Proof.Machine.State

variable {s t u : State} {i : Fin 2} {k : StreamKey} {places : List PlaceId} {n : Nat} {g : Segment} {e : Extent}

theorem encodeBlock_pos (ed : Edition) (ref : Option EditionRef) (rs : List Rec) : 0 < (encodeBlock ed ref rs).length := by
  simp [encodeBlock, blockHeader]

/-! ## The directory after a close -/

theorem dirEntry_onDir (j : StreamKey) (f : DirEntry → DirEntry) (s : State) (k : StreamKey) :
    (s.onDir j f).dirEntry k = if k.code = j.code then (s.dirEntry k).map f else s.dirEntry k := by
  unfold onDir
  split
  · rename_i d hd
    show tfind k.code (tput j.code (f d) s.cat.dir) = _
    split
    · rename_i same
      have here : s.dirEntry k = some d := by rw [← hd]; exact congrArg (tfind · s.cat.dir) same
      rw [here, same, tfind_tput_self]
      rfl
    · rename_i ne
      exact tfind_tput_ne ne _ _
  · rename_i none
    split
    · rename_i same
      have here : s.dirEntry k = .none := by rw [← none]; exact congrArg (tfind · s.cat.dir) same
      rw [here]
      rfl
    · rfl

/-- A close of a segment that has been given a store takes its number from the key's entry, and leaves the rest of the directory. -/
theorem dirEntry_closeSegment (h : s.live? n = some (.filling, g)) (given : g.reserve ≠ 0) (cause : CloseCause) (k : StreamKey) :
    (s.closeSegment cause n).dirEntry k = if k.code = g.key.code then (s.dirEntry k).map unfilled else s.dirEntry k := by
  rw [closeSegment_of_given h given, dirEntry_log, setContent, dirEntry_onExtent, dirEntry_onDir]

theorem fillingOf_closeSegment (h : s.live? n = some (.filling, g)) (given : g.reserve ≠ 0) (cause : CloseCause) :
    (s.closeSegment cause n).fillingOf g.key = none := by
  unfold fillingOf
  rw [dirEntry_closeSegment h given, if_pos rfl]
  cases s.dirEntry g.key <;> rfl

theorem limits_closeSegment (h : s.live? n = some (.filling, g)) (given : g.reserve ≠ 0) (cause : CloseCause) (k : StreamKey) :
    (s.closeSegment cause n).atPartLimit k = s.atPartLimit k ∧ (s.closeSegment cause n).limitOf k = s.limitOf k := by
  unfold atPartLimit limitOf
  rw [dirEntry_closeSegment h given]
  by_cases same : k.code = g.key.code
  · rw [if_pos same]
    cases s.dirEntry k <;> exact ⟨rfl, rfl⟩
  · rw [if_neg same]
    exact ⟨rfl, rfl⟩

/-! ## The coder's turn leaves what an open depends on -/

theorem partBusy_turn (h : SegmentsStand s t) (c : CoderTurn s t) (k : StreamKey) : t.partBusy k = s.partBusy k := by
  unfold partBusy
  rcases c.dir k with same | ⟨d, old, new⟩
  · rw [same]
    simp [h.partOf]
  · rw [old, new]
    simp [h.partOf]

theorem settle_partBusy (s : State) (k : StreamKey) : s.settle.partBusy k = s.partBusy k :=
  partBusy_turn (settle_segments s) (settle_turn s) k

/-! ## An open asked for, and what follows of itself (R26, R117) -/

section asked

variable (acts : s.engine ≠ .recovering) (stalled : s.feed.stalled = []) (hand : s.inHand = some (i, k, places))
  (req : s.cat.openReq = some { key := k, arrived := false })
include acts stalled hand req

/-- The open waits with the block in hand, arrived unless the key's highest part has stores in flight. -/
theorem asked_waits (stays : s.atPartLimit k = false ∨ s.settle.partBusy k = true) :
    s.settle.coder = s.coder ∧ s.settle.cat.openReq = some { key := k, arrived := !s.settle.partBusy k } := by
  have held : s.inHand.isSome = true := by rw [hand]; rfl
  have settled : s.settle = s.runCoder.pump := settle_eq (.inl stalled)
  have cat : s.settle.cat = s.runCoder.cat := by rw [settled]; exact pump_does (same_cat.mono rfl) rfl
  have coder : s.settle.coder = s.runCoder.coder := by rw [settled, pump_coder]
  rw [settle_partBusy] at stays ⊢
  rw [cat, coder]
  by_cases busy : s.partBusy k = true
  · rw [runCoder_waits acts held req (.inr busy), busy]
    exact ⟨rfl, req⟩
  · have free : s.partBusy k = false := Bool.eq_false_of_not_eq_true busy
    obtain ⟨m, eq⟩ := runCoder_eq acts
    rw [eq, coderLoop_arrives held req rfl free (stays.resolve_right busy), free]
    exact ⟨rfl, rfl⟩

/-- An open that arrives at the part limit is refused, and the block is in hand no more. -/
theorem asked_refused (limit : s.atPartLimit k = true) (free : s.settle.partBusy k = false) :
    Refused s k s.settle ∧ Bare i k s.settle ∧ LetGo places s.settle := by
  have settled : s.settle = s.runCoder.pump := settle_eq (.inl stalled)
  rw [settle_partBusy] at free
  obtain ⟨m, eq⟩ := runCoder_eq acts
  obtain ⟨refused, letGo⟩ := coderLoop_refuses hand req rfl free limit (m + 3)
  rw [settled, eq]
  refine ⟨refused, ?_, letGo⟩
  have next := coderNext_of_arrival req rfl free
  rw [if_pos limit] at next
  have bare : Bare i k (s.openRefused k) := by
    intro ps c
    rw [(openRefused_of_hand k hand).2, bget_bset_self] at c
    cases c
  have last := bare_coderLoop (m + 3) bare (by rw [limitOf_openRefused]; exact (refuseOpen_refuses limit).1)
  rw [coderLoop_of_next next]
  unfold Bare
  rw [pump_coder]
  exact last

end asked

/-- An open asked for on an engine whose coder and key stand as in `s`. -/
theorem askOpen_settles {x : State} (hand : s.inHand = some (i, k, places)) (stalled : s.feed.stalled = [])
    (acts : s.engine ≠ .recovering) (coder : x.coder = s.coder) (feed : x.feed = s.feed) (engine : x.engine = s.engine)
    (limit : x.atPartLimit k = s.atPartLimit k) (flag : x.limitOf k = s.limitOf k) :
    (s.atPartLimit k = false ∨ (x.askOpen k).settle.partBusy k = true →
      (x.askOpen k).settle.coder.state = .waitingExtent ∧ (x.askOpen k).settle.coder.target = none ∧
      bget (x.askOpen k).settle.coder.buffers i = .forming k places ∧
      (x.askOpen k).settle.cat.openReq = some { key := k, arrived := !(x.askOpen k).settle.partBusy k }) ∧
    (s.atPartLimit k = true → (x.askOpen k).settle.partBusy k = false →
      Refused s k (x.askOpen k).settle ∧ Bare i k (x.askOpen k).settle ∧ LetGo places (x.askOpen k).settle) := by
  have buffers : (x.askOpen k).coder.buffers = s.coder.buffers := by rw [← coder]; rfl
  have inside : (x.askOpen k).inHand = some (i, k, places) := (inHand_congr buffers).trans hand
  have acting : (x.askOpen k).engine ≠ .recovering := by
    show x.engine ≠ _
    rw [engine]
    exact acts
  have quiet : (x.askOpen k).feed.stalled = [] := by
    show x.feed.stalled = _
    rw [feed]
    exact stalled
  refine ⟨fun stays => ?_, fun at_ free => ?_⟩
  · obtain ⟨same, asked⟩ := asked_waits acting quiet inside rfl (stays.imp_left fun c => limit.trans c)
    rw [same]
    exact ⟨rfl, rfl, (congrArg (bget · i) buffers).trans (inHand_buffer hand), asked⟩
  · obtain ⟨⟨set, entry⟩, rest⟩ := asked_refused acting quiet inside rfl (limit.trans at_) free
    exact ⟨⟨set, fun ready clear => entry (engine.trans ready) (flag.trans clear)⟩, rest⟩

/-! ## A store that fails (R30) -/

/-- What a store that fails leaves of its FILLING segment, and what it has submitted. -/
structure StoreFails (n offset recs : Nat) (g : Segment) (s t : State) : Prop where
  here : t.live? n = some (.closed, { g with reserve := g.bytes })
  fault : (t.extent? n).map Extent.fault = some true
  failed : s.engine = .ready → Claims.Submitted (EntryBody.mk0 .storeFailed (.segment n) g.part offset recs) t
  closed : s.engine = .ready → Claims.Submitted (EntryBody.mk0 .segmentClosed (.segment n) CloseCause.storeError.code g.part 2) t

theorem storeError_fails (h : s.live? n = some (.filling, g)) (given : g.reserve ≠ 0) (offset recs : Nat) :
    StoreFails n offset recs g s (s.storeError n offset recs) := by
  obtain ⟨e, he, c⟩ := live?_eq_some_iff.mp h
  set m := (s.markFault n).log .storeFailed (.segment n) g.part offset recs with hm
  have marked : m.extent? n = some { e with fault := true } := by
    rw [hm, (log_segments ..).extent?]
    exact extent?_markFault he c
  have live : m.live? n = some (.filling, g) := live?_of_extent marked c
  have eq : s.storeError n offset recs = (m.closeSegment .storeError n).onSegment n fun g => { g with reserve := g.bytes } := by
    unfold storeError
    rw [h]
    dsimp only
    rw [← hm, live]
  have engine : (s.markFault n).engine = s.engine := markFault_does (same_engine.mono rfl) n rfl
  have closed := extent?_closeSegment marked c (.inl given) .storeError
  have content : closedContent g = .live .closed g := if_neg given
  rw [content] at closed
  have last := extent?_onSegment closed rfl fun g => { g with reserve := g.bytes }
  have jnl : (s.storeError n offset recs).jnl = (m.closeSegment .storeError n).jnl := by
    rw [eq]
    exact onSegment_does (same_jnl.mono rfl) n _ rfl
  refine ⟨?_, ?_, fun ready => ?_, fun ready => ?_⟩
  · rw [eq]
    exact live?_of_extent last rfl
  · rw [eq, last]
    rfl
  · have there := log_submitted (engine.trans ready) .storeFailed (.segment n) g.part offset recs
    exact Remembers.of_jnl jnl _ (closeSegment_remembers .storeError n m _ there)
  · have here := closeSegment_submits live ((log_does (same_engine.mono rfl) _ _ _ _ _ engine).trans ready) .storeError
    rw [closeOutcome, if_neg given] at here
    exact Remembers.of_jnl jnl _ here

theorem StoreFails.later {offset recs : Nat} (h : StoreFails n offset recs g s t) (seg : SegmentsStand t u) (mem : Remembers t u) :
    StoreFails n offset recs g s u where
  here := (seg.live? n).trans h.here
  fault := by rw [seg.extent?]; exact h.fault
  failed ready := mem _ (h.failed ready)
  closed ready := mem _ (h.closed ready)

/-! ## The placement (R28, R105, R114, R134) -/

/-- The engine with a coded block placed, before its store has gone to the lane. -/
def placed (i : Fin 2) (n : Nat) (b : Buffer) (len : Nat) (s : State) : State :=
  ((s.reservePlace n len).setBuffer i b).onCoder fun c => { c with target := none }

/-- What a placement leaves alone, and what it makes of the segment and the coder. -/
structure Placed (i : Fin 2) (n len : Nat) (b : Buffer) (g : Segment) (s t : State) : Prop where
  here : t.live? n = some (.filling, { g with reserve := g.reserve + len, inFlight := g.inFlight + 1 })
  coder : t.coder = { s.coder with buffers := bset s.coder.buffers i b, target := none }
  cat : t.cat = { s.cat with table := t.cat.table }
  pool : t.pool = s.pool
  feed : t.feed = s.feed
  lanes : t.lanes = s.lanes
  engine : t.engine = s.engine

theorem placed_placed (h : s.live? n = some (.filling, g)) (i : Fin 2) (b : Buffer) (len : Nat) :
    Placed i n len b g s (s.placed i n b len) := by
  have cat := onSegment_cat n (fun g => { g with reserve := g.reserve + len, inFlight := g.inFlight + 1 }) s
  exact
    { here := live?_onSegment h _
      coder := by
        have coder : (s.reservePlace n len).coder = s.coder := onSegment_does (same_coder.mono rfl) n _ rfl
        rw [← coder]
        rfl
      cat := cat
      pool := onSegment_does (same_pool.mono rfl) n _ rfl
      feed := onSegment_does (same_feed.mono rfl) n _ rfl
      lanes := onSegment_does (same_lanes.mono rfl) n _ rfl
      engine := onSegment_does (same_engine.mono rfl) n _ rfl }

/-- A placement on an ONLINE lane: the store joins the lane's foreground queue; on an OFFLINE one it fails at once. -/
theorem placeBlock_eq (h : s.live? n = some (.filling, g)) (i : Fin 2) (offset : Nat) (places : List PlaceId) (recs : List Rec)
    (bytes : List Byte) : ∃ first last, s.placeBlock i n offset places recs bytes =
      let t := s.placed i n (.inFlight n offset places first last bytes) bytes.length
      if s.isOnline (laneOf n) then t.enqueueFore (laneOf n) (.store n offset i bytes) else t.storeDone i false := by
  refine ⟨(recs.head?.map Rec.seq).getD 0, (recs.getLast?.map Rec.seq).getD 0, ?_⟩
  have lanes := (placed_placed h i (.inFlight n offset places ((recs.head?.map Rec.seq).getD 0) ((recs.getLast?.map Rec.seq).getD 0) bytes)
    bytes.length).lanes
  have online : s.isOnline (laneOf n) = (s.placed i n (.inFlight n offset places ((recs.head?.map Rec.seq).getD 0)
      ((recs.getLast?.map Rec.seq).getD 0) bytes) bytes.length).isOnline (laneOf n) := by
    unfold isOnline
    rw [lanes]
  rw [online]
  rfl

/-- Pages that have become FREE leave the others as they are. -/
theorem freePages_pages (s : State) : ∀ p ∈ s.freePages.pool.pages, p ∈ s.pool.pages := fun _ hp => List.mem_of_mem_filter hp

/-- A failed store of a block just placed (R30, R134). -/
theorem storeDone_fails {offset : Nat} {first last : SeqNo} {bytes : List Byte} (h : s.live? n = some (.filling, g))
    (given : g.reserve ≠ 0) (buffer : bget s.coder.buffers i = .inFlight n offset places first last bytes) :
    StoreFails n offset places.length { g with inFlight := g.inFlight - 1 } s (s.storeDone i false) ∧
    bget (s.storeDone i false).coder.buffers i = .free ∧ LetGo places (s.storeDone i false) := by
  have ends : (s.storeEnds n).live? n = some (.filling, { g with inFlight := g.inFlight - 1 }) := live?_onSegment h _
  have fails := storeError_fails ends given offset places.length
  set x := (s.storeEnds n).storeError n offset places.length with hx
  have eq : s.storeDone i false = ((x.setPlaces .held places).setBuffer i .free).freePages := by
    unfold storeDone
    rw [buffer]
    dsimp only
    rfl
  have seg : SegmentsStand x (((x.setPlaces .held places).setBuffer i .free).freePages) :=
    freePages_does (keeps_segments.mono rfl) (setBuffer_does (keeps_segments.mono rfl) _ _
      (setPlaces_does (keeps_segments.mono rfl) _ _ (.refl x)))
  have jnl : (((x.setPlaces .held places).setBuffer i .free).freePages).jnl = x.jnl :=
    freePages_does (same_jnl.mono rfl) (setBuffer_does (same_jnl.mono rfl) _ _ (setPlaces_does (same_jnl.mono rfl) _ _ rfl))
  have engine : (s.storeEnds n).engine = s.engine := onSegment_does (same_engine.mono rfl) n _ rfl
  rw [eq]
  refine ⟨?_, bget_bset_self _ _ _, ?_⟩
  · have later := fails.later seg (.of_jnl jnl)
    exact ⟨later.here, later.fault, fun r => later.failed (engine.trans r), fun r => later.closed (engine.trans r)⟩
  · exact letGo_of_pages (s := x) (freePages_pages _)

/-! ## The block placed on an ONLINE lane -/

section flight

variable {len : Nat} {b : Buffer} {x : State}
  (coder : x.coder = { s.coder with buffers := bset s.coder.buffers i b, target := none })
  (cat : x.cat = { s.cat with table := x.cat.table }) (pool : x.pool = s.pool) (feed : x.feed = s.feed)
  (acts : x.engine ≠ .recovering) (req : s.cat.openReq = none) (stalled : s.feed.stalled = []) (stored : ¬ b.Idle)

include cat pool feed in
theorem selection_of_placed : x.readyKey = s.readyKey ∧ (∀ k, x.availableOf k = s.availableOf k) ∧ (∀ k, x.fillingOf k = s.fillingOf k) ∧
    ∀ k, x.atPartLimit k = s.atPartLimit k := by
  have dir : x.cat.dir = s.cat.dir := by rw [cat]
  have available (k : StreamKey) : x.availableOf k = s.availableOf k := by simp [availableOf, pool]
  have ready : x.keyReady = s.keyReady := by funext k; simp [keyReady, available, switchBound, feed, dir]
  exact ⟨by simp [readyKey, pool, ready], available, fun k => by simp [fillingOf, dirEntry, dir],
    fun k => by simp [atPartLimit, dirEntry, dir]⟩

include coder stored in
theorem inHand_of_placed {j : Fin 2} (ne : j ≠ i) (other : ∀ k' ps, bget s.coder.buffers j ≠ .forming k' ps) : x.inHand = none := by
  cases hand : x.inHand with
  | none => rfl
  | some y =>
    obtain ⟨b', k', ps⟩ := y
    have formed := inHand_buffer hand
    rw [coder] at formed
    by_cases same : i = b'
    · subst same
      rw [bget_bset_self] at formed
      exact absurd (.inr ⟨k', ps, formed⟩) stored
    · rw [bget_bset_ne _ _ _ _ same] at formed
      have : j = b' := by omega
      subst this
      exact absurd formed (other k' ps)

include coder stored in
theorem freeBuffer_of_placed {j : Fin 2} (ne : j ≠ i) :
    (bget s.coder.buffers j = .free → x.freeBuffer = some j) ∧ (bget s.coder.buffers j ≠ .free → x.freeBuffer = none) := by
  have own : bget x.coder.buffers i ≠ .free := by
    rw [coder, bget_bset_self]
    exact fun c => stored (.inl c)
  have others : bget x.coder.buffers j = bget s.coder.buffers j := by
    rw [coder, bget_bset_ne _ _ _ _ (Ne.symm ne)]
  rw [← others]
  have which : (i = 0 ∧ j = 1) ∨ (i = 1 ∧ j = 0) := by omega
  unfold freeBuffer
  rcases which with ⟨rfl, rfl⟩ | ⟨rfl, rfl⟩
  · rw [if_neg own]
    exact ⟨fun c => if_pos c, fun c => if_neg c⟩
  · exact ⟨fun c => if_pos c, fun c => by rw [if_neg c, if_neg own]⟩

include coder cat pool feed acts req stalled stored in
/-- With the other buffer FREE the coder takes the ready key, or is IDLE; with both in flight it is WAITING-LANE (R105, R113). -/
theorem settle_placed {j : Fin 2} (ne : j ≠ i) :
    (bget s.coder.buffers j = .free → s.readyKey = none → x.settle.coder.state = .idle) ∧
    (∀ k', bget s.coder.buffers j = .free → s.readyKey = some k' →
      s.atPartLimit k' = false ∨ x.settle.partBusy k' = true ∨ (s.fillingOf k').isSome = true →
      bget x.settle.coder.buffers j = .forming k' ((s.availableOf k').take 64) ∧ x.settle.coder.target = s.fillingOf k' ∧
      x.settle.coder.state = if (s.fillingOf k').isSome then .coding else .waitingExtent) ∧
    (∀ a c ps p q bs, bget s.coder.buffers j = .inFlight a c ps p q bs → x.settle.coder.state = .waitingLane) := by
  obtain ⟨ready, available, filling, limit⟩ := selection_of_placed cat pool feed
  have noReq : x.cat.openReq = none := by rw [cat]; exact req
  have settled : x.settle.coder = x.runCoder.coder := by rw [settle_eq (.inl (by rw [feed]; exact stalled)), pump_coder]
  have idle (free : bget s.coder.buffers j = .free) : x.inHand = none :=
    inHand_of_placed coder stored ne fun k' ps => by rw [free]; exact fun c => by cases c
  refine ⟨fun free none => ?_, fun k' free some stays => ?_, fun a c ps p q bs flying => ?_⟩
  · rw [settled, runCoder_rests acts noReq (idle free) (.inr (ready.trans none)), (freeBuffer_of_placed coder stored ne).1 free]
    rfl
  · rw [settle_partBusy] at stays
    obtain ⟨eq, -, -⟩ := runCoder_takes acts noReq (idle free) ((freeBuffer_of_placed coder stored ne).1 free) (ready.trans some)
      (by rw [filling, limit]; exact stays.elim (fun c => .inr (.inl c)) fun c => c.elim (fun c => .inr (.inr c)) .inl)
    rw [settled, eq, (selectBlock_coder j k' x).1, filling, available]
    exact ⟨bget_bset_self _ _ _, rfl, rfl⟩
  · have full := (freeBuffer_of_placed coder stored ne).2 (by rw [flying]; exact fun c => by cases c)
    have none : x.inHand = none := inHand_of_placed coder stored ne fun k' ps => by rw [flying]; exact fun c => by cases c
    rw [settled, runCoder_rests acts noReq none (.inl full), full]
    rfl

end flight

end Sys2Proof.Machine.State
end

section

namespace Sys2Proof.Claims
open Sys2Proof.Machine Sys2Proof.Machine.State

/-- Settles O30: the placement, the failure on an OFFLINE lane, and the two ways to an open, each with what follows of itself. -/
theorem codingCompletesByItsTarget : Obligations.CodingCompletesByItsTarget := by
  unfold Obligations.CodingCompletesByItsTarget
  intro i k places n s ⟨powered, acts⟩ hand target req stalled
  have on : s.commanded (fun t => t.codingDone.settle) = s.codingDone.settle := s.commanded_on _ powered acts
  have feed : s.codingDone.feed = s.feed := codingDone_does (same_feed.mono rfl) rfl
  have none : NoneResumes s.codingDone := .inl (by rw [feed]; exact stalled)
  have engine : s.codingDone.engine = s.engine := codingDone_does (same_engine.mono rfl) rfl
  refine ⟨s.codingDone.settle, congrArg Host.Outcome.next on, ?_, ?_, ?_, ?_, ?_, ?_, ?_, ?_⟩
  · exact settle_does (same_ret.mono rfl) (codingDone_does (same_ret.mono rfl) rfl)
  · exact settle_does (same_recon.mono rfl) (codingDone_does (same_recon.mono rfl) rfl)
  · exact (settle_quiet none).feed.trans feed
  · rw [settle_exec]
    exact codingDone_does (same_exec.mono rfl) rfl
  · exact settle_does (keeps_kept.mono rfl) (codingDone_does (keeps_kept.mono rfl) ⟨rfl, rfl, rfl, rfl, rfl, rfl, rfl⟩)
  · intro g live fits
    have done : s.codingDone = s.placeBlock i n g.reserve places (s.recordsAt places) (s.codedBytes g places) := by
      unfold codingDone
      rw [hand, target]
      dsimp only
      rw [live]
      exact if_pos fits
    obtain ⟨first, last, place⟩ := placeBlock_eq live i g.reserve places (s.recordsAt places) (s.codedBytes g places)
    have p := placed_placed live i (.inFlight n g.reserve places first last (s.codedBytes g places)) (s.codedBytes g places).length
    have pos : 0 < (s.codedBytes g places).length := encodeBlock_pos ..
    generalize s.codedBytes g places = bytes at *
    generalize s.placed i n (.inFlight n g.reserve places first last bytes) bytes.length = x at *
    have stored : ¬ (Buffer.inFlight n g.reserve places first last bytes).Idle := by
      rintro (c | ⟨_, _, c⟩) <;> cases c
    refine ⟨fun online => ?_, fun offline => ?_⟩
    · have eq : s.codingDone = x.enqueueFore (laneOf n) (.store n g.reserve i bytes) := by rw [done, place]; exact if_pos online
      rw [eq] at none engine ⊢
      refine ⟨?_, ?_, ?_, ?_⟩
      · rw [(settle_segments _).live?, (enqueueFore_does (keeps_segments.mono rfl) _ _ (SegmentsStand.refl x)).live?]
        exact p.here
      · refine ⟨first, last, ?_⟩
        have here : bget (x.enqueueFore (laneOf n) (.store n g.reserve i bytes)).coder.buffers i =
            .inFlight n g.reserve places first last bytes := by
          show bget x.coder.buffers i = _
          rw [p.coder, bget_bset_self]
        exact ((settle_buffer none i).stays (by rw [here]; exact stored)).trans here
      · rintro q rfl
        refine (joinedFore_settle (old := bget s.lanes.lane (laneOf n)) (j := (bget s.lanes.lane (laneOf n)).journalQ) ?_).1
        show bget (bmod x.lanes.lane (laneOf n) _) (laneOf n) = _
        rw [p.lanes, bmod, bget_bset_self]
      · exact fun j ne => settle_placed (x := x.enqueueFore (laneOf n) (.store n g.reserve i bytes)) p.coder p.cat p.pool p.feed
          (by rw [engine]; exact acts) req stalled stored ne
    · have eq : s.codingDone = x.storeDone i false := by rw [done, place]; exact if_neg (by rw [offline]; decide)
      obtain ⟨fails, free, letGo⟩ := storeDone_fails (places := places) p.here (by dsimp only; omega) (by rw [p.coder, bget_bset_self])
      rw [eq] at none engine ⊢
      have later := fails.later (settle_segments _) (.of_quiet (settle_quiet none))
      refine ⟨later.here, later.fault, fun ready => ⟨?_, ?_⟩, ?_, letGo_settle letGo none⟩
      · exact later.failed (p.engine.trans ready)
      · exact later.closed (p.engine.trans ready)
      · exact (settle_buffer none i).idle (.inl free)
  · intro g live over_ given
    have done : s.codingDone = (s.closeSegment .full n).askOpen k := by
      unfold codingDone
      rw [hand, target]
      dsimp only
      rw [live]
      exact if_neg (Nat.not_le_of_gt over_)
    obtain ⟨limit, flag⟩ := limits_closeSegment live given .full k
    obtain ⟨waits, refused⟩ := askOpen_settles hand stalled acts (closeSegment_does (same_coder.mono rfl) .full n rfl)
      (closeSegment_does (same_feed.mono rfl) .full n rfl) (closeSegment_engine .full n s) limit flag
    have entry := fun ready => closeSegment_submits live ready .full
    rw [closeOutcome, if_neg given] at entry
    rw [done] at none ⊢
    refine ⟨?_, ?_, fun ready => ?_, waits, fun at_ free => ?_⟩
    · rw [(settle_segments _).live?]
      exact live?_closeSegment live given .full
    · rw [(settle_turn _).fillingOf]
      exact fillingOf_closeSegment live given .full
    · exact (settle_quiet none).submitted (entry ready)
    · obtain ⟨⟨set, entry⟩, bare, letGo⟩ := refused at_ free
      exact ⟨set, entry, bare, letGo⟩
  · intro other
    have done : s.codingDone = s.askOpen k := by
      unfold codingDone
      rw [hand, target]
      dsimp only
      split
      · rename_i g live
        exact absurd live (other g)
      · rfl
    obtain ⟨waits, refused⟩ := askOpen_settles (x := s) hand stalled acts rfl rfl rfl rfl rfl
    rw [done]
    refine ⟨?_, waits, fun at_ free => ?_⟩
    · rw [(settle_segments _).live?]
      rfl
    · obtain ⟨⟨set, entry⟩, bare, letGo⟩ := refused at_ free
      exact ⟨set, entry, bare, letGo⟩

end Sys2Proof.Claims
end

section
/-! SUPPORT. The pools, the rotation and the opening of a segment (R24 to R27), for O32. -/

namespace Sys2Proof.Machine.State

/-! ## The least of a list -/

/-- The least of a list by a pair, the later among equals standing for it. -/
def least {α : Type} (key : α → Nat × Nat) (l : List α) : Option α :=
  l.foldr (fun a best =>
    match best with
    | some b => if poolBefore (key b) (key a) then some b else some a
    | none => some a) none

theorem poolBefore_iff (a b : Nat × Nat) : poolBefore a b = true ↔ a.1 < b.1 ∨ (a.1 = b.1 ∧ a.2 < b.2) := by
  simp [poolBefore]

theorem least_cons {α : Type} (key : α → Nat × Nat) (x : α) (l : List α) : least key (x :: l) =
    match least key l with
    | some b => if poolBefore (key b) (key x) then some b else some x
    | none => some x := rfl

theorem least_isSome {α : Type} (key : α → Nat × Nat) {l : List α} (h : l ≠ []) : (least key l).isSome = true := by
  cases l with
  | nil => exact absurd rfl h
  | cons x l =>
    rw [least_cons]
    split
    · split <;> rfl
    · rfl

theorem least_mem {α : Type} {key : α → Nat × Nat} {l : List α} {m : α} (h : least key l = some m) :
    m ∈ l ∧ ∀ a ∈ l, (key m).1 < (key a).1 ∨ ((key m).1 = (key a).1 ∧ (key m).2 ≤ (key a).2) := by
  induction l generalizing m with
  | nil => cases h
  | cons x l ih =>
    rw [least_cons] at h
    have first : ∀ a, a = x → (key x).1 < (key a).1 ∨ ((key x).1 = (key a).1 ∧ (key x).2 ≤ (key a).2) := by
      rintro a rfl
      exact .inr ⟨rfl, Nat.le_refl _⟩
    cases rest : least key l with
    | none =>
      have empty : l = [] := by
        by_contra ne
        have := least_isSome key ne
        rw [rest] at this
        cases this
      rw [rest] at h
      cases h
      subst empty
      exact ⟨List.mem_singleton.mpr rfl, fun a ha => first a (List.mem_singleton.mp ha)⟩
    | some b =>
      rw [rest] at h
      obtain ⟨mem, low⟩ := ih rest
      dsimp only at h
      split at h
      · rename_i before
        cases h
        rw [poolBefore_iff] at before
        refine ⟨List.mem_cons_of_mem _ mem, fun a ha => ?_⟩
        rcases List.mem_cons.mp ha with rfl | ha
        · omega
        · exact low a ha
      · rename_i before
        cases h
        rw [poolBefore_iff] at before
        refine ⟨List.mem_cons_self, fun a ha => ?_⟩
        rcases List.mem_cons.mp ha with same | ha
        · exact first a same
        · have := low a ha
          omega

/-! ## What a rising table lists -/

theorem tfind_of_mem {α : Type} {b : Nat} {t : List (Nat × α)} (h : risesFrom b t) {p : Nat × α} (hp : p ∈ t) : tfind p.1 t = some p.2 := by
  induction t generalizing b with
  | nil => cases hp
  | cons q t ih =>
    obtain ⟨a, w⟩ := q
    rcases List.mem_cons.mp hp with rfl | later
    · exact if_pos rfl
    · have there := ih h.2 later
      have ne : a ≠ p.1 := fun c => by
        rw [tfind_above h.2 (by omega)] at there
        cases there
      rw [tfind, if_neg ne, there]

theorem mem_of_tfind {α : Type} {k : Nat} {v : α} {t : List (Nat × α)} (h : tfind k t = some v) : (k, v) ∈ t := by
  induction t with
  | nil => cases h
  | cons p t ih =>
    obtain ⟨a, w⟩ := p
    rw [tfind] at h
    split at h
    · rename_i same
      cases h
      rw [same]
      exact List.mem_cons_self
    · exact List.mem_cons_of_mem _ (ih h)

theorem firstFresh_some {t : List (Nat × Extent)} {fuel n m : Nat} (h : firstFresh t fuel n = some m) :
    n ≤ m ∧ m < n + fuel ∧ tfind m t = none ∧ ∀ j, n ≤ j → j < m → (tfind j t).isSome = true := by
  induction fuel generalizing n with
  | zero => cases h
  | succ fuel ih =>
    rw [firstFresh] at h
    split at h
    · rename_i fresh
      cases h
      exact ⟨Nat.le_refl _, by omega, Option.isNone_iff_eq_none.mp fresh, fun j lo hi => by omega⟩
    · rename_i listed
      obtain ⟨lo, hi, none, before⟩ := ih h
      refine ⟨by omega, by omega, none, fun j low high => ?_⟩
      by_cases same : j = n
      · subst same
        exact Option.isSome_iff_ne_none.mpr fun c => listed (by rw [c]; rfl)
      · exact before j (by omega) high

theorem firstFresh_isSome {t : List (Nat × Extent)} {fuel n m : Nat} (lo : n ≤ m) (hi : m < n + fuel) (none : tfind m t = none) :
    ∃ j, firstFresh t fuel n = some j ∧ j ≤ m := by
  induction fuel generalizing n with
  | zero => omega
  | succ fuel ih =>
    rw [firstFresh]
    split
    · exact ⟨n, rfl, lo⟩
    · rename_i listed
      have ne : m ≠ n := fun c => by
        subst c
        exact listed (Option.isNone_iff_eq_none.mpr none)
      exact ih (by omega) (by omega)

variable {s t u : State} {k : StreamKey} {l : LaneNo} {n m : Nat}

/-! ## The free extents of a lane (R24) -/

/-- A FREE extent with an erase count. -/
def FreeExtent (s : State) (n erases : Nat) : Prop := ∃ e, s.extent? n = some e ∧ e.content = .free ∧ e.erases = erases

/-- A READY engine whose table lists usable numbers in rising order. -/
def Listed (s : State) : Prop := s.engine = .ready ∧ rising s.cat.table = true ∧ ∀ p ∈ s.cat.table, s.usable p.1 = true

theorem usable_iff (n : Nat) : s.usable n = true ↔ n < 262144 ∧ 4 ≤ n % 16384 ∧ s.usableLane (laneOf n) = true := by
  simp [usable, Config.segmentEnd, Config.journalExtents, Config.extentsPerLane, and_assoc]

/-- The usable numbers of a lane are the last 16,380 of its 16,384. -/
theorem laneOf_eq_iff (lane : LaneNo) (n : Nat) (h : n < 262144) (u : 4 ≤ n % 16384) :
    laneOf n = lane ↔ laneBase lane + 4 ≤ n ∧ n < laneBase lane + 16384 := by
  have := lane.isLt
  unfold laneOf laneBase
  rw [Fin.ext_iff]
  dsimp only [Config.extentsPerLane]
  omega

theorem laneOf_of_span (lane : LaneNo) (n : Nat) (lo : laneBase lane + 4 ≤ n) (hi : n < laneBase lane + 16384) :
    laneOf n = lane ∧ n < 262144 ∧ 4 ≤ n % 16384 := by
  have := lane.isLt
  have base : laneBase lane = lane.val * 16384 := rfl
  refine ⟨(laneOf_eq_iff lane n ?_ ?_).mpr ⟨lo, hi⟩, ?_, ?_⟩ <;> omega

/-- The candidates of a lane's pool are FREE extents of the lane, and stand before every other. -/
theorem poolCandidates_of (h : s.Listed) (up : s.usableLane l = true) :
    (∀ c ∈ s.poolCandidates l, laneOf c.2 = l ∧ s.FreeExtent c.2 c.1) ∧
    ∀ m b, laneOf m = l → s.FreeExtent m b → ∃ c ∈ s.poolCandidates l, c.1 < b ∨ (c.1 = b ∧ c.2 ≤ m) := by
  obtain ⟨ready, rises, usables⟩ := h
  have built : s.tableBuilt = true := by simp [tableBuilt, ready]
  have rises := (rising_iff _).mp rises
  unfold poolCandidates
  constructor
  · intro c hc
    rcases List.mem_append.mp hc with listed | fresh
    · obtain ⟨p, hp, eq⟩ := List.mem_filterMap.mp listed
      split at eq
      · rename_i is
        cases eq
        refine ⟨is.1, p.2, ?_, is.2, rfl⟩
        rw [extent?_of_built built (usables p hp), dfind, tfind_of_mem rises hp]
        rfl
      · cases eq
    · obtain ⟨n, hn, rfl⟩ := Option.map_eq_some_iff.mp (Option.mem_toList.mp fresh)
      obtain ⟨lo, hi, none, -⟩ := firstFresh_some hn
      obtain ⟨lane, low, index⟩ := laneOf_of_span l n lo (hi.trans_eq (Nat.add_assoc _ 4 16380))
      refine ⟨lane, Extent.fresh, ?_, rfl, rfl⟩
      rw [extent?_of_built built ((usable_iff n).mpr ⟨low, index, by rw [lane]; exact up⟩), dfind, none]
      rfl
  · rintro m b lane ⟨e, he, content, rfl⟩
    obtain ⟨-, use⟩ := extent?_isSome_iff.mp (by rw [he]; rfl)
    obtain ⟨low, index, -⟩ := (usable_iff m).mp use
    rw [extent?_of_built built use, dfind] at he
    cases found : tfind m s.cat.table with
    | some x =>
      obtain rfl : x = e := by
        rw [found] at he
        exact Option.some.inj he
      refine ⟨(x.erases, m), List.mem_append_left _ (List.mem_filterMap.mpr ⟨(m, x), mem_of_tfind found, if_pos ⟨lane, content⟩⟩),
        .inr ⟨rfl, Nat.le_refl _⟩⟩
    | none =>
      obtain rfl : Extent.fresh = e := by
        rw [found] at he
        exact Option.some.inj he
      obtain ⟨lo, hi⟩ := (laneOf_eq_iff l m low index).mp lane
      obtain ⟨j, hj, le⟩ := firstFresh_isSome (fuel := Config.usablePerLane) (n := laneBase l + Config.journalExtents) lo
        (hi.trans_eq (Nat.add_assoc _ 4 16380).symm) found
      refine ⟨(0, j), List.mem_append_right _ (Option.mem_toList.mpr ?_), .inr ⟨rfl, le⟩⟩
      rw [hj]
      rfl

/-- A lane that an extent can be granted from. -/
def CanGrant (s : State) (l : LaneNo) : Prop :=
  s.usableLane l = true ∧ s.isOnline l = true ∧ ∃ n a, laneOf n = l ∧ s.FreeExtent n a

theorem poolHead_eq (s : State) (l : LaneNo) : s.poolHead l = (least id (s.poolCandidates l)).map Prod.snd := by
  unfold poolHead least
  congr 2
  funext a best
  cases best <;> rfl

theorem poolHead_isSome (h : s.Listed) (up : s.usableLane l = true) {a : Nat} (lane : laneOf n = l) (free : s.FreeExtent n a) :
    (s.poolHead l).isSome = true := by
  obtain ⟨c, hc, -⟩ := (poolCandidates_of h up).2 n a lane free
  rw [poolHead_eq, Option.isSome_map]
  exact least_isSome id (List.ne_nil_of_mem hc)

/-- The head of a pool is the FREE extent of the lowest erase count, the lowest-numbered among equals (R24). -/
theorem poolHead_some (h : s.Listed) (up : s.usableLane l = true) (hn : s.poolHead l = some n) : laneOf n = l ∧
    ∃ a, s.FreeExtent n a ∧ ∀ m b, laneOf m = l → s.FreeExtent m b → a < b ∨ (a = b ∧ n ≤ m) := by
  obtain ⟨own, before⟩ := poolCandidates_of h up
  rw [poolHead_eq] at hn
  obtain ⟨c, hc, rfl⟩ := Option.map_eq_some_iff.mp hn
  obtain ⟨mem, low⟩ := least_mem hc
  refine ⟨(own c mem).1, c.1, (own c mem).2, fun m b lane free => ?_⟩
  obtain ⟨d, hd, le⟩ := before m b lane free
  have := low d hd
  simp only [id] at this
  omega

/-- What rotation looks for on a lane. -/
def offer (s : State) (l : LaneNo) : Option (LaneNo × Nat) :=
  if s.usableLane l && s.isOnline l then (s.poolHead l).map fun n => (l, n) else none

theorem grantExtent_eq (s : State) : s.grantExtent = ((indices 16).map fun i => s.cat.rotation + i).findSome? s.offer := rfl

theorem offer_eq_none_iff (h : s.Listed) : s.offer l = none ↔ ¬ s.CanGrant l := by
  unfold offer CanGrant
  constructor
  · rintro none ⟨up, online, n, a, lane, free⟩
    rw [if_pos (by rw [up, online]; rfl), Option.map_eq_none_iff] at none
    have := poolHead_isSome h up lane free
    rw [none] at this
    cases this
  · intro not
    split
    · rename_i is
      rw [Bool.and_eq_true] at is
      cases head : s.poolHead l with
      | none => rfl
      | some n =>
        obtain ⟨lane, a, free, -⟩ := poolHead_some h is.1 head
        exact absurd ⟨is.1, is.2, n, a, lane, free⟩ not
    · rfl

theorem offer_some {x : LaneNo × Nat} (h : s.offer l = some x) : x.1 = l ∧ s.usableLane l = true ∧ s.isOnline l = true ∧
    s.poolHead l = some x.2 := by
  unfold offer at h
  split at h
  · rename_i is
    rw [Bool.and_eq_true] at is
    obtain ⟨n, hn, rfl⟩ := Option.map_eq_some_iff.mp h
    exact ⟨rfl, is.1, is.2, hn⟩
  · cases h

/-- The lanes in rotation order, by place. -/
theorem rotation_getElem? (r m : LaneNo) : ((indices 16).map fun i => r + i)[(m - r).val]? = some m := by
  rw [List.getElem?_map]
  have : (indices 16)[(m - r).val]? = some (m - r) := by
    generalize m - r = d
    revert d
    decide
  rw [this]
  exact congrArg some (add_sub_cancel r m)

theorem grantExtent_none (h : s.Listed) : s.grantExtent = none ↔ ∀ l, ¬ s.CanGrant l := by
  rw [grantExtent_eq, List.findSome?_eq_none_iff]
  constructor
  · exact fun none l => (offer_eq_none_iff h).mp (none l (List.mem_of_getElem? (rotation_getElem? s.cat.rotation l)))
  · exact fun not l _ => (offer_eq_none_iff h).mpr (not l)

/-- The lane granted is the first from the rotation pointer upwards, wrapping, with an extent to grant (R25). -/
theorem grantExtent_some (h : s.Listed) (g : s.grantExtent = some (l, n)) : s.CanGrant l ∧
    (∀ m, m - s.cat.rotation < l - s.cat.rotation → ¬ s.CanGrant m) ∧ s.usableLane l = true ∧ s.poolHead l = some n := by
  rw [grantExtent_eq, List.findSome?_eq_some_iff] at g
  obtain ⟨before, x, after, lanes, some, none⟩ := g
  obtain ⟨rfl, up, online, head⟩ := offer_some some
  obtain ⟨lane, a, free, -⟩ := poolHead_some h up head
  refine ⟨⟨up, online, n, a, lane, free⟩, fun m lt => ?_, up, head⟩
  have size : before.length < 16 := by
    have := congrArg List.length lanes
    simp only [List.length_map, List.length_append, List.length_cons] at this
    have : (indices 16).length = 16 := by decide
    omega
  have place := rotation_getElem? s.cat.rotation (s.cat.rotation + ⟨before.length, size⟩)
  rw [add_sub_cancel_left, lanes, List.getElem?_append_right (Nat.le_refl _), Nat.sub_self] at place
  have at_ : l - s.cat.rotation = ⟨before.length, size⟩ := by
    have same : l = s.cat.rotation + ⟨before.length, size⟩ := Option.some.inj place
    rw [same, add_sub_cancel_left]
  have here := rotation_getElem? s.cat.rotation m
  rw [at_] at lt
  rw [lanes, List.getElem?_append_left lt] at here
  exact (offer_eq_none_iff h).mp (none m (List.mem_of_getElem? here))

/-! ## The segment that the open limit closes (R27) -/

/-- A segment's number is listed. -/
theorem listed_of_live {x : LiveState × Segment} (h : s.live? n = some x) : ∃ e, (n, e) ∈ s.cat.table := by
  obtain ⟨st, g⟩ := x
  obtain ⟨e, he, c⟩ := live?_eq_some_iff.mp h
  obtain ⟨built, use⟩ := extent?_isSome_iff.mp (by rw [he]; rfl)
  rw [extent?_of_built built use, dfind] at he
  cases found : tfind n s.cat.table with
  | none =>
    rw [found] at he
    obtain rfl : Extent.fresh = e := Option.some.inj he
    cases c
  | some x => exact ⟨x, mem_of_tfind found⟩

theorem mem_fillings_iff (n : Nat) (g : Segment) : (n, g) ∈ s.fillings ↔ s.live? n = some (.filling, g) := by
  unfold fillings
  rw [List.mem_filterMap]
  constructor
  · rintro ⟨p, -, eq⟩
    split at eq
    · rename_i h live
      cases eq
      exact live
    · cases eq
  · intro live
    obtain ⟨e, mem⟩ := listed_of_live live
    exact ⟨(n, e), mem, by rw [live]⟩

theorem openVictim_eq (s : State) : s.openVictim = (least (fun a : Nat × Segment => (a.2.key.day, a.1)) s.fillings).map Prod.fst := by
  unfold openVictim least
  congr 2
  funext a best
  cases best <;> rfl

/-- The victim is of the oldest record day, the lowest-numbered among equals. -/
theorem openVictim_some (h : s.fillings ≠ []) : ∃ v g, s.openVictim = some v ∧
    s.live? v = some (.filling, g) ∧
    ∀ m x, s.live? m = some (.filling, x) → g.key.day < x.key.day ∨ (g.key.day = x.key.day ∧ v ≤ m) := by
  obtain ⟨⟨v, g⟩, hc⟩ := Option.isSome_iff_exists.mp (least_isSome (fun a : Nat × Segment => (a.2.key.day, a.1)) h)
  obtain ⟨mem, low⟩ := least_mem hc
  exact ⟨v, g, by rw [openVictim_eq, hc]; rfl, (mem_fillings_iff v g).mp mem,
    fun m x live => low (m, x) ((mem_fillings_iff m x).mpr live)⟩

/-! ## The opening (R26) -/

/-- The CURRENT slot and its serial, or none. -/
theorem currentRef_some {r : EditionRef} (h : s.currentRef = some r) :
    (bget s.eds.slots r.slot).state = .current ∧ (bget s.eds.slots r.slot).serial = r.serial := by
  unfold currentRef at h
  obtain ⟨i, hi, rfl⟩ := Option.map_eq_some_iff.mp h
  have := List.find?_some hi
  exact ⟨by simpa using this, rfl⟩

theorem currentRef_none (h : s.currentRef = none) (i : SlotNo) : (bget s.eds.slots i).state ≠ .current := by
  unfold currentRef currentSlot at h
  rw [Option.map_eq_none_iff, List.find?_eq_none] at h
  simpa using h i (mem_indices i)

/-- The entry that a key takes at an open. -/
def openedEntry (n : Nat) (k : StreamKey) (s : State) : DirEntry :=
  { highest := ((s.dirEntry k).map fun d => d.highest + 1).getD 1, digest := 0, filling := some n,
    count := ((s.dirEntry k).map DirEntry.count).getD 0 + 1, limited := ((s.dirEntry k).map DirEntry.limited).getD false }

/-- What an open makes of an engine (R26, R35, R97). -/
structure OpensAt (n : Nat) (k : StreamKey) (s t : State) : Prop where
  extent : ∀ e, s.extent? n = some e → t.extent? n = some { e with content := .live .filling (s.newSegment k) }
  others : ∀ m, m ≠ n → t.extent? m = s.extent? m
  entry : t.dirEntry k = some (s.openedEntry n k)
  rotation : t.cat.rotation = s.cat.rotation
  mem : Remembers s t
  watched : s.engine ≠ .formatting → Claims.Watched s t
  refs : ∀ r, s.currentRef = some r → (bget t.eds.slots r.slot).refs = (bget s.eds.slots r.slot).refs + 1

/-- A judgement of the watch leaves all of the catalog but the watch. -/
theorem judgeWatch_cat (s : State) : s.judgeWatch.cat = { s.cat with watch := s.judgeWatch.cat.watch } := by
  have noted (b : Bool) (x : State) : (if b then x.notice .freeWatch else x).cat = x.cat := by
    split
    · exact notice_does (same_cat.mono rfl) _ rfl
    · rfl
  unfold judgeWatch
  dsimp only
  split
  · rfl
  · rw [noted]
    rfl

/-- The catalog's rotation pointer stands at a close. -/
theorem closeSegment_rotation (cause : CloseCause) (n : Nat) (s : State) : (s.closeSegment cause n).cat.rotation = s.cat.rotation := by
  have dir (k : StreamKey) (f : DirEntry → DirEntry) (x : State) : (x.onDir k f).cat.rotation = x.cat.rotation := by
    rw [(onDir_cat k f x).1]
  have content (n : Nat) (c : Content) (x : State) : (x.setContent n c).cat.rotation = x.cat.rotation := by
    rw [setContent, onExtent_cat]
  have drop (k : StreamKey) (x : State) : (x.dropFromDir k).cat.rotation = x.cat.rotation := by rw [(dropFromDir_cat k x).1]
  have watch (x : State) : x.judgeWatch.cat.rotation = x.cat.rotation := by rw [judgeWatch_cat]
  unfold closeSegment
  split
  · dsimp only
    split
    · rw [log_cat, drop, unbindEdition_cat, watch, content, dir]
    · rw [log_cat, content, dir]
  · rfl

theorem openAt_opens (n : Nat) (k : StreamKey) (s : State) : OpensAt n k s (s.openAt n k) := by
  set y := ((s.setContent n (.live .filling (s.newSegment k))).bindEdition s.currentRef).setDir k (s.openedEntry n k) with hy
  have eq : s.openAt n k = y.judgeWatch := rfl
  have bound : ((s.setContent n (.live .filling (s.newSegment k))).bindEdition s.currentRef).cat =
      (s.setContent n (.live .filling (s.newSegment k))).cat := bindEdition_does (same_cat.mono rfl) _ rfl
  have cat : y.cat = { (s.setContent n (.live .filling (s.newSegment k))).cat with
      dir := tput k.code (s.openedEntry n k) (s.setContent n (.live .filling (s.newSegment k))).cat.dir } := by
    rw [← bound]
    rfl
  have seg : SegmentsStand (s.setContent n (.live .filling (s.newSegment k))) y :=
    setDir_does (keeps_segments.mono rfl) k _ (bindEdition_does (keeps_segments.mono rfl) _ (.refl _))
  have rest : (s.setContent n (.live .filling (s.newSegment k))).cat.rotation = s.cat.rotation ∧
      (s.setContent n (.live .filling (s.newSegment k))).cat.watch = s.cat.watch := by
    rw [setContent, onExtent_cat]
    exact ⟨rfl, rfl⟩
  have slots : y.eds = ((s.setContent n (.live .filling (s.newSegment k))).bindEdition s.currentRef).eds := rfl
  have eds : (s.setContent n (.live .filling (s.newSegment k))).eds = s.eds := setContent_does (same_eds.mono rfl) n _ rfl
  have desk : y.desk = s.desk := setDir_does (same_desk.mono rfl) k _ (bindEdition_does (same_desk.mono rfl) _
    (setContent_does (same_desk.mono rfl) n _ rfl))
  have jnl : y.jnl = s.jnl := setDir_does (same_jnl.mono rfl) k _ (bindEdition_does (same_jnl.mono rfl) _
    (setContent_does (same_jnl.mono rfl) n _ rfl))
  have engine : y.engine = s.engine := setDir_does (same_engine.mono rfl) k _ (bindEdition_does (same_engine.mono rfl) _
    (setContent_does (same_engine.mono rfl) n _ rfl))
  clear_value y
  rw [eq]
  refine ⟨fun e he => ?_, fun m ne => ?_, ?_, ?_, .of_jnl ((judgeWatch_jnl y).trans jnl), fun f => ?_, fun r hr => ?_⟩
  · rw [(judgeWatch_segments y).extent?, seg.extent?]
    exact extent?_setContent_live he _ _
  · rw [(judgeWatch_segments y).extent?, seg.extent?, extent?_setContent_ne ne]
  · have dir : y.judgeWatch.cat.dir = y.cat.dir := by rw [judgeWatch_cat]
    unfold dirEntry
    rw [dir, cat, tfind_tput_self]
  · have : y.judgeWatch.cat.rotation = y.cat.rotation := by rw [judgeWatch_cat]
    rw [this, cat]
    exact rest.1
  · refine watched_of_held ⟨?_, ?_⟩ (judgeWatch_watched (by rw [engine]; exact f))
    · rw [cat]
      exact rest.2
    · rw [desk]
  · have same : y.judgeWatch.eds = y.eds := judgeWatch_does (same_eds.mono rfl) rfl
    rw [same, slots, hr]
    show (bget (bmod (s.setContent n (.live .filling (s.newSegment k))).eds.slots r.slot _) r.slot).refs = _
    rw [bget_bmod_self, eds]

/-- An open granted on an engine that has kept the open limit, with what follows of itself. -/
def opened (n : Nat) (k : StreamKey) (s : State) : State :=
  (((s.openAt n k).onCat fun c => { c with openReq := none }).onCoder fun c => { c with state := .coding, target := some n })

theorem opened_opens (n : Nat) (k : StreamKey) (s : State) : OpensAt n k s (s.opened n k) := by
  have h := openAt_opens n k s
  unfold opened
  generalize s.openAt n k = x at *
  exact ⟨h.extent, h.others, h.entry, h.rotation, fun b hb => h.mem b hb, h.watched, h.refs⟩

/-- What follows of an opening of itself is a grant at most: the coder has its block and its target. -/
theorem settle_opened (hand : s.inHand.isSome = true) (stalled : s.feed.stalled = []) (n : Nat) (k : StreamKey) :
    OpensAt n k s (s.opened n k).settle ∧ (s.opened n k).settle.cat.openReq = none ∧ (s.opened n k).settle.coder.target = some n ∧
    (s.opened n k).settle.coder.state = .coding := by
  have h := opened_opens n k s
  have coder : (s.opened n k).coder = { s.coder with state := .coding, target := some n } := by
    have same : (s.openAt n k).coder = s.coder := openAt_does (same_coder.mono rfl) n k rfl
    rw [← same]
    rfl
  have feed : (s.opened n k).feed = s.feed := openAt_does (same_feed.mono rfl) n k rfl
  have req : (s.opened n k).cat.openReq = none := rfl
  generalize s.opened n k = x at *
  have holds : Claims.CoderHolds x := ⟨by rw [inHand_congr (t := x) (s := s) (by rw [coder])]; exact hand, req⟩
  have settled : x.settle = x.pump := by rw [settle_eq (.inl (by rw [feed]; exact stalled)), runCoder_of_holds holds]
  have seg : SegmentsStand x x.pump := pump_does (keeps_segments.mono rfl) (.refl x)
  have cat : x.pump.cat = x.cat := pump_does (same_cat.mono rfl) rfl
  have eds : x.pump.eds = x.eds := pump_does (same_eds.mono rfl) rfl
  rw [settled]
  refine ⟨⟨fun e he => ?_, fun m ne => ?_, ?_, ?_, ?_, fun f => ?_, fun r hr => ?_⟩, ?_, ?_, ?_⟩
  · rw [seg.extent?, h.extent e he]
  · rw [seg.extent?, h.others m ne]
  · unfold dirEntry
    rw [cat]
    exact h.entry
  · rw [cat, h.rotation]
  · exact h.mem.trans (.of_quiet (pump_quiet x))
  · exact watched_then (h.watched f) seg (.of_quiet (pump_quiet x) (by rw [cat]))
  · rw [eds]
    exact h.refs r hr
  · rw [cat, req]
  · rw [pump_coder, coder]
  · rw [pump_coder, coder]

end Sys2Proof.Machine.State
end

section

namespace Sys2Proof.Claims
open Sys2Proof.Machine Sys2Proof.Machine.State

/-- Settles O32: the rotation's grant by the pools' candidates, the open limit's victim, and the opening. -/
theorem openGrantsTheNextExtent : Obligations.OpenGrantsTheNextExtent := by
  unfold Obligations.OpenGrantsTheNextExtent
  intro k s ⟨powered, acts⟩ req hand stalled
  have on : s.commanded (fun t => t.openGranted.settle) = s.openGranted.settle := s.commanded_on _ powered acts
  have feed : s.openGranted.feed = s.feed := openGranted_does (same_feed.mono rfl) rfl
  have none : NoneResumes s.openGranted := .inl (by rw [feed]; exact stalled)
  have granted (l : LaneNo) (n : Nat) (g : s.grantExtent = some (l, n)) :
      s.openGranted = (s.onCat fun c => { c with rotation := l + 1 }).openLimit.opened n k := by
    unfold openGranted
    rw [req]
    dsimp only
    rw [if_pos rfl, g]
    rfl
  refine ⟨s.openGranted.settle, congrArg Host.Outcome.next on, ?_, ?_, ?_, ?_, ?_, fun listed => ⟨?_, ?_⟩, ?_, ?_, ?_⟩
  · exact settle_does (same_ret.mono rfl) (openGranted_does (same_ret.mono rfl) rfl)
  · exact settle_does (same_recon.mono rfl) (openGranted_does (same_recon.mono rfl) rfl)
  · exact (settle_quiet none).feed.trans feed
  · rw [settle_exec]
    exact openGranted_does (same_exec.mono rfl) rfl
  · exact settle_does (keeps_kept.mono rfl) (openGranted_does (keeps_kept.mono rfl) ⟨rfl, rfl, rfl, rfl, rfl, rfl, rfl⟩)
  · exact grantExtent_none listed
  · intro l n g
    obtain ⟨can, first, up, head⟩ := grantExtent_some listed g
    obtain ⟨lane, least⟩ := poolHead_some listed up head
    exact ⟨can, first, lane, least⟩
  · intro few l n g here
    rw [granted l n g]
    set x := s.onCat fun c => { c with rotation := l + 1 } with hx
    have kept : x.openLimit = x := if_neg (by
      show ¬ 256 ≤ s.fillings.length
      omega)
    rw [kept]
    obtain ⟨opens, closed, target, state⟩ := settle_opened (s := x) hand stalled n k
    obtain ⟨e, he⟩ := Option.isSome_iff_exists.mp here
    have extent := opens.extent e he
    have same : x.newSegment k = s.newSegment k := rfl
    have entry := opens.entry
    have ref : x.currentRef = s.currentRef := rfl
    have refs := opens.refs
    have watched := opens.watched
    refine ⟨opens.rotation, closed, ⟨s.newSegment k, live?_of_extent (same ▸ extent) rfl, rfl, rfl, rfl, rfl, rfl, rfl, rfl, rfl, rfl, rfl,
      rfl, rfl, rfl, rfl, rfl, fun g own => ?_, rfl, fun r hr => currentRef_some hr, fun hr => currentRef_none hr, entry⟩, ?_, ?_, ?_, target,
      state, fun ready => ?_, fun r hr => refs r hr⟩
    · show min (k.day + s.groupDays k.group) Config.dayMax = _
      unfold groupDays
      rw [own, dif_pos g.isLt]
    · rw [extent, he]
      rfl
    · rw [extent, he]
      rfl
    · unfold fillingOf
      rw [entry]
      rfl
    · exact watched_of_held ⟨rfl, rfl⟩ (watched (by
        show s.engine ≠ _
        rw [ready]
        decide))
  · intro many listed l n g
    obtain ⟨-, -, up, head⟩ := grantExtent_some listed g
    obtain ⟨lane, a, ⟨e, he, free, -⟩, -⟩ := poolHead_some listed up head
    obtain ⟨v, h, victim, live, oldest⟩ := openVictim_some (s := s) (by
      intro c
      rw [c] at many
      cases many)
    rw [granted l n g]
    set x := s.onCat fun c => { c with rotation := l + 1 } with hx
    have kept : x.openLimit = x.closeSegment .openLimit v := by
      unfold openLimit
      rw [if_pos (show Config.fillingMax ≤ x.fillings.length from many), show x.openVictim = some v from victim]
    obtain ⟨ev, hv, cv⟩ := live?_eq_some_iff.mp live
    have ne : v ≠ n := by
      rintro rfl
      obtain rfl : ev = e := Option.some.inj (hv.symm.trans he)
      rw [free] at cv
      cases cv
    have there : x.extent? v = some ev := hv
    have rises : rising x.cat.table = true := listed.2.1
    have closes := extent?_closeSegment there cv (.inr rises) .openLimit
    have entry := closeSegment_submits (s := x) live listed.1 .openLimit
    have others := (extent?_closeSegment_ne (s := x) (Ne.symm ne) .openLimit).trans (show x.extent? n = some e from he)
    have rotation := closeSegment_rotation .openLimit v x
    have hands : (x.closeSegment .openLimit v).inHand.isSome = true := by
      rw [inHand_congr (t := x.closeSegment .openLimit v) (s := s) (congrArg Coder.buffers (closeSegment_does (same_coder.mono rfl)
        .openLimit v rfl))]
      exact hand
    have quiet : (x.closeSegment .openLimit v).feed.stalled = [] := by
      rw [show (x.closeSegment .openLimit v).feed = s.feed from closeSegment_does (same_feed.mono rfl) .openLimit v rfl]
      exact stalled
    rw [kept]
    clear_value x
    generalize x.closeSegment .openLimit v = y at *
    obtain ⟨opens, closed, target, state⟩ := settle_opened hands quiet n k
    have extent := opens.extent e others
    have after := (opens.others v ne).trans closes
    have filled := opens.entry
    refine ⟨opens.rotation.trans (rotation.trans (by rw [hx]; rfl)), closed, ?_, target, state, ⟨y.newSegment k, live?_of_extent extent rfl,
      rfl, rfl, rfl, rfl, rfl⟩, v, h, live, oldest, fun given => ?_, fun ungiven => ?_, ?_⟩
    · unfold fillingOf
      rw [filled]
      rfl
    · exact live?_of_extent after (if_neg given)
    · rw [after]
      exact congrArg some (if_pos ungiven)
    · exact opens.mem _ entry
  · intro no
    have still : s.openGranted = s := by
      unfold openGranted
      rw [req]
      dsimp only
      rw [if_pos rfl, no]
    have waits : s.runCoder = s := runCoder_waits acts hand req (.inl rfl)
    rw [still] at none ⊢
    have settled : s.settle = s.pump := by rw [settle_eq none, waits]
    have cat : s.pump.cat = s.cat := pump_does (same_cat.mono rfl) rfl
    rw [settled, cat]
    exact ⟨req, rfl, pump_coder s⟩

end Sys2Proof.Claims
end

section
/-! SUPPORT. The restorations of a recovery (R42, R64, R84, R100, R154, R172, R197), for O9. -/

namespace Sys2Proof.Machine

theorem tfind_map {α : Type} (F : α → α) (n : Nat) (t : List (Nat × α)) : tfind n (t.map fun p => (p.1, F p.2)) = (tfind n t).map F := by
  induction t with
  | nil => rfl
  | cons p t ih =>
    obtain ⟨a, w⟩ := p
    rw [List.map_cons, tfind, tfind, ih]
    split <;> rfl

theorem indices_nodup (n : Nat) : (indices n).Nodup := by
  unfold indices
  refine List.Nodup.map (fun a b h => Subtype.ext (Fin.mk.inj h)) ?_
  exact List.nodup_attach.mpr List.nodup_range

theorem rising_map {α : Type} (F : α → α) {t : List (Nat × α)} (h : rising t = true) : rising (t.map fun p => (p.1, F p.2)) = true := by
  rw [rising_iff] at h ⊢
  have from_ : ∀ b, risesFrom b t → risesFrom b (t.map fun p => (p.1, F p.2)) := by
    clear h
    induction t with
    | nil => exact fun _ _ => trivial
    | cons p t ih => exact fun b h => ⟨h.1, ih _ h.2⟩
  exact from_ 0 h

namespace State

variable {s t u : State} {n m : Nat} {e : Extent} {g : Segment}

/-! ## Every segment's record changed alike -/

/-- A record whose segment is changed. -/
def withSegment (f : Segment → Segment) (e : Extent) : Extent :=
  match e.content with
  | .live st g => { e with content := .live st (f g) }
  | _ => e

theorem withSegment_live (f : Segment → Segment) {st : LiveState} (c : e.content = .live st g) :
    withSegment f e = { e with content := .live st (f g) } := by
  unfold withSegment
  rw [c]

theorem onSegments_table (f : Segment → Segment) (s : State) :
    (s.onSegments f).cat.table = s.cat.table.map fun p => (p.1, withSegment f p.2) := by
  unfold onSegments withSegment
  show s.cat.table.map _ = _
  exact List.map_congr_left fun p _ => by cases p.2.content <;> rfl

theorem extent?_onSegments (f : Segment → Segment) (s : State) (n : Nat) : (s.onSegments f).extent? n = (s.extent? n).map (withSegment f) := by
  have table := onSegments_table f s
  have usable : (s.onSegments f).usable n = s.usable n := rfl
  have built : (s.onSegments f).tableBuilt = s.tableBuilt := rfl
  unfold extent?
  rw [usable, built, table]
  unfold dfind
  rw [tfind_map]
  split
  · cases tfind n s.cat.table <;> rfl
  · rfl

theorem live?_onSegments (f : Segment → Segment) {st : LiveState} (h : s.live? n = some (st, g)) :
    (s.onSegments f).live? n = some (st, f g) := by
  obtain ⟨e, he, c⟩ := live?_eq_some_iff.mp h
  refine live?_of_extent (e := { e with content := .live st (f g) }) ?_ rfl
  rw [extent?_onSegments, he, Option.map_some, withSegment_live f c]

theorem rising_onSegments (f : Segment → Segment) (h : rising s.cat.table = true) : rising (s.onSegments f).cat.table = true := by
  rw [onSegments_table]
  exact rising_map _ h

/-! ## An erase that fails at once (R134, R147) -/

/-- The journal's store and line only grow. -/
structure Grows (s t : State) : Prop where
  store : s.jnl.store <+: t.jnl.store
  line : s.jnl.line <+: t.jnl.line

theorem Grows.refl (s : State) : Grows s s := ⟨List.prefix_rfl, List.prefix_rfl⟩
theorem Grows.trans (h : Grows s t) (g : Grows t u) : Grows s u := ⟨h.store.trans g.store, h.line.trans g.line⟩
theorem Grows.of_quiet (h : Quiet s t) : Grows s t := ⟨h.store, h.line⟩
theorem Grows.of_jnl (h : t.jnl = s.jnl) : Grows s t := by
  constructor <;> rw [h]
theorem Grows.submitted (h : Grows s t) {b : EntryBody} (hb : Claims.Submitted b s) : Claims.Submitted b t :=
  hb.imp (fun ⟨e, he, hb⟩ => ⟨e, h.store.mem he, hb⟩) fun ⟨x, hx, hb⟩ => ⟨x, h.line.mem hx, hb⟩

theorem eraseDone_grows (n : Nat) (ok : Bool) (s : State) : Grows s (s.eraseDone n ok) := by
  unfold eraseDone
  split
  · refine .trans ?_ (.of_quiet (unbindEdition_quiet ..))
    have judged (x : State) (k : StreamKey) : Grows x ((x.dropFromDir k).judgeWatch) :=
      .of_jnl ((judgeWatch_jnl _).trans (dropFromDir_jnl ..))
    have set (x : Extent) : Grows s (s.setExtent n x) := .of_jnl rfl
    split
    · exact (set _).trans (judged _ _)
    · exact ((set _).trans (judged _ _)).trans (.of_quiet (log_quiet ..))
    · exact ((set _).trans (judged _ _)).trans (.of_quiet (log_quiet ..))
  · exact .refl s

/-- What is submitted for an erase that fails. -/
def expiredSub (n : Nat) (g : Segment) : Submission :=
  { entries := [EntryBody.mk0 .segmentExpired (.key g.key) n g.part 3], who := .block, acts := [.eraseDone n false] }

/-- An erase that fails retires its extent, or waits in the line to do so. -/
structure EraseFails (n : Nat) (e : Extent) (g : Segment) (s t : State) : Prop where
  grows : Grows s t
  others : ∀ m, m ≠ n → t.extent? m = s.extent? m
  entry : Claims.Submitted (EntryBody.mk0 .segmentExpired (.key g.key) n g.part 3) t
  here : t.extent? n = some { content := .retired, erases := e.erases, fault := true } ∨
    (t.extent? n = some { e with fault := true } ∧ expiredSub n g ∈ t.jnl.line)

theorem eraseArrives_eq (h : s.extent? n = some e) (c : e.content = .live .erasing g) : s.eraseArrives n false =
    if ((s.markFault n).submit (expiredSub n g)).2 then ((s.markFault n).submit (expiredSub n g)).1.eraseDone n false
    else ((s.markFault n).submit (expiredSub n g)).1 := by
  obtain ⟨content, er, fault⟩ := e
  obtain rfl : content = .live .erasing g := c
  unfold eraseArrives
  rw [h]
  rfl

theorem eraseArrives_of_not (h : ∀ e g, s.extent? n = some e → e.content ≠ .live .erasing g) : s.eraseArrives n false = s := by
  unfold eraseArrives
  split
  · rename_i g er fl hg
    exact absurd rfl (h _ g hg)
  · rfl

theorem eraseArrives_fails (h : s.extent? n = some e) (c : e.content = .live .erasing g) : EraseFails n e g s (s.eraseArrives n false) := by
  have eq := eraseArrives_eq h c
  have marked : (s.markFault n).extent? n = some { e with fault := true } := extent?_markFault h c
  have others (m : Nat) (ne : m ≠ n) : (s.markFault n).extent? m = s.extent? m := by
    unfold markFault
    exact extent?_onExtent_ne ne _
  have grows : Grows s (s.markFault n) := .of_jnl (markFault_does (same_jnl.mono rfl) n rfl)
  rw [eq]
  generalize s.markFault n = x at *
  have built := built_of_extent marked
  have seg := submit_segments (expiredSub n g) x
  have quiet := submit_quiet (expiredSub n g) x
  by_cases takes : x.takesAtOnce (expiredSub n g) = true
  · have taken := submit_of_takes built takes
    have stored := stored_of_took (takeSubmission_jnl (expiredSub n g).entries x)
    have done := eraseDone_done (s := (x.submit (expiredSub n g)).1) (n := n) (e := { e with fault := true }) (g := g)
      ((seg.extent? n).trans marked) c false
    rw [if_pos (by rw [taken])]
    refine ⟨(grows.trans (.of_quiet quiet)).trans (eraseDone_grows ..), fun m ne => ?_, ?_, .inl ?_⟩
    · rw [done.others m ne, seg.extent?, others m ne]
    · refine (eraseDone_grows ..).submitted (.inl ?_)
      rw [taken]
      exact stored _ List.mem_cons_self
    · rw [done.extent, erased_failed]
  · have waits : x.submit (expiredSub n g) = (x.onJnl fun j => { j with line := j.line ++ [expiredSub n g] }, false) := by
      unfold takesAtOnce at takes
      unfold submit
      rw [journalOff_of_built built, if_neg (by decide), if_neg takes]
    rw [if_neg (by rw [waits]; exact Bool.false_ne_true)]
    refine ⟨grows.trans (.of_quiet quiet), fun m ne => ?_, .inr ?_, .inr ⟨?_, ?_⟩⟩
    · rw [seg.extent?, others m ne]
    · rw [waits]
      exact ⟨expiredSub n g, List.mem_append_right _ List.mem_cons_self, List.mem_cons_self⟩
    · rw [seg.extent?, marked]
    · rw [waits]
      exact List.mem_append_right _ List.mem_cons_self

/-! ## The erases re-issued (R42, R154) -/

/-- What an erase issued, or several, leave: the other extents, the journal's entries, the background queues and what is ONLINE. -/
structure Issues (ms : List Nat) (s t : State) : Prop where
  others : ∀ m, m ∉ ms → t.extent? m = s.extent? m
  grows : Grows s t
  back : ∀ l x, x ∈ (bget s.lanes.lane l).backQ → x ∈ (bget t.lanes.lane l).backQ
  online : ∀ l, t.isOnline l = s.isOnline l

theorem Issues.trans {ms ns : List Nat} (h : Issues ms s t) (g : Issues ns t u) : Issues (ms ++ ns) s u where
  others m out := by
    rw [List.mem_append, not_or] at out
    rw [g.others m out.2, h.others m out.1]
  grows := h.grows.trans g.grows
  back l x hx := g.back l x (h.back l x hx)
  online l := (g.online l).trans (h.online l)

theorem eraseDone_queues (n : Nat) (ok : Bool) (s : State) : QueuesStand s (s.eraseDone n ok) := by
  unfold eraseDone
  split
  · refine .trans ?_ (unbindEdition_queues ..)
    have judged (y : Extent) (k : StreamKey) : QueuesStand s (((s.setExtent n y).dropFromDir k).judgeWatch) :=
      .trans (t := (s.setExtent n y).dropFromDir k) (dropFromDir_does (QueuesStand.obeys.mono rfl) k (s := s.setExtent n y) (.of_lanes rfl))
        (judgeWatch_queues _)
    split
    · exact judged _ _
    · exact (judged _ _).trans (log_queues ..)
    · exact (judged _ _).trans (log_queues ..)
  · exact .refl s

theorem eraseArrives_issues (n : Nat) (s : State) : Issues [n] s (s.eraseArrives n false) := by
  by_cases c : ∃ e g, s.extent? n = some e ∧ e.content = .live .erasing g
  · obtain ⟨e, g, h, c⟩ := c
    have fails := eraseArrives_fails h c
    have queues : QueuesStand s (s.eraseArrives n false) := by
      have submitted : QueuesStand s ((s.markFault n).submit (expiredSub n g)).1 :=
        .trans (markFault_does (QueuesStand.obeys.mono rfl) n (.refl s)) (submit_queues ..)
      rw [eraseArrives_eq h c]
      split
      · exact submitted.trans (eraseDone_queues ..)
      · exact submitted
    refine ⟨fun m ne => fails.others m (by simpa using ne), fails.grows, fun l x hx => ?_, fun l => ?_⟩
    · obtain ⟨j, hj⟩ := queues.lane l
      rw [hj]
      exact hx
    · obtain ⟨j, hj⟩ := queues.lane l
      unfold isOnline
      rw [hj]
  · rw [eraseArrives_of_not fun e g h hc => c ⟨e, g, h, hc⟩]
    exact ⟨fun _ _ => rfl, .refl s, fun _ _ => id, fun _ => rfl⟩

theorem enqueueBack_issues (n : Nat) (l : LaneNo) (r : Request) (s : State) : Issues [n] s (s.enqueueBack l r) where
  others m _ := (enqueueBack_does (keeps_segments.mono rfl) l r (SegmentsStand.refl s)).extent? m
  grows := .of_jnl rfl
  back k x hx := by
    show x ∈ (bget (bmod s.lanes.lane l _) k).backQ
    by_cases same : l = k
    · subst same
      rw [bget_bmod_self]
      exact List.mem_append_left _ hx
    · rwa [bget_bmod_ne _ _ _ _ same]
  online k := (enqueueBack_does (keeps_segments.mono rfl) l r (SegmentsStand.refl s)).online k

theorem issueErase_issues (n : Nat) (s : State) : Issues [n] s (s.issueErase n) := by
  unfold issueErase
  split
  · exact enqueueBack_issues n _ _ s
  · exact eraseArrives_issues n s

theorem reissueAll_issues (ns : List Nat) (s : State) : Issues ns s (reissueAll ns s) := by
  induction ns generalizing s with
  | nil => exact ⟨fun _ _ => rfl, .refl s, fun _ _ => id, fun _ => rfl⟩
  | cons n ns ih => exact (issueErase_issues n s).trans (ih _)

/-- An erase is queued again where its lane is ONLINE. -/
theorem reissueAll_online {ns : List Nat} (nodup : ns.Nodup) (hn : n ∈ ns) (on : s.isOnline (laneOf n) = true) :
    (reissueAll ns s).extent? n = s.extent? n ∧ .erase n ∈ (bget (reissueAll ns s).lanes.lane (laneOf n)).backQ := by
  induction ns generalizing s with
  | nil => cases hn
  | cons m ns ih =>
    obtain ⟨out, nodup⟩ := List.nodup_cons.mp nodup
    have first := issueErase_issues m s
    by_cases same : n = m
    · subst same
      have rest := reissueAll_issues ns (s.issueErase n)
      have eq : s.issueErase n = s.enqueueBack (laneOf n) (.erase n) := if_pos on
      rw [reissueAll, rest.others n out]
      refine ⟨?_, rest.back _ _ ?_⟩
      · rw [eq]
        exact (enqueueBack_does (keeps_segments.mono rfl) _ _ (SegmentsStand.refl s)).extent? n
      · rw [eq]
        show _ ∈ (bget (bmod s.lanes.lane (laneOf n) _) (laneOf n)).backQ
        rw [bget_bmod_self]
        exact List.mem_append_right _ List.mem_cons_self
    · have here := first.others n (by simpa using same)
      obtain ⟨extent, queued⟩ := ih nodup ((List.mem_cons.mp hn).resolve_left same) ((first.online _).trans on)
      exact ⟨extent.trans here, queued⟩

/-- And fails at once where its lane is OFFLINE. -/
theorem reissueAll_offline {ns : List Nat} (nodup : ns.Nodup) (hn : n ∈ ns) (off : s.isOnline (laneOf n) = false)
    (h : s.extent? n = some e) (c : e.content = .live .erasing g) :
    Claims.Submitted (EntryBody.mk0 .segmentExpired (.key g.key) n g.part 3) (reissueAll ns s) ∧
    ((reissueAll ns s).extent? n = some { content := .retired, erases := e.erases, fault := true } ∨
      ((reissueAll ns s).extent? n = some { e with fault := true } ∧ expiredSub n g ∈ (reissueAll ns s).jnl.line)) := by
  induction ns generalizing s with
  | nil => cases hn
  | cons m ns ih =>
    obtain ⟨out, nodup⟩ := List.nodup_cons.mp nodup
    have first := issueErase_issues m s
    by_cases same : n = m
    · subst same
      have rest := reissueAll_issues ns (s.issueErase n)
      have eq : s.issueErase n = s.eraseArrives n false := if_neg (by rw [off]; decide)
      have fails := eraseArrives_fails h c
      rw [reissueAll, rest.others n out, eq]
      rw [eq] at rest
      exact ⟨rest.grows.submitted fails.entry, fails.here.imp id fun ⟨x, there⟩ => ⟨x, rest.grows.line.mem there⟩⟩
    · exact ih nodup ((List.mem_cons.mp hn).resolve_left same) ((first.online _).trans off)
        ((first.others n (by simpa using same)).trans h)

/-! ## The catalog's restoration (R42, R154 step 2) -/

theorem mem_erasings_iff (n : Nat) : n ∈ s.erasings ↔ ∃ g, s.live? n = some (.erasing, g) := by
  unfold erasings
  rw [List.mem_filterMap]
  constructor
  · rintro ⟨p, -, eq⟩
    split at eq
    · rename_i g live
      cases eq
      exact ⟨g, live⟩
    · cases eq
  · rintro ⟨g, live⟩
    obtain ⟨e, mem⟩ := listed_of_live live
    exact ⟨(n, e), mem, by rw [live]⟩

/-- The numbers of a rising table are listed once each. -/
theorem erasings_nodup (h : rising s.cat.table = true) : s.erasings.Nodup := by
  have rises {α : Type} {t : List (Nat × α)} : ∀ b, risesFrom b t → (t.Pairwise fun x y => x.1 < y.1) ∧ ∀ p ∈ t, b ≤ p.1 := by
    induction t with
    | nil => exact fun _ _ => ⟨.nil, fun _ hp => by cases hp⟩
    | cons q t ih =>
      intro b h
      obtain ⟨pairs, above⟩ := ih _ h.2
      have first := h.1
      refine ⟨List.pairwise_cons.mpr ⟨fun p hp => above p hp, pairs⟩, fun p hp => ?_⟩
      rcases List.mem_cons.mp hp with rfl | later
      · exact first
      · have := above p later
        omega
  have listed := (rises 0 ((rising_iff _).mp h)).1
  unfold erasings
  rw [List.Nodup, List.pairwise_filterMap]
  refine listed.imp fun {p q} lt x hx y hy => ?_
  split at hx <;> split at hy <;> simp_all
  omega

/-- What the restart keeps of a segment: no store in flight, the reserve mark at the byte count. -/
def restarted (g : Segment) : Segment := { g with inFlight := 0, reserve := g.bytes }

/-- The catalog with its FILLING segments closed, before the erases are issued. -/
def recoverClosed (s : State) : State :=
  closeAll .recovery ((s.onSegments restarted).fillings.map Prod.fst) (s.onSegments restarted)

theorem recoverCatalog_eq (s : State) : s.recoverCatalog = reissueAll s.recoverClosed.erasings s.recoverClosed := rfl

theorem mem_closed (n : Nat) : n ∈ (s.onSegments restarted).fillings.map Prod.fst ↔ ∃ g, (s.onSegments restarted).live? n = some (.filling, g) := by
  rw [List.mem_map]
  constructor
  · rintro ⟨⟨m, g⟩, mem, rfl⟩
    exact ⟨g, (mem_fillings_iff m g).mp mem⟩
  · rintro ⟨g, live⟩
    exact ⟨(n, g), (mem_fillings_iff n g).mpr live, rfl⟩

section catalog

variable (hr : rising s.cat.table = true)
include hr

theorem extent?_recoverClosed {st : LiveState} (h : s.extent? n = some e) (c : e.content = .live st g) :
    s.recoverClosed.extent? n = some (closedExtent { e with content := .live st (restarted g) }) := by
  have here : (s.onSegments restarted).extent? n = some { e with content := .live st (restarted g) } := by
    rw [extent?_onSegments, h, Option.map_some, withSegment_live _ c]
  unfold recoverClosed
  rw [extent?_closeAll (rising_onSegments _ hr), here]
  split
  · rfl
  · rename_i out
    rw [closedExtent_other fun x hx => out ((mem_closed n).mpr ⟨x, ?_⟩)]
    exact live?_of_extent here hx

theorem rising_recoverClosed : rising s.recoverClosed.cat.table = true := rising_closeAll (rising_onSegments _ hr) _ _

omit hr in
theorem online_recoverClosed (l : LaneNo) : s.recoverClosed.isOnline l = s.isOnline l := by
  obtain ⟨j, hj⟩ := (closeAll_queues .recovery ((s.onSegments restarted).fillings.map Prod.fst) (s.onSegments restarted)).lane l
  unfold isOnline recoverClosed
  rw [hj]
  rfl

/-- A record that is not ERASING is final once the FILLING segments are closed. -/
theorem extent?_recoverCatalog {st : LiveState} (h : s.extent? n = some e) (c : e.content = .live st g) (ne : st ≠ .erasing) :
    s.recoverCatalog.extent? n = some (closedExtent { e with content := .live st (restarted g) }) := by
  have closed := extent?_recoverClosed hr h c
  rw [recoverCatalog_eq, (reissueAll_issues _ _).others n, closed]
  rw [mem_erasings_iff]
  rintro ⟨x, live⟩
  obtain ⟨y, hy, cy⟩ := live?_eq_some_iff.mp live
  obtain rfl := Option.some.inj (closed.symm.trans hy)
  cases st with
  | filling =>
    rw [closedExtent_filling rfl] at cy
    dsimp only [closedContent] at cy
    split at cy <;> cases cy
  | closed => rw [closedExtent_other fun _ c => by cases c] at cy; cases cy
  | erasing => exact ne rfl

theorem erasing_recoverClosed (h : s.extent? n = some e) (c : e.content = .live .erasing g) :
    s.recoverClosed.extent? n = some { e with content := .live .erasing (restarted g) } ∧ n ∈ s.recoverClosed.erasings := by
  have closed := extent?_recoverClosed hr h c
  rw [closedExtent_other fun _ c => by cases c] at closed
  exact ⟨closed, (mem_erasings_iff n).mpr ⟨restarted g, live?_of_extent closed rfl⟩⟩

end catalog

/-! ## The grants after a restoration (R126) -/

theorem restoreNext_eq (e : s.engine = .recovering) {k : Nat} (made : s.recovery.made = k) : s.restoreNext =
    (restoration s.recovery.cause k { s with recovery := { s.recovery with made := s.recovery.made + 1 } }).pump := by
  rw [restoreNext, if_pos e, made]

theorem pump_granted (s : State) (l : LaneNo) :
    Lane.grant s.pump.lanes.share (bget s.pump.lanes.lane l) = bget s.pump.lanes.lane l := by
  obtain ⟨j, hj⟩ := pump_lane s l
  rw [hj, pump_share, Lane.grant_grant]

/-! ## Staging and the feed unit (R64) -/

theorem abortBinding_bindings (c : ChanNo) (s : State) : (s.abortBinding c).feed.bindings = bset s.feed.bindings c none := by
  unfold abortBinding
  split
  · rename_i sw a _
    have feed : (postEach .block (restartEntries sw a.restarts (s.switchCtx sw).expected)
        (s.post .block (abortedPair sw a .restart))).feed = s.feed :=
      postEach_does (same_feed.mono rfl) _ _ (post_does (same_feed.mono rfl) _ _ rfl)
    rw [← feed]
    rfl
  · rfl

theorem abortBindings_none (cs : List ChanNo) (s : State) (c : ChanNo) (h : c ∈ cs ∨ bget s.feed.bindings c = none) :
    bget (cs.foldl (fun t c => t.abortBinding c) s).feed.bindings c = none := by
  induction cs generalizing s with
  | nil => exact h.resolve_left (by simp)
  | cons d cs ih =>
    refine ih _ ?_
    rw [abortBinding_bindings]
    by_cases same : d = c
    · subst same
      exact .inr (bget_bset_self _ _ _)
    · rw [bget_bset_ne _ _ _ _ same]
      exact h.imp_left fun mem => (List.mem_cons.mp mem).resolve_left (Ne.symm same)

theorem recoverFeed_bindings (s : State) (c : ChanNo) : bget s.recoverFeed.feed.bindings c = none := by
  unfold recoverFeed
  generalize (s.onPages fun ps => ps.map recoverPage).freePages = x
  exact abortBindings_none (indices 8) x c (.inl (mem_indices c))

theorem recoverFeed_pages (s : State) : s.recoverFeed.pool.pages = (s.pool.pages.map recoverPage).filter (fun p => !p.done) := by
  have pool : s.recoverFeed.pool = (s.onPages fun ps => ps.map recoverPage).freePages.pool :=
    foldl_does _ (fun _ c h => abortBinding_does (same_pool.mono rfl) c h) _ rfl
  rw [pool]
  rfl

theorem recoverPage_fields (p : Page) : (recoverPage p).owner = none ∧ (∀ x ∈ (recoverPage p).places, x.standing ≠ .inFlight) ∧
    (recoverPage p).key = p.key ∧ (recoverPage p).sealedUp = (p.sealedUp || p.owner.isSome) ∧
    (recoverPage p).places.map Place.data = (if p.owner.isSome then p.places.take p.committed else p.places).map Place.data := by
  have settled : ∀ x ∈ p.places.map Place.recover, x.standing ≠ .inFlight := by
    intro x hx
    obtain ⟨y, -, rfl⟩ := List.mem_map.mp hx
    unfold Place.recover
    dsimp only
    split
    · decide
    · assumption
  have data (xs : List Place) : (xs.map Place.recover).map Place.data = xs.map Place.data := by
    rw [List.map_map]
    rfl
  unfold recoverPage
  dsimp only
  cases owner : p.owner with
  | none =>
    rw [if_neg (by decide), if_neg (by decide)]
    exact ⟨rfl, settled, rfl, by simp, data _⟩
  | some c =>
    simp only [Option.isSome_some, if_true]
    unfold cutPage
    refine ⟨rfl, fun x hx => settled x (List.mem_of_mem_take hx), rfl, by simp, ?_⟩
    rw [← List.map_take]
    exact data _

/-! ## Switches and edition slots (R84, R100) -/

theorem recoverRecon_switchCtx (n : Nat) (s : State) : s.recoverRecon.switchCtx n =
    { s.switchCtx n with state := if (s.switchCtx n).state = .feeding then .idle else (s.switchCtx n).state } := by
  have found := tfind_map (fun x : SwitchCtx => if x.state = .feeding then { x with state := .idle } else x) n s.recon.switches
  have eq : s.recoverRecon.switchCtx n = dfind SwitchCtx.unseen n (s.recon.switches.map fun p =>
      (p.1, if p.2.state = .feeding then { p.2 with state := .idle } else p.2)) := rfl
  rw [eq, switchCtx, dfind, dfind, found]
  cases tfind n s.recon.switches with
  | none => rfl
  | some x =>
    show (if x.state = .feeding then { x with state := .idle } else x) = { x with state := if x.state = .feeding then .idle else x.state }
    split <;> rfl

/-- A slot as a recovery leaves it. -/
def recounted (s : State) (i : SlotNo) : EditionSlot :=
  if (bget s.eds.slots i).state = .retained ∧ s.boundTo i = 0 then EditionSlot.freeSlot else { bget s.eds.slots i with refs := s.boundTo i }

theorem recountSlot_slots (i : SlotNo) (s : State) : (s.recountSlot i).eds.slots = bset s.eds.slots i (s.recounted i) := by
  have state : (bget (s.onSlot i fun x => { x with refs := s.boundTo i }).eds.slots i).state = (bget s.eds.slots i).state := by
    show (bget (bmod s.eds.slots i _) i).state = _
    rw [bget_bmod_self]
  unfold recountSlot recounted
  dsimp only
  rw [state]
  split
  · have eds (x : State) : (x.dropEdition i).eds = (x.onSlot i fun _ => EditionSlot.freeSlot).eds := log_does (same_eds.mono rfl) _ _ _ _ _ rfl
    rw [eds]
    show bset (bset s.eds.slots i _) i EditionSlot.freeSlot = _
    exact Vector.set_set ..
  · rfl

theorem recountSlot_boundTo (i : SlotNo) (s : State) : (s.recountSlot i).boundTo = s.boundTo := by
  funext j
  have cat : (s.recountSlot i).cat = s.cat := recountSlot_does (same_cat.mono rfl) i rfl
  unfold boundTo
  rw [cat]

theorem recountSlots_slot (is : List SlotNo) (nodup : is.Nodup) (s : State) (i : SlotNo) :
    bget (is.foldl (fun t i => t.recountSlot i) s).eds.slots i = if i ∈ is then s.recounted i else bget s.eds.slots i := by
  induction is generalizing s with
  | nil => rfl
  | cons j is ih =>
    obtain ⟨out, nodup⟩ := List.nodup_cons.mp nodup
    rw [List.foldl_cons, ih nodup]
    have slots := recountSlot_slots j s
    by_cases same : j = i
    · subst same
      rw [if_neg out, slots, bget_bset_self, if_pos List.mem_cons_self]
    · have slot : bget (s.recountSlot j).eds.slots i = bget s.eds.slots i := by rw [slots, bget_bset_ne _ _ _ _ same]
      have later : (s.recountSlot j).recounted i = s.recounted i := by
        unfold recounted
        rw [slot, recountSlot_boundTo]
      rw [slot, later]
      simp only [List.mem_cons, Ne.symm same, false_or]

theorem restoration_last (cause : StartCause) (s : State) : restoration cause 7 s = s.recoverCoder := by
  unfold restoration
  rfl

/-- The last restoration makes the engine READY (R197). -/
theorem recoverCoder_ready (s : State) : s.recoverCoder.pump.engine = .ready := by
  unfold recoverCoder
  have same (x : State) : x.settleOps.pump.engine = x.engine := pump_does (same_engine.mono rfl) (settleOps_does (same_engine.mono rfl) rfl)
  rw [same]

theorem recoverEditions_slot (i : SlotNo) (s : State) : bget s.recoverEditions.eds.slots i = s.recounted i := by
  unfold recoverEditions
  rw [recountSlots_slot _ (indices_nodup 32), if_pos (mem_indices i)]

end State

end Sys2Proof.Machine
end

section

namespace Sys2Proof.Claims
open Sys2Proof.Machine Sys2Proof.Machine.State

/-- Settles O9, restoration by restoration. -/
theorem recoveryRestoresTheBlocks : Obligations.RecoveryRestoresTheBlocks := by
  unfold Obligations.RecoveryRestoresTheBlocks
  refine ⟨fun s engine rises => ⟨fun n g live given => ?_, fun n g live empty => ?_, fun n g live => ?_, fun n g live on => ?_⟩,
    fun n e g s engine rises he c off => ?_, fun s => ⟨recoverFeed_pages s, fun c => ?_, recoverPage_fields⟩,
    recoverRecon_switchCtx, fun i s => ?_, fun n st g s live => live?_onSegments _ live, fun l s engine => ⟨?_, ?_⟩⟩
  · obtain ⟨e, he, c⟩ := live?_eq_some_iff.mp live
    refine live?_of_extent (extent?_recoverCatalog rises he c (fun c => by cases c)) ?_
    rw [closedExtent_filling rfl]
    exact if_neg given
  · obtain ⟨e, he, c⟩ := live?_eq_some_iff.mp live
    rw [extent?_recoverCatalog rises he c (fun c => by cases c), closedExtent_filling rfl]
    exact congrArg some (if_pos empty)
  · obtain ⟨e, he, c⟩ := live?_eq_some_iff.mp live
    refine live?_of_extent (extent?_recoverCatalog rises he c (fun c => by cases c)) ?_
    rw [closedExtent_other fun _ c => by cases c]
    rfl
  · obtain ⟨e, he, c⟩ := live?_eq_some_iff.mp live
    obtain ⟨closed, mem⟩ := erasing_recoverClosed rises he c
    obtain ⟨extent, queued⟩ := reissueAll_online (erasings_nodup (rising_recoverClosed rises)) mem
      ((online_recoverClosed _).trans on)
    exact ⟨live?_of_extent (extent.trans closed) rfl, queued⟩
  · obtain ⟨closed, mem⟩ := erasing_recoverClosed rises he c
    obtain ⟨entry, here⟩ := reissueAll_offline (erasings_nodup (rising_recoverClosed rises)) mem ((online_recoverClosed _).trans off)
      closed rfl
    exact ⟨entry, here.imp id fun ⟨extent, line⟩ => ⟨extent, _, line, rfl, rfl⟩⟩
  · exact recoverFeed_bindings s c
  · exact recoverEditions_slot i s
  · intro u
    have next {k : Nat} (made : s.recovery.made = k) : s.restoreNext = (restoration s.recovery.cause k u).pump := restoreNext_eq engine made
    clear_value u
    refine ⟨next, next, next, next, next, next, next, fun made => ?_⟩
    rw [next made, restoration_last]
    exact ⟨rfl, recoverCoder_ready u⟩
  · rw [restoreNext_eq engine rfl]
    exact pump_granted _ l

end Sys2Proof.Claims
end

section
/-! SUPPORT. The editions at a cut (R90 to R92) and the first event of an ADVANCE (R152), for O48. -/

namespace Sys2Proof.Machine.State

variable {s t u : State}

/-! ## What the closes, the entries and the settling leave of the editions and their counter -/

/-- EDITIONS has not advanced. -/
def EditionsHeld (s t : State) : Prop :=
  bget t.desk.counters Counter.editions.index = bget s.desk.counters Counter.editions.index

theorem EditionsHeld.of_quiet (h : Quiet s t) : EditionsHeld s t := h.counters .editions (by decide)
theorem EditionsHeld.of_counters (h : t.desk.counters = s.desk.counters) : EditionsHeld s t := by rw [EditionsHeld, h]

theorem EditionsHeld.trans (h : EditionsHeld s t) (g : EditionsHeld t u) : EditionsHeld s u := Eq.trans g h

theorem judgeWatch_editionsHeld (s : State) : EditionsHeld s s.judgeWatch := by
  unfold judgeWatch
  dsimp only
  split
  · rfl
  · generalize (if s.sideLow = true then s.cat.watch.falling else s.cat.watch.rising) = crosses
    cases crosses
    · rfl
    · exact notice_counter_ne (c := .freeWatch) (k := .editions) (by decide) _

theorem closeSegment_editionsHeld (cause : CloseCause) (n : Nat) (s : State) : EditionsHeld s (s.closeSegment cause n) := by
  unfold closeSegment
  split
  · rename_i g hg
    have dir : EditionsHeld s (s.onDir g.key unfilled) := .of_counters (onDir_does (same_counters.mono rfl) _ _ rfl)
    dsimp only
    split
    · refine .trans ?_ (.of_quiet (log_quiet ..))
      refine .trans ?_ (.of_counters (dropFromDir_does (same_counters.mono rfl) _ rfl))
      refine .trans ?_ (.of_quiet (unbindEdition_quiet ..))
      refine .trans ?_ (judgeWatch_editionsHeld _)
      exact dir.trans (.of_counters (setContent_does (same_counters.mono rfl) _ _ rfl))
    · exact (dir.trans (.of_counters (setContent_does (same_counters.mono rfl) _ _ rfl))).trans (.of_quiet (log_quiet ..))
  · rfl

theorem closeAll_editionsHeld (cause : CloseCause) (ns : List Nat) (s : State) : EditionsHeld s (closeAll cause ns s) := by
  induction ns generalizing s with
  | nil => rfl
  | cons n ns ih => exact (closeSegment_editionsHeld cause n s).trans (ih _)

theorem settle_editionsHeld (s : State) : EditionsHeld s s.settle :=
  ((EditionsHeld.of_counters (resumeStalled_does (same_counters.mono rfl) rfl)).trans (.of_quiet (runCoder_quiet _))).trans
    (.of_quiet (pump_quiet _))

theorem settle_remembers (s : State) : Remembers s s.settle :=
  ((Remembers.of_jnl (resumeStalled_does (same_jnl.mono rfl) rfl)).trans (.of_quiet (runCoder_quiet _))).trans (.of_quiet (pump_quiet _))

/-- Unbindings leave the serial and the tallies, and a slot that is FREE stays so. -/
structure Unbinds (s t : State) : Prop where
  eds : t.eds = { s.eds with slots := t.eds.slots }
  free : ∀ i, (bget s.eds.slots i).state = .free → (bget t.eds.slots i).state = .free

namespace Unbinds

theorem of_eds (h : t.eds = s.eds) : Unbinds s t := ⟨by rw [h], by simp [h]⟩
theorem trans (h : Unbinds s t) (g : Unbinds t u) : Unbinds s u := ⟨by rw [g.eds, h.eds], fun i hi => g.free i (h.free i hi)⟩
theorem tables (h : Unbinds s t) : t.eds.cutTables = s.eds.cutTables := by rw [h.eds]; rfl

theorem onSlot (i : SlotNo) {f : EditionSlot → EditionSlot} (hf : ∀ x, x.state = .free → (f x).state = .free) (s : State) :
    Unbinds s (s.onSlot i f) where
  eds := rfl
  free j hj := by
    by_cases same : i = j
    · subst same
      rw [show bget (s.onSlot i f).eds.slots i = f (bget s.eds.slots i) from bget_bmod_self _ _ _]
      exact hf _ hj
    · rw [show bget (s.onSlot i f).eds.slots j = bget s.eds.slots j from bget_bmod_ne _ _ _ _ same]
      exact hj

theorem freeSlot (h : Unbinds s t) (free : s.freeSlot.isSome = true) : t.freeSlot.isSome = true := by
  unfold State.freeSlot at free ⊢
  rw [List.find?_isSome] at free ⊢
  obtain ⟨i, mem, hi⟩ := free
  exact ⟨i, mem, beq_iff_eq.mpr (h.free i (beq_iff_eq.mp hi))⟩

end Unbinds

theorem log_eds (k : EntryKind) (sub : Subject) (v1 : Int) (v2 v3 : Nat) (s : State) : (s.log k sub v1 v2 v3).eds = s.eds :=
  log_does (same_eds.mono rfl) k sub v1 v2 v3 rfl

theorem unbindEdition_unbinds (ref : Option EditionRef) (s : State) : Unbinds s (s.unbindEdition ref) := by
  unfold unbindEdition
  cases ref with
  | none => exact .of_eds rfl
  | some r =>
    have taken := Unbinds.onSlot r.slot (f := fun x => { x with refs := x.refs - 1 }) (fun _ h => h) s
    dsimp only
    split
    · exact (taken.trans (Unbinds.onSlot r.slot (fun _ _ => rfl) _)).trans (.of_eds (log_eds ..))
    · exact taken

theorem closeSegment_unbinds (cause : CloseCause) (n : Nat) (s : State) : Unbinds s (s.closeSegment cause n) := by
  by_cases live : ∃ g, s.live? n = some (.filling, g)
  · obtain ⟨g, live⟩ := live
    by_cases given : g.reserve = 0
    · rw [closeSegment_of_ungiven live given]
      refine Unbinds.trans ?_ (.of_eds ((log_eds ..).trans (dropFromDir_does (same_eds.mono rfl) _ rfl)))
      refine Unbinds.trans (.of_eds ?_) (unbindEdition_unbinds _ _)
      exact judgeWatch_does (same_eds.mono rfl) (setContent_does (same_eds.mono rfl) _ _ (onDir_does (same_eds.mono rfl) _ _ rfl))
    · rw [closeSegment_of_given live given]
      exact .of_eds ((log_eds ..).trans (setContent_does (same_eds.mono rfl) _ _ (onDir_does (same_eds.mono rfl) _ _ rfl)))
  · rw [closeSegment_of_not fun g h => live ⟨g, h⟩]
    exact .of_eds rfl

theorem closeAll_unbinds (cause : CloseCause) (ns : List Nat) (s : State) : Unbinds s (closeAll cause ns s) := by
  induction ns generalizing s with
  | nil => exact .of_eds rfl
  | cons n ns ih => exact (closeSegment_unbinds cause n s).trans (ih _)

/-! ## A cut from the tallies -/

theorem freeSlot_free {i : SlotNo} (h : s.freeSlot = some i) : (bget s.eds.slots i).state = .free :=
  beq_iff_eq.mp (List.find?_some (p := fun i => (bget s.eds.slots i).state == _) h)

theorem currentSlot_current {i : SlotNo} (h : s.currentSlot = some i) : (bget s.eds.slots i).state = .current :=
  beq_iff_eq.mp (List.find?_some (p := fun i => (bget s.eds.slots i).state == _) h)

theorem bget_onSlot_ne {i j : SlotNo} (h : i ≠ j) (f : EditionSlot → EditionSlot) (s : State) :
    bget (s.onSlot i f).eds.slots j = bget s.eds.slots j := bget_bmod_ne _ _ _ _ h

/-- The slot that was CURRENT is let go, and no other slot changes. -/
theorem retireCurrent_ne {i c : SlotNo} (h : c ≠ i) (s : State) : bget (s.retireCurrent c).eds.slots i = bget s.eds.slots i ∧
    (s.retireCurrent c).eds = { s.eds with slots := (s.retireCurrent c).eds.slots } := by
  unfold retireCurrent
  split
  · exact ⟨bget_onSlot_ne h _ s, rfl⟩
  · unfold dropEdition
    rw [log_eds]
    exact ⟨bget_onSlot_ne h _ s, rfl⟩

theorem retireCurrent_quiet (c : SlotNo) (s : State) : Quiet s (s.retireCurrent c) := by
  unfold retireCurrent
  split
  · exact onSlot_quiet _ _ s
  · exact dropEdition_quiet c s

theorem onEds_quiet (f : Editions → Editions) (s : State) : Quiet s (s.onEds f) := .of_same rfl rfl rfl rfl rfl rfl rfl rfl rfl

/-- The edition that a cut from the tallies makes, in the slot it takes. -/
structure CutMade (i : SlotNo) (s t : State) : Prop where
  serial : t.eds.serial = nextSerial s.eds.serial
  routes : t.eds.routes = tallyHalve s.eds.routes
  sites : t.eds.sites = tallyHalve s.eds.sites
  prefixes : t.eds.prefixes = tallyHalve s.eds.prefixes
  slot : bget t.eds.slots i = { state := .current, serial := nextSerial s.eds.serial, refs := 0, edition := s.eds.cutTables }
  submits : s.engine = .ready → Claims.Submitted
    (EntryBody.mk0 .editionCut .none (nextSerial s.eds.serial).toNat i.val CutSource.auto.code) t

/-- What an event leaves that may advance EDITIONS once and makes entries. -/
structure CutGoesOn (s t : State) : Prop where
  counted : bget t.desk.counters Counter.editions.index = bget s.desk.counters Counter.editions.index + 1
  remembers : Remembers s t

theorem notice_editions_goesOn (h : Quiet s t) : CutGoesOn s (t.notice .editions) where
  counted := by rw [notice_counters, bget_bset_self, h.counters .editions (by decide)]
  remembers := (Remembers.of_quiet h).trans (.of_jnl (notice_does (same_jnl.mono rfl) .editions rfl))

theorem cut_of_none (h : s.freeSlot = none) : s.cut .auto = (s.notice .editions, none) := by
  unfold cut install
  rw [h]

/-- The edition built from the tallies stands in its slot. -/
def cutInto (i : SlotNo) (s : State) : State :=
  (s.onSlot i fun _ => { state := .current, serial := nextSerial s.eds.serial, refs := 0, edition := s.eds.cutTables }).onEds
    fun e => { e with serial := nextSerial s.eds.serial }

/-- The slot that was CURRENT, if there was one, is let go. -/
def retireOld (old : Option SlotNo) (s : State) : State :=
  match old with
  | some c => s.retireCurrent c
  | none => s

/-- Every tally is halved. -/
def halveTallies (s : State) : State :=
  s.onEds fun e => { e with routes := tallyHalve e.routes, sites := tallyHalve e.sites, prefixes := tallyHalve e.prefixes }

theorem cut_of_free {i : SlotNo} (h : s.freeSlot = some i) : s.cut .auto =
    (((((s.cutInto i).retireOld s.currentSlot).halveTallies.log .editionCut .none (nextSerial s.eds.serial).toNat i.val
      CutSource.auto.code)).notice .editions, some (i, nextSerial s.eds.serial)) := by
  unfold cut install
  rw [h]
  dsimp only
  rw [if_neg (by decide)]
  rfl

theorem retireOld_ne {i : SlotNo} {old : Option SlotNo} (h : old ≠ some i) (s : State) :
    bget (s.retireOld old).eds.slots i = bget s.eds.slots i ∧
    (s.retireOld old).eds = { s.eds with slots := (s.retireOld old).eds.slots } := by
  cases old with
  | none => exact ⟨rfl, rfl⟩
  | some c => exact retireCurrent_ne (fun same => h (congrArg some same)) s

theorem retireOld_quiet (old : Option SlotNo) (s : State) : Quiet s (s.retireOld old) := by
  cases old with
  | none => exact .refl s
  | some c => exact retireCurrent_quiet c s

theorem cut_made {i : SlotNo} (h : s.freeSlot = some i) : (s.cut .auto).2 = some (i, nextSerial s.eds.serial) ∧
    CutMade i s (s.cut .auto).1 ∧ CutGoesOn s (s.cut .auto).1 := by
  have apart : s.currentSlot ≠ some i := fun c =>
    absurd ((freeSlot_free h).symm.trans (currentSlot_current c)) (by decide)
  obtain ⟨slot, rest⟩ := retireOld_ne apart (s.cutInto i)
  have started : Quiet s (s.cutInto i) := .of_same rfl rfl rfl rfl rfl rfl rfl rfl rfl
  have quiet : Quiet s ((s.cutInto i).retireOld s.currentSlot).halveTallies :=
    (started.trans (retireOld_quiet s.currentSlot _)).trans (onEds_quiet _ _)
  rw [cut_of_free h]
  generalize (s.cutInto i).retireOld s.currentSlot = retired at slot rest quiet
  have eds : ((retired.halveTallies.log .editionCut .none (nextSerial s.eds.serial).toNat i.val CutSource.auto.code).notice
      .editions).eds = retired.halveTallies.eds := (notice_does (same_eds.mono rfl) .editions rfl).trans (log_eds ..)
  refine ⟨rfl, ⟨?_, ?_, ?_, ?_, ?_, fun ready => ?_⟩, notice_editions_goesOn (quiet.trans (log_quiet ..))⟩
  · rw [eds]
    exact congrArg Editions.serial rest
  · rw [eds]
    exact congrArg (fun e => tallyHalve e.routes) rest
  · rw [eds]
    exact congrArg (fun e => tallyHalve e.sites) rest
  · rw [eds]
    exact congrArg (fun e => tallyHalve e.prefixes) rest
  · rw [eds]
    exact slot.trans (bget_bmod_self _ _ _)
  · exact Remembers.of_jnl (notice_does (same_jnl.mono rfl) .editions rfl) _ (log_submitted (quiet.engine.trans ready) _ _ _ _ _)

/-! ## Late closes (R33) and the gap horizon (R80) -/

theorem live?_closeAll_of_closed {n : Nat} {g : Segment} (h : s.live? n = some (.closed, g)) (cause : CloseCause) (ns : List Nat) :
    (closeAll cause ns s).live? n = some (.closed, g) := by
  induction ns generalizing s with
  | nil => exact h
  | cons m ns ih =>
    refine ih ?_
    by_cases same : n = m
    · subst same
      rwa [closeSegment_of_not fun g hg => by rw [h] at hg; cases hg]
    · rwa [live?_closeSegment_ne same]

/-- A segment that has been given a store is CLOSED with its fields kept. -/
theorem live?_closeAll_of_given {n : Nat} {g : Segment} {ns : List Nat} (mem : n ∈ ns) (h : s.live? n = some (.filling, g))
    (given : g.reserve ≠ 0) (cause : CloseCause) : (closeAll cause ns s).live? n = some (.closed, g) := by
  induction ns generalizing s with
  | nil => cases mem
  | cons m ns ih =>
    by_cases same : n = m
    · subst same
      exact live?_closeAll_of_closed (live?_closeSegment h given cause) cause ns
    · exact ih ((List.mem_cons.mp mem).resolve_left same) ((live?_closeSegment_ne same cause).trans h)

theorem mem_lateSegments_iff (d n : Nat) : n ∈ s.lateSegments d ↔
    ∃ g, s.live? n = some (.filling, g) ∧ g.key.day + s.ret.lateWindow < d := by
  simp [lateSegments, List.mem_map, List.mem_filter, mem_fillings_iff]

/-- Each range beyond the horizon has its entry. -/
theorem horizonGaps_abandons {d h : Nat} {rs : List Range} {r : Range} (mem : r ∈ rs) (past : r.day + h < d) :
    EntryBody.mk0 .gapAbandoned (.switch r.switch) r.first.toNat r.count GapCause.horizon.code ∈ (horizonGaps d h rs).2 := by
  induction rs with
  | nil => cases mem
  | cons q rs ih =>
    unfold horizonGaps
    dsimp only
    obtain rfl | later := List.mem_cons.mp mem
    · rw [if_pos past]
      exact List.mem_cons_self
    · split
      · exact List.mem_cons_of_mem _ (ih later)
      · exact ih later

theorem abandonHorizon_eq (d : Nat) (s : State) : s.abandonHorizon d =
    postEach .block (horizonGaps d s.ret.gapHorizon s.recon.gaps).2
      (s.onRecon fun r => { r with gaps := (horizonGaps d s.ret.gapHorizon s.recon.gaps).1 }) := rfl

theorem abandonHorizon_recon (d : Nat) (s : State) :
    (s.abandonHorizon d).recon = { s.recon with gaps := (horizonGaps d s.ret.gapHorizon s.recon.gaps).1 } :=
  postEach_does (same_recon.mono rfl) .block _ rfl

theorem abandonHorizon_does_eds (d : Nat) (s : State) : (s.abandonHorizon d).eds = s.eds := abandonHorizon_does (same_eds.mono rfl) d rfl

theorem abandonHorizon_remembers (d : Nat) (s : State) : Remembers s (s.abandonHorizon d) := by
  rw [abandonHorizon_eq]
  refine .trans ?_ (.of_quiet (postEach_quiet ..))
  exact .of_jnl rfl

theorem abandonHorizon_editionsHeld (d : Nat) (s : State) : EditionsHeld s (s.abandonHorizon d) := by
  rw [abandonHorizon_eq]
  refine .trans ?_ (.of_quiet (postEach_quiet ..))
  exact .of_counters rfl

/-! ## The event in its stages -/

/-- The day is taken and DAY-ADVANCED submitted. -/
def dayTaken (o : Op) (d : Nat) (s : State) : State :=
  (s.onRet fun r => { r with day := d }).post (.op o.adm) [EntryBody.mk0 .dayAdvanced .none s.ret.day d 0]

/-- The late closes and the abandonment. -/
def dayClosed (o : Op) (d : Nat) (s : State) : State :=
  (closeAll .lateWindow (s.lateSegments d) (s.dayTaken o d)).abandonHorizon d

/-- The automatic cut. -/
def dayCut (o : Op) (d : Nat) (s : State) : State :=
  if s.ret.autoCut then ((s.dayClosed o d).cut .auto).1 else s.dayClosed o d

/-- The outcome of the cut that DAY-SUMMARY is to give. -/
def dayOutcome (o : Op) (d : Nat) (s : State) : CutOutcome :=
  if s.ret.autoCut then
    match ((s.dayClosed o d).cut .auto).2 with
    | some (_, serial) => .made serial
    | none => .full
  else .off

variable (o : Op) (d : Nat)

theorem dayTaken_cat (s : State) : (s.dayTaken o d).cat = s.cat := post_does (same_cat.mono rfl) (.op o.adm) _ rfl
theorem dayTaken_eds (s : State) : (s.dayTaken o d).eds = s.eds := post_does (same_eds.mono rfl) (.op o.adm) _ rfl
theorem dayTaken_recon (s : State) : (s.dayTaken o d).recon = s.recon := post_does (same_recon.mono rfl) (.op o.adm) _ rfl
theorem dayTaken_engine (s : State) : (s.dayTaken o d).engine = s.engine := post_does (same_engine.mono rfl) (.op o.adm) _ rfl
theorem dayTaken_ret (s : State) : (s.dayTaken o d).ret = { s.ret with day := d } := post_does (same_ret.mono rfl) (.op o.adm) _ rfl
theorem dayTaken_segments (s : State) : SegmentsStand s (s.dayTaken o d) :=
  post_does (keeps_segments.mono rfl) (.op o.adm) _ ⟨rfl, rfl, rfl, fun _ => rfl⟩
theorem dayTaken_quiet (s : State) : Quiet s (s.dayTaken o d) := by
  have taken : Quiet s (s.onRet fun r => { r with day := d }) := .of_same rfl rfl rfl rfl rfl rfl rfl rfl rfl
  exact taken.trans (post_quiet _ _ _)

theorem dayTaken_late (s : State) : (s.dayTaken o d).lateSegments d = s.lateSegments d := by
  unfold lateSegments
  rw [(dayTaken_segments o d s).fillings, dayTaken_ret]

theorem dayTaken_submits (ready : s.engine = .ready) :
    Claims.Submitted (EntryBody.mk0 .dayAdvanced .none s.ret.day d 0) (s.dayTaken o d) :=
  submit_submitted (s := s.onRet fun r => { r with day := d }) ready _ _ (List.mem_singleton.mpr rfl)

theorem dayClosed_ret (s : State) : (s.dayClosed o d).ret = { s.ret with day := d } :=
  (abandonHorizon_does (same_ret.mono rfl) d (closeAll_does (same_ret.mono rfl) .lateWindow _ rfl) : _ = (s.dayTaken o d).ret).trans
    (dayTaken_ret o d s)

theorem dayClosed_engine (s : State) : (s.dayClosed o d).engine = s.engine :=
  abandonHorizon_does (same_engine.mono rfl) d ((closeAll_engine ..).trans (dayTaken_engine o d s))

theorem dayClosed_recon (s : State) :
    (s.dayClosed o d).recon = { s.recon with gaps := (horizonGaps d s.ret.gapHorizon s.recon.gaps).1 } := by
  have ret : (closeAll .lateWindow (s.lateSegments d) (s.dayTaken o d)).ret = { s.ret with day := d } :=
    (closeAll_does (same_ret.mono rfl) .lateWindow _ rfl : _ = (s.dayTaken o d).ret).trans (dayTaken_ret o d s)
  have recon : (closeAll .lateWindow (s.lateSegments d) (s.dayTaken o d)).recon = s.recon :=
    closeAll_does (same_recon.mono rfl) .lateWindow _ (dayTaken_recon o d s)
  rw [dayClosed, abandonHorizon_recon, ret, recon]

theorem dayClosed_unbinds (s : State) : Unbinds s (s.dayClosed o d) :=
  ((Unbinds.of_eds (dayTaken_eds o d s)).trans (closeAll_unbinds ..)).trans (.of_eds (abandonHorizon_does_eds ..))

theorem dayClosed_editionsHeld (s : State) : EditionsHeld s (s.dayClosed o d) :=
  ((EditionsHeld.of_quiet (dayTaken_quiet o d s)).trans (closeAll_editionsHeld ..)).trans (abandonHorizon_editionsHeld ..)

theorem dayClosed_segments (s : State) :
    SegmentsStand (closeAll .lateWindow (s.lateSegments d) (s.dayTaken o d)) (s.dayClosed o d) :=
  abandonHorizon_does (keeps_segments.mono rfl) d (.refl _)

theorem advanceDay_eq (s : State) : s.advanceDay o d = (s.dayCut o d).onRunning fun r =>
    { r with begun := true,
             body := .advance d (s.lateSegments d).length (s.recon.gaps.length - (s.dayClosed o d).recon.gaps.length)
               (s.dayOutcome o d) Pass.start } := by
  have late := dayTaken_late o d s
  have before : (closeAll .lateWindow (s.lateSegments d) (s.dayTaken o d)).recon = s.recon :=
    closeAll_does (same_recon.mono rfl) .lateWindow _ (dayTaken_recon o d s)
  have auto : (s.dayClosed o d).ret.autoCut = s.ret.autoCut := by rw [dayClosed_ret]
  unfold advanceDay dayCut dayOutcome
  unfold dayClosed at auto ⊢
  unfold dayTaken at late before auto ⊢
  dsimp only
  rw [late, before, auto]
  cases s.ret.autoCut <;> rfl

/-! ## What the event leaves -/

section rest

variable {R : State → State → Prop} {s0 : State}

theorem dayClosed_does (oR : Obeys R [.notes, .desk, .recon, .eds, .cat, .dir, .lanes, .jnl])
    (h : R s0 (s.onRet fun r => { r with day := d })) : R s0 (s.dayClosed o d) :=
  abandonHorizon_does (oR.mono rfl) d (closeAll_does (oR.mono rfl) .lateWindow _ (post_does (oR.mono rfl) (.op o.adm) _ h))

theorem dayCut_does (oR : Obeys R [.notes, .desk, .recon, .eds, .cat, .dir, .lanes, .jnl])
    (h : R s0 (s.onRet fun r => { r with day := d })) : R s0 (s.dayCut o d) := by
  have closed := dayClosed_does o d oR h
  unfold dayCut
  split
  · exact cut_does (oR.mono rfl) .auto closed
  · exact closed

end rest

theorem dayCut_from {R : State → State → Prop} (oR : Obeys R [.notes, .desk, .eds, .lanes, .jnl]) (s : State)
    (h : R (s.dayClosed o d) (s.dayClosed o d)) : R (s.dayClosed o d) (s.dayCut o d) := by
  unfold dayCut
  split
  · exact cut_does (oR.mono rfl) .auto h
  · exact h

theorem dayCut_segments (s : State) :
    SegmentsStand (closeAll .lateWindow (s.lateSegments d) (s.dayTaken o d)) (s.dayCut o d) :=
  (dayClosed_segments o d s).trans (dayCut_from o d (keeps_segments.mono rfl) s (.refl _))

theorem dayCut_recon (s : State) :
    (s.dayCut o d).recon = { s.recon with gaps := (horizonGaps d s.ret.gapHorizon s.recon.gaps).1 } :=
  (dayCut_from o d (same_recon.mono rfl) s rfl : _ = (s.dayClosed o d).recon).trans (dayClosed_recon o d s)

theorem dayCut_ret (s : State) : (s.dayCut o d).ret = { s.ret with day := d } :=
  (dayCut_from o d (same_ret.mono rfl) s rfl : _ = (s.dayClosed o d).ret).trans (dayClosed_ret o d s)

theorem cut_remembers (s : State) : Remembers s (s.cut .auto).1 := by
  cases h : s.freeSlot with
  | none =>
    rw [cut_of_none h]
    exact (notice_editions_goesOn (.refl s)).remembers
  | some i => exact (cut_made h).2.2.remembers

theorem dayCut_remembers (s : State) : Remembers (s.dayClosed o d) (s.dayCut o d) := by
  unfold dayCut
  split
  · exact cut_remembers _
  · exact .refl _

/-- The entries of the event on a READY engine. -/
theorem dayCut_submits (ready : s.engine = .ready) :
    Claims.Submitted (EntryBody.mk0 .dayAdvanced .none s.ret.day d 0) (s.dayCut o d) ∧
    (∀ n g, s.live? n = some (.filling, g) → g.key.day + s.ret.lateWindow < d →
      Claims.Submitted (EntryBody.mk0 .segmentClosed (.segment n) CloseCause.lateWindow.code g.part (closeOutcome g)) (s.dayCut o d)) ∧
    ∀ r ∈ s.recon.gaps, r.day + s.ret.gapHorizon < d →
      Claims.Submitted (EntryBody.mk0 .gapAbandoned (.switch r.switch) r.first.toNat r.count GapCause.horizon.code) (s.dayCut o d) := by
  set closed := closeAll .lateWindow (s.lateSegments d) (s.dayTaken o d)
  have closedReady : closed.engine = .ready := (closeAll_engine ..).trans ((dayTaken_engine o d s).trans ready)
  have later : Remembers closed (s.dayCut o d) := (abandonHorizon_remembers d closed).trans (dayCut_remembers o d s)
  refine ⟨later _ (closeAll_remembers _ _ _ _ (dayTaken_submits o d ready)), fun n g live due => later _ ?_, fun r mem past => ?_⟩
  · exact closeAll_submits ((mem_lateSegments_iff d n).mpr ⟨g, live, due⟩) (((dayTaken_segments o d s).live? n).trans live)
      ((dayTaken_engine o d s).trans ready) .lateWindow
  · refine dayCut_remembers o d s _ ?_
    have recon : closed.recon = s.recon := closeAll_does (same_recon.mono rfl) .lateWindow _ (dayTaken_recon o d s)
    have closedRet : closed.ret = (s.dayTaken o d).ret := closeAll_does (same_ret.mono rfl) .lateWindow _ rfl
    have ret : closed.ret.gapHorizon = s.ret.gapHorizon := by rw [closedRet, dayTaken_ret]
    show Claims.Submitted _ (closed.abandonHorizon d)
    rw [abandonHorizon_eq, ret, recon]
    exact postEach_submitted (s := closed.onRecon _) closedReady .block _ _ (horizonGaps_abandons mem past)

theorem live?_dayCut_of_given {n : Nat} {g : Segment} (live : s.live? n = some (.filling, g)) (due : g.key.day + s.ret.lateWindow < d)
    (given : g.reserve ≠ 0) : (s.dayCut o d).live? n = some (.closed, g) := by
  rw [(dayCut_segments o d s).live?]
  exact live?_closeAll_of_given ((mem_lateSegments_iff d n).mpr ⟨g, live, due⟩) (((dayTaken_segments o d s).live? n).trans live)
    given .lateWindow

theorem extent?_dayCut_of_ungiven (hr : rising s.cat.table = true) {n : Nat} {g : Segment} (live : s.live? n = some (.filling, g))
    (due : g.key.day + s.ret.lateWindow < d) (none : g.reserve = 0) :
    ((s.dayCut o d).extent? n).map Extent.content = some .free := by
  obtain ⟨e, he, c⟩ := live?_eq_some_iff.mp live
  rw [(dayCut_segments o d s).extent?, extent?_closeAll (by rwa [dayTaken_cat]), if_pos ((mem_lateSegments_iff d n).mpr ⟨g, live, due⟩),
    (dayTaken_segments o d s).extent?, he, Option.map_some, Option.map_some, closedExtent_filling c]
  exact congrArg some (if_pos none)

/-- With auto-cut off the cut is left out. -/
theorem dayCut_of_off (off : s.ret.autoCut = false) :
    s.dayOutcome o d = .off ∧ EditionsHeld s (s.dayCut o d) := by
  unfold dayOutcome dayCut
  rw [off]
  exact ⟨rfl, dayClosed_editionsHeld o d s⟩

/-- With it on EDITIONS advances once. -/
theorem dayCut_counts (on : s.ret.autoCut = true) :
    bget (s.dayCut o d).desk.counters Counter.editions.index = bget s.desk.counters Counter.editions.index + 1 := by
  unfold dayCut
  rw [if_pos on, ← dayClosed_editionsHeld o d s]
  cases h : (s.dayClosed o d).freeSlot with
  | none =>
    rw [cut_of_none h]
    exact (notice_editions_goesOn (.refl _)).counted
  | some i => exact (cut_made h).2.2.counted

/-- A FREE slot takes the edition that the tallies make. -/
theorem dayCut_makes (on : s.ret.autoCut = true) (free : s.freeSlot.isSome = true) : ∃ i,
    s.dayOutcome o d = .made (nextSerial s.eds.serial) ∧ CutMade i s (s.dayCut o d) ∧
    (s.lateSegments d = [] → s.freeSlot = some i) := by
  have unbinds := dayClosed_unbinds o d s
  obtain ⟨i, h⟩ := Option.isSome_iff_exists.mp (unbinds.freeSlot free)
  have serial : (s.dayClosed o d).eds.serial = s.eds.serial := by rw [unbinds.eds]
  obtain ⟨outcome, made, -⟩ := cut_made h
  refine ⟨i, ?_, ?_, fun none => ?_⟩
  · unfold dayOutcome
    rw [if_pos on, outcome, serial]
  · unfold dayCut
    rw [if_pos on]
    exact {
      serial := made.serial.trans (by rw [serial])
      routes := made.routes.trans (by rw [unbinds.eds])
      sites := made.sites.trans (by rw [unbinds.eds])
      prefixes := made.prefixes.trans (by rw [unbinds.eds])
      slot := made.slot.trans (by rw [serial, unbinds.tables])
      submits := fun ready => by
        rw [← serial]
        exact made.submits ((dayClosed_engine o d s).trans ready) }
  · have eds : (s.dayClosed o d).eds = s.eds := by
      unfold dayClosed
      rw [none, abandonHorizon_does_eds]
      exact dayTaken_eds o d s
    rw [← h, freeSlot, freeSlot, eds]

/-- Without a FREE slot, and no segment closed, the editions stay. -/
theorem dayCut_full (on : s.ret.autoCut = true) (full : s.freeSlot = none) (none : s.lateSegments d = []) :
    s.dayOutcome o d = .full ∧ (s.dayCut o d).eds = s.eds := by
  have eds : (s.dayClosed o d).eds = s.eds := by
    unfold dayClosed
    rw [none, abandonHorizon_does_eds]
    exact dayTaken_eds o d s
  have still : (s.dayClosed o d).freeSlot = .none := by
    rw [freeSlot, eds]
    exact full
  unfold dayOutcome dayCut
  rw [if_pos on, if_pos on, cut_of_none still]
  exact ⟨rfl, (notice_does (same_eds.mono rfl) .editions rfl : _ = (s.dayClosed o d).eds).trans eds⟩

end Sys2Proof.Machine.State

namespace Sys2Proof.Claims

open Sys2Proof.Machine Sys2Proof.Machine.State

variable {s t : State} {o : Op}

theorem exec_advance (bus : Bus) (a : Acts s) {d x y : Nat} {z : CutOutcome} {p : Pass} (h : (at_ bus s).newRunning = some o)
    (b : o.body = .advance d x y z p) :
    Machine.exec (.advance bus) s = .next (((at_ bus s).advanceDay o d).firstPoint o).settleOps := by
  refine (congrArg Host.Outcome.next (s.commandedOn_on bus _ a.1 a.2)).trans (congrArg Host.Outcome.next ?_)
  change (match (at_ bus s).newRunning with
    | some o => _
    | none => _) = _
  rw [h]
  dsimp only
  rw [b]
  rfl

/-- The operation goes on when the event is over. -/
theorem advanceDay_running (h : s.exec.running = some o) (calm : s.exec.preempt = none) (d : Nat) :
    (s.advanceDay o d).exec.running = some { o with
      begun := true
      body := .advance d (s.lateSegments d).length (s.recon.gaps.length - (s.dayClosed o d).recon.gaps.length)
        (s.dayOutcome o d) Pass.start } ∧
    ((s.advanceDay o d).firstPoint o).settleOps = (s.advanceDay o d).settle := by
  have exec : (s.dayCut o d).exec = s.exec := dayCut_does o d (same_exec.mono rfl) rfl
  have running := onRunning_running (s := s.dayCut o d) (by rw [exec]; exact h) fun r =>
    { r with begun := true, body := .advance d (s.lateSegments d).length (s.recon.gaps.length - (s.dayClosed o d).recon.gaps.length)
                                      (s.dayOutcome o d) Pass.start }
  rw [← advanceDay_eq] at running
  have preempt : (s.advanceDay o d).exec.preempt = none := by
    rw [advanceDay_eq]
    exact (congrArg Exec.preempt exec).trans calm
  have point : (s.advanceDay o d).firstPoint o = s.advanceDay o d := by
    unfold firstPoint
    rw [takeSuspension_of_none preempt, ite_self]
  exact ⟨running, by rw [point]; exact settleOps_of_running (by rw [running]; rfl)⟩

/-- Settles O48, by the event's stages: the day, the late closes, the gap horizon, the cut. -/
theorem advanceTakesTheNewDay : Obligations.AdvanceTakesTheNewDay := by
  unfold Obligations.AdvanceTakesTheNewDay
  intro bus o d x y z p s fr body
  dsimp only
  obtain ⟨running, settled⟩ := advanceDay_running (s := at_ bus s) fr.2.1 fr.2.2.2 d
  have hx := exec_advance bus fr.1 (newRunning_of_fresh (s := at_ bus s) fr) body
  rw [settled] at hx
  set v := at_ bus s with hv
  have eq := advanceDay_eq o d v
  have kept : Kept s (v.dayCut o d) := dayCut_does (s := v) o d (keeps_kept.mono rfl) ⟨rfl, rfl, rfl, rfl, rfl, rfl, rfl⟩
  have segments : SegmentsStand (v.dayCut o d) (v.advanceDay o d).settle := by
    rw [eq]
    exact settle_does (keeps_segments.mono rfl) (onRunning_does (keeps_segments.mono rfl) _ (.refl _))
  have remembers : Remembers (v.dayCut o d) (v.advanceDay o d).settle := by
    rw [eq]
    refine .trans ?_ (settle_remembers _)
    exact .of_jnl rfl
  have counted : EditionsHeld (v.dayCut o d) (v.advanceDay o d).settle := by
    rw [eq]
    refine .trans ?_ (settle_editionsHeld _)
    exact .of_counters rfl
  have eds : (v.advanceDay o d).settle.eds = (v.dayCut o d).eds := by
    rw [eq]
    exact settle_does (same_eds.mono rfl) (onRunning_does (same_eds.mono rfl) _ rfl)
  have recon : (v.advanceDay o d).settle.recon = { s.recon with gaps := (horizonGaps d s.ret.gapHorizon s.recon.gaps).1 } := by
    rw [eq]
    exact (settle_does (same_recon.mono rfl) (onRunning_does (same_recon.mono rfl) _ rfl) : _ = (v.dayCut o d).recon).trans
      (dayCut_recon o d v)
  have late : v.lateSegments d = (s.fillings.filter fun q => decide (q.2.key.day + s.ret.lateWindow < d)).map Prod.fst := rfl
  have none_late : s.fillings.filter (fun q => decide (q.2.key.day + s.ret.lateWindow < d)) = [] → v.lateSegments d = [] := fun h => by
    rw [late, h, List.map_nil]
  refine ⟨_, v.dayOutcome o d, hx, ?_, recon, ?_, ?_, fun n g live due given => ?_, fun hr n g live due ungiven => ?_, fun ready => ?_,
    fun off => ?_, fun on => ⟨?_, fun free => ?_, fun full none => ?_⟩⟩
  · rw [eq]
    exact (settle_does (same_ret.mono rfl) (onRunning_does (same_ret.mono rfl) _ rfl) : _ = (v.dayCut o d).ret).trans
      (dayCut_ret o d v)
  · rw [eq]
    exact settle_does (keeps_kept.mono rfl) (onRunning_does (keeps_kept.mono rfl) _ kept)
  · rw [settle_exec, running, recon, late, List.length_map, dayClosed_recon]
    rfl
  · exact (segments.live? n).trans (live?_dayCut_of_given (s := v) o d live due given)
  · rw [segments.extent?]
    exact extent?_dayCut_of_ungiven (s := v) o d hr live due ungiven
  · obtain ⟨day, closes, gaps⟩ := dayCut_submits (s := v) o d ready
    exact ⟨remembers _ day, fun n g live due => remembers _ (closes n g live due), fun r mem past => remembers _ (gaps r mem past)⟩
  · obtain ⟨outcome, held⟩ := dayCut_of_off (s := v) o d off
    exact ⟨outcome, held.trans counted⟩
  · exact Eq.trans counted (dayCut_counts (s := v) o d on)
  · obtain ⟨i, outcome, made, slot⟩ := dayCut_makes (s := v) o d on free
    rw [eds]
    exact ⟨outcome, made.serial, made.routes, made.sites, made.prefixes, i, made.slot, fun h => slot (none_late h),
      fun ready => remembers _ (made.submits ready)⟩
  · obtain ⟨outcome, stay⟩ := dayCut_full (s := v) o d on full (none_late none)
    exact ⟨outcome, eds.trans stay⟩

end Sys2Proof.Claims
end

section
/-! SUPPORT. What follows the answer of a quick slip on a calm engine (R186, R189), for O59. -/

namespace Sys2Proof.Machine.State

variable {s t u v w : State} {o : Op} {os : List Op}

/-! ## The hand-over of the long slips (R190, R191) -/

theorem takeSuspension_exec (s : State) : s.takeSuspension = s.onExec fun _ => s.takeSuspension.exec := by
  unfold takeSuspension
  split
  · split <;> rfl
  · rfl

theorem suspendAtOnce_exec (s : State) : s.suspendAtOnce = s.onExec fun _ => s.suspendAtOnce.exec := by
  unfold suspendAtOnce
  split
  · split
    · exact takeSuspension_exec s
    · rfl
  · rfl

theorem handOver_exec (o : Op) (s : State) : s.handOver o = s.onExec fun _ => (s.handOver o).exec := by
  unfold handOver
  dsimp only
  split
  · rw [suspendAtOnce_exec]
    rfl
  · rfl

theorem handOverAll_exec (os : List Op) (s : State) : handOverAll os s = s.onExec fun _ => (handOverAll os s).exec := by
  induction os generalizing s with
  | nil => rfl
  | cons o os ih =>
    rw [handOverAll, ih, handOver_exec]
    rfl

theorem takeSuspension_isSome (h : s.exec.running.isSome = true) : s.takeSuspension.exec.running.isSome = true := by
  unfold takeSuspension
  split
  · split
    · rfl
    · exact h
  · exact h

theorem handOver_isSome (h : s.exec.running.isSome = true) (o : Op) : (s.handOver o).exec.running.isSome = true := by
  unfold handOver
  dsimp only
  split
  · unfold suspendAtOnce
    split
    · split
      · exact takeSuspension_isSome (s := (s.onExec fun e => { e with waiting := e.waiting ++ [o] }).onExec
          fun e => { e with preempt := some o.adm }) h
      · exact h
    · exact h
  · exact h

theorem handOverAll_isSome (h : s.exec.running.isSome = true) (os : List Op) :
    (handOverAll os s).exec.running.isSome = true := by
  induction os generalizing s with
  | nil => exact h
  | cons o os ih => exact ih (handOver_isSome h o)

/-- An operation that fetches nothing runs on until a point of its own. -/
theorem handOver_runsOn {r : Op} (h : s.exec.running = some r) (stays : r.body.fetches = false) (o : Op) :
    (s.handOver o).exec.running = some r ∧ (s.handOver o).exec.suspended = s.exec.suspended := by
  unfold handOver
  dsimp only
  split
  · unfold suspendAtOnce
    have here : ((s.onExec fun e => { e with waiting := e.waiting ++ [o] }).onExec
      fun e => { e with preempt := some o.adm }).exec.running = some r := h
    rw [here]
    dsimp only
    rw [stays]
    exact ⟨h, rfl⟩
  · exact ⟨h, rfl⟩

theorem handOverAll_runsOn {r : Op} (h : s.exec.running = some r) (stays : r.body.fetches = false) (os : List Op) :
    (handOverAll os s).exec.running = some r ∧ (handOverAll os s).exec.suspended = s.exec.suspended := by
  induction os generalizing s with
  | nil => exact ⟨h, rfl⟩
  | cons o os ih =>
    obtain ⟨running, suspended⟩ := handOver_runsOn h stays o
    obtain ⟨runs, rest⟩ := ih running
    exact ⟨runs, rest.trans suspended⟩

/-- Where nothing runs, the operations only join the waiting list. -/
theorem handOverAll_idle (h : s.exec.running = none) (os : List Op) :
    (handOverAll os s).exec = { s.exec with waiting := s.exec.waiting ++ os } := by
  induction os generalizing s with
  | nil => simp [handOverAll]
  | cons o os ih =>
    have joined : (s.handOver o).exec = { s.exec with waiting := s.exec.waiting ++ [o] } := by
      have no : s.preempts o = false := by simp [preempts, h]
      simp [handOver, no]
    rw [handOverAll, ih (by rw [joined]; exact h), joined]
    simp

/-! ## The choice on a restful executor -/

/-- An operation runs, or none that waits resumes a reading or ends at once. -/
def Restful (s : State) : Prop :=
  s.exec.running.isSome = true ∨ ∀ q ∈ s.exec.suspended ++ s.exec.waiting, Claims.GoesOnLater q

theorem handOverAll_restful (e : s.exec.running.isSome = true ∨
    ∀ q ∈ s.exec.suspended ++ s.exec.waiting ++ os, Claims.GoesOnLater q) : Restful (handOverAll os s) := by
  cases running : s.exec.running with
  | some r => exact .inl (handOverAll_isSome (by rw [running]; rfl) os)
  | none =>
    refine .inr ?_
    rw [handOverAll_idle running]
    rw [running, List.append_assoc] at e
    exact e.resolve_left (by decide)

/-- The choice changes the executor alone, and leaves nothing to choose. -/
theorem nextOp_of_restful (h : Restful s) (e : s.engine ≠ .recovering) :
    s.nextOp = s.onExec (fun _ => s.nextOp.exec) ∧ Claims.NoChoice s.nextOp ∧
    (s.exec.running.isSome = true → s.nextOp.exec = s.exec) := by
  cases running : s.exec.running with
  | some r =>
    have some : s.exec.running.isSome = true := by rw [running]; rfl
    rw [nextOp_of_running some]
    exact ⟨rfl, .inl some, fun _ => rfl⟩
  | none =>
    have goes := h.resolve_left (by rw [running]; decide)
    rw [nextOp_of_goesOn running e goes]
    refine ⟨chosen_rest s, ?_, fun c => by cases c⟩
    cases hp : s.pick with
    | some q => exact .inl (by rw [chosen_running running, hp]; rfl)
    | none =>
      refine .inr ?_
      unfold chosen
      rw [hp]
      exact hp

/-! ## The engine fields -/

/-- Host memory alone has changed, and in it no slip. -/
structure HeaderWritten (s t : State) : Prop where
  rest : t = s.onMem fun _ => t.mem
  bytes : ∀ a, s.desk.place + 48 ≤ a → Memory.byte Config.hostFill t.mem a = Memory.byte Config.hostFill s.mem a
  wf : Memory.wf Config.hostFill s.mem = true → Memory.wf Config.hostFill t.mem = true

namespace HeaderWritten

theorem refl (s : State) : HeaderWritten s s := ⟨rfl, fun _ _ => rfl, id⟩
theorem place (h : HeaderWritten s t) : t.desk.place = s.desk.place := by rw [h.rest]; rfl
theorem trans (h : HeaderWritten s t) (g : HeaderWritten t u) : HeaderWritten s u where
  rest := by
    rw [g.rest, h.rest]
    rfl
  bytes a ha := (g.bytes a (by rw [h.place]; exact ha)).trans (h.bytes a ha)
  wf w := g.wf (h.wf w)

theorem write {a : Nat} {bs : List Byte} (low : a + bs.length ≤ s.desk.place + 48) : HeaderWritten s (s.hostWrite a bs) :=
  ⟨by unfold hostWrite; split <;> rfl, fun x hx => byte_hostWrite_outside _ _ _ _ (by omega), wf_hostWrite _ _⟩

theorem counter (c : Counter) (s : State) : HeaderWritten s (s.writeCounter c) := by
  unfold writeCounter
  split
  · exact .refl s
  · have : c.index.val < 8 := c.index.isLt
    refine .write ?_
    simp only [counterAt, leBytes_length]
    omega

theorem counters (cs : List Counter) (s : State) : HeaderWritten s (cs.foldl (fun u c => u.writeCounter c) s) := by
  induction cs generalizing s with
  | nil => exact .refl s
  | cons c cs ih => exact (counter c s).trans (ih _)

end HeaderWritten

theorem writeFields_written (s : State) : HeaderWritten s s.writeFields := by
  have fields : HeaderWritten s (s.hostWrite (s.desk.place + 8)
      (leBytes 2 s.ret.day ++ unsignedField 2 s.pagesInUse ++ unsignedField 4 s.freeCount)) := by
    refine .write ?_
    simp only [List.length_append, leBytes_length, unsignedField_length]
    omega
  unfold writeFields
  dsimp only
  split
  · exact fields.trans (.counters _ _)
  · exact fields

/-! ## After the answer (R189) -/

/-- The engine as it is when a quick slip's answer stands and its sweep goes on, before what follows of itself. -/
structure GoesOn (v w : State) : Prop where
  rest : w = { v with desk := w.desk, mem := w.mem, exec := w.exec }
  place : w.desk.place = v.desk.place
  held : w.desk.held = v.desk.held
  map : w.desk.map = v.desk.map
  bytes : ∀ a, v.desk.place + 48 ≤ a → Memory.byte Config.hostFill w.mem a = Memory.byte Config.hostFill v.mem a
  base : w.desk.base = v.desk.base
  period : w.desk.period = v.desk.period
  counters : w.desk.counters = v.desk.counters
  exec : ∀ r, v.exec.running = some r → r.body.fetches = false → w.exec.running = some r ∧ w.exec.suspended = v.exec.suspended

namespace GoesOn

theorem same {α : Type} (h : GoesOn v w) (F : State → α) (hF : ∀ d m e, F { v with desk := d, mem := m, exec := e } = F v) :
    F w = F v := by
  rw [h.rest]
  exact hF _ _ _

theorem jnl (h : GoesOn v w) : w.jnl = v.jnl := h.same State.jnl fun _ _ _ => rfl
theorem feed (h : GoesOn v w) : w.feed = v.feed := h.same State.feed fun _ _ _ => rfl
theorem cat (h : GoesOn v w) : w.cat = v.cat := h.same State.cat fun _ _ _ => rfl

theorem segments (h : GoesOn v w) : SegmentsStand v w where
  engine := h.same State.engine fun _ _ _ => rfl
  usable := by rw [h.cat]
  table := by rw [h.cat]
  online l := h.same (fun s => s.isOnline l) fun _ _ _ => rfl

theorem kept (h : GoesOn v w) : Claims.Kept v w where
  pending := h.same State.pending fun _ _ _ => rfl
  powered := h.same State.powered fun _ _ _ => rfl
  stamp := h.same State.stamp fun _ _ _ => rfl
  engine := h.same State.engine fun _ _ _ => rfl
  base := h.base
  period := h.period
  media := h.same State.media fun _ _ _ => rfl

theorem trans (h : GoesOn v w) (g : GoesOn w u) : GoesOn v u where
  rest := by
    rw [g.rest, h.rest]
  place := g.place.trans h.place
  held := g.held.trans h.held
  map := g.map.trans h.map
  bytes a ha := (g.bytes a (by rw [h.place]; exact ha)).trans (h.bytes a ha)
  base := g.base.trans h.base
  period := g.period.trans h.period
  counters := g.counters.trans h.counters
  exec r running fetches := by
    obtain ⟨runs, suspended⟩ := h.exec r running fetches
    obtain ⟨runs', suspended'⟩ := g.exec r runs fetches
    exact ⟨runs', suspended'.trans suspended⟩

/-- An answer given before stands. -/
theorem answered {slip : Option SlipNo} {st : Status} {vs : List Byte} (h : GoesOn v w) (ha : Claims.Answered u slip st vs v)
    (place : v.desk.place = u.desk.place) : Claims.Answered u slip st vs w := by
  intro i hi
  obtain ⟨held, dropped, given⟩ := ha i hi
  refine ⟨by rw [h.held]; exact held, fun e => by rw [h.map]; exact dropped e, fun e => ?_⟩
  obtain ⟨map, mem⟩ := given e
  refine ⟨by rw [h.map]; exact map, fun fits wf hc => ?_⟩
  obtain ⟨mark, area⟩ := mem fits wf hc
  have far (a : Nat) (ha : u.slipAt i ≤ a) : Memory.byte Config.hostFill w.mem a = Memory.byte Config.hostFill v.mem a :=
    h.bytes a (by rw [slipAt] at ha; omega)
  refine ⟨(far _ le_rfl).trans mark, Eq.trans (bytes_congr _ _ fun a lo _ => far a ?_) area⟩
  rw [answerAt] at lo
  omega

end GoesOn

/-- A calm sweep at its end: the long slips are handed over, the engine fields written, the gate opened. -/
theorem finishSweep_goesOn (calm : v.desk.baseWritten = false) {x : Sweep} (sweep : v.desk.sweep = some x)
    (rests : v.exec.running.isSome = true ∨ ∀ q ∈ v.exec.suspended ++ v.exec.waiting ++ x.long, Claims.GoesOnLater q)
    (e : v.engine ≠ .recovering) : GoesOn v v.finishSweep ∧ Claims.NoChoice v.finishSweep := by
  set u : State := v.onSweep fun x => { x with long := [] } with hu
  obtain ⟨next, none, stays⟩ := nextOp_of_restful (s := handOverAll x.long u) (handOverAll_restful (s := u) rests)
    (by rw [handOverAll_exec]; exact e)
  have handed : v.handOverLong = (handOverAll x.long u).nextOp := by
    unfold handOverLong
    rw [sweep]
  have long : v.handOverLong = u.onExec fun _ => v.handOverLong.exec := by
    rw [handed, next, handOverAll_exec]
    rfl
  have choice : Claims.NoChoice v.handOverLong := by rw [handed]; exact none
  have runs : ∀ r, v.exec.running = some r → r.body.fetches = false →
      v.handOverLong.exec.running = some r ∧ v.handOverLong.exec.suspended = v.exec.suspended := fun r hr fetches => by
    obtain ⟨running, suspended⟩ := handOverAll_runsOn (s := u) hr fetches x.long
    rw [handed, stays (by rw [running]; rfl)]
    exact ⟨running, suspended⟩
  have desk : v.handOverLong.desk = u.desk := by rw [long]; rfl
  have written := writeFields_written v.handOverLong
  obtain ⟨m, k, g, gate⟩ := openGate_eq v.handOverLong.writeFields
  have finish : v.finishSweep = v.handOverLong.writeFields.openGate.onDesk fun d => { d with sweep := .none, first := false } := by
    unfold finishSweep
    dsimp only
    rw [if_neg]
    rw [gate]
    show ¬ v.handOverLong.writeFields.desk.baseWritten = true
    rw [written.rest]
    show ¬ v.handOverLong.desk.baseWritten = true
    rw [desk]
    exact Bool.eq_false_iff.mp calm
  rw [finish, gate]
  generalize v.handOverLong = y at *
  have rest := written.rest
  have bytes := written.bytes
  generalize y.writeFields = z at *
  obtain ⟨x, rfl⟩ : ∃ e, y = u.onExec fun _ => e := ⟨_, long⟩
  obtain ⟨mem, rfl⟩ : ∃ mem, z = (u.onExec fun _ => x).onMem fun _ => mem := ⟨_, rest⟩
  exact ⟨⟨rfl, rfl, rfl, rfl, bytes, rfl, rfl, rfl, runs⟩, choice⟩

theorem GoesOn.trans_exec (h : GoesOn v w) (x : Exec) (hx : w.exec.running.isSome = true → x = w.exec) :
    GoesOn v (w.onExec fun _ => x) where
  rest := by
    rw [h.rest]
    rfl
  place := h.place
  held := h.held
  map := h.map
  bytes := h.bytes
  base := h.base
  period := h.period
  counters := h.counters
  exec r running fetches := by
    have runs := h.exec r running fetches
    rwa [show (w.onExec fun _ => x).exec = w.exec from hx (by rw [runs.1]; rfl)]

/-- A quick slip has been answered on a calm engine: what follows, before things settle. -/
theorem quickDone_goesOn (calm : Claims.Calm v) (e : v.engine ≠ .recovering) :
    ∃ w, GoesOn v w ∧ v.quickDone.settleOps = w.settle := by
  obtain ⟨base, rests⟩ := calm
  set u : State := v.onSweep fun w => { w with quick := w.quick.tail } with hu
  have opened : GoesOn v u := ⟨rfl, rfl, rfl, rfl, fun _ _ => rfl, rfl, rfl, rfl, fun _ h _ => ⟨h, rfl⟩⟩
  have restful : Restful u := rests.imp_right fun h q mem => h q (List.mem_append_left _ mem)
  have goes (stay : u.sweepGoesOn = u) : ∃ w, GoesOn v w ∧ v.quickDone.settleOps = w.settle := by
    obtain ⟨next, -, stays⟩ := nextOp_of_restful restful e
    refine ⟨_, opened.trans_exec _ stays, ?_⟩
    rw [← next]
    exact congrArg settleOps stay
  cases sweep : v.desk.sweep with
  | none =>
    refine goes ?_
    have none : u.desk.sweep = none := congrArg (Option.map _) sweep
    unfold sweepGoesOn
    rw [none]
  | some x =>
    have here : u.desk.sweep = some { x with quick := x.quick.tail } := congrArg (Option.map _) sweep
    by_cases last : x.quick.tail.isEmpty = true
    · have finish : u.sweepGoesOn = u.finishSweep := by
        unfold sweepGoesOn
        rw [here]
        exact if_pos last
      obtain ⟨ends, choice⟩ := finishSweep_goesOn (v := u) base here (by rw [sweep] at rests; exact rests) e
      refine ⟨u.finishSweep, opened.trans ends, ?_⟩
      show u.sweepGoesOn.settleOps = _
      rw [finish, settleOps, nextOp_of_noChoice choice]
    · refine goes ?_
      unfold sweepGoesOn
      rw [here]
      exact if_neg last

/-! ## The answer and what follows it -/

/-- The sweep under way, its desk change and the executor stand. -/
structure SweepStands (s t : State) : Prop where
  sweep : t.desk.sweep = s.desk.sweep
  base : t.desk.baseWritten = s.desk.baseWritten
  exec : t.exec = s.exec

theorem SweepStands.calm (h : SweepStands s t) (calm : Claims.Calm s) : Claims.Calm t := by
  unfold Claims.Calm at calm ⊢
  rwa [h.sweep, h.base, h.exec]

theorem SweepStands.trans (h : SweepStands s t) (g : SweepStands t u) : SweepStands s u :=
  ⟨g.sweep.trans h.sweep, g.base.trans h.base, g.exec.trans h.exec⟩

theorem SweepStands.of_notes (desk : t.desk = s.desk.withNotes t.desk) (exec : t.exec = s.exec) : SweepStands s t :=
  ⟨by rw [desk]; rfl, by rw [desk]; rfl, exec⟩

theorem answer_sweepStands (slip : Option SlipNo) (st : Status) (vs : List Byte) (s : State) :
    SweepStands s (s.answer slip st vs) := by
  have exec := answer_exec slip st vs s
  cases slip with
  | none => exact ⟨rfl, rfl, rfl⟩
  | some i =>
    have eq : s.answer (some i) st vs = if s.dropsAnswer i then s.releaseSlip i else s.writeAnswer i st vs := rfl
    rw [eq] at exec ⊢
    split at exec
    · rename_i drops
      rw [if_pos drops]
      exact ⟨rfl, rfl, rfl⟩
    · rename_i drops
      rw [if_neg drops]
      obtain ⟨n, desk⟩ := (writeAnswer_wrote i st vs s).desk
      exact ⟨by rw [desk]; rfl, by rw [desk]; rfl, exec⟩

/-- A quick slip whose effect `x` stands has been answered, and its calm sweep has gone on, on the engine `u`. -/
structure Replied (u x : State) (slip : SlipNo) (st : Status) (vs : List Byte) (t : State) : Prop where
  answered : Claims.Answered u (some slip) st vs t
  segments : SegmentsStand x t
  remembers : Remembers x t
  kept : Claims.Kept x t
  ret : t.ret = x.ret
  recon : t.recon = x.recon
  eds : t.eds = x.eds
  scrub : t.scrub = x.scrub
  exec : ∀ r, x.exec.running = some r → r.body.fetches = false → t.exec.running = some r ∧ t.exec.suspended = x.exec.suspended

theorem reply_replied {x : State} (calm : Claims.Calm x) (e : x.engine ≠ .recovering) (stand : SlipsStand u x) (feed : x.feed = u.feed)
    (a : Admitted) (st : Status) (vs : List Byte) : Replied u x a.slip st vs (x.reply a st vs).quickDone.settleOps := by
  have stands := answer_sweepStands (some a.slip) st vs x
  have same {α : Type} (F : State → α) (h : F (x.answer (some a.slip) st vs) = F x) : F (x.reply a st vs) = F x := h
  have engine := same State.engine (answer_does (same_engine.mono rfl) _ _ _ rfl)
  have feeds := same State.feed (answer_feed _ _ _ x)
  have place := same (fun s => s.desk.place) (answer_does (same_place.mono rfl) _ _ _ rfl)
  have jnl := same State.jnl (answer_does (same_jnl.mono rfl) _ _ _ rfl)
  have ret := same State.ret (answer_does (same_ret.mono rfl) _ _ _ rfl)
  have recon := same State.recon (answer_does (same_recon.mono rfl) _ _ _ rfl)
  have eds := same State.eds (answer_does (same_eds.mono rfl) _ _ _ rfl)
  have scrub := same State.scrub (answer_does (same_scrub.mono rfl) _ _ _ rfl)
  have exec := same State.exec (answer_exec _ _ _ x)
  have kept : Claims.Kept x (x.reply a st vs) := answer_does (keeps_kept.mono rfl) (some a.slip) st vs (Kept.refl x)
  have segments : SegmentsStand x (x.reply a st vs) := answer_does (keeps_segments.mono rfl) (some a.slip) st vs (.refl x)
  have answered : Claims.Answered u (some a.slip) st vs (x.reply a st vs) := answer_answered stand (some a.slip) st vs
  have calmly : Claims.Calm (x.reply a st vs) := stands.calm calm
  generalize x.reply a st vs = v at *
  obtain ⟨w, goes, settled⟩ := quickDone_goesOn calmly (by rw [engine]; exact e)
  rw [settled]
  exact
    { answered := answered_settle (goes.answered answered (place.trans stand.place)) (goes.place.trans (place.trans stand.place))
        (goes.feed.trans (feeds.trans feed))
      segments := (segments.trans goes.segments).trans (settle_segments w)
      remembers := (Remembers.trans (.of_jnl jnl) (.of_jnl goes.jnl)).trans (settle_remembers w)
      kept := settle_does (keeps_kept.mono rfl) (keeps_kept.trans kept goes.kept)
      ret := (settle_does (same_ret.mono rfl) rfl : _ = w.ret).trans ((goes.same State.ret fun _ _ _ => rfl).trans ret)
      recon := (settle_does (same_recon.mono rfl) rfl : _ = w.recon).trans ((goes.same State.recon fun _ _ _ => rfl).trans recon)
      eds := (settle_does (same_eds.mono rfl) rfl : _ = w.eds).trans ((goes.same State.eds fun _ _ _ => rfl).trans eds)
      scrub := (settle_does (same_scrub.mono rfl) rfl : _ = w.scrub).trans ((goes.same State.scrub fun _ _ _ => rfl).trans scrub)
      exec := fun r running fetches => by
        rw [settle_exec, ← exec]
        rw [← exec] at running
        exact goes.exec r running fetches }

/-! ## What a close leaves of the slips -/

theorem notice_stands (c : Counter) (s : State) : SlipsStand s (s.notice c) where
  place := by rw [notice_desk]; rfl
  held := by rw [notice_desk]; rfl
  map := by rw [notice_desk]; rfl
  fails := notice_does (same_fails.mono rfl) c rfl
  marks i := by
    rw [markOf, markOf, slipAt, slipAt, notice_desk]
    exact notice_outside c s _ (.inr (by show s.desk.place + 48 ≤ s.desk.place + _ + _; omega))
  wf := notice_wf c

theorem judgeWatch_stands (s : State) : SlipsStand s s.judgeWatch := by
  unfold judgeWatch
  dsimp only
  split
  · exact .refl s
  · generalize (if s.sideLow = true then s.cat.watch.falling else s.cat.watch.rising) = crosses
    have side : SlipsStand s (s.onCat fun c => { c with watch := { c.watch with low := s.sideLow } }) := .of_same rfl rfl rfl
    cases crosses
    · exact side
    · exact side.trans (notice_stands .freeWatch _)

theorem closeSegment_stands (cause : CloseCause) (n : Nat) (s : State) : SlipsStand s (s.closeSegment cause n) := by
  have desk {x : State} (k : StreamKey) (c : Content) : SlipsStand x ((x.onDir k unfilled).setContent n c) :=
    .of_same (setContent_does (same_desk.mono rfl) n c (onDir_does (same_desk.mono rfl) k unfilled rfl))
      (setContent_does (same_fails.mono rfl) n c (onDir_does (same_fails.mono rfl) k unfilled rfl))
      (setContent_does (same_mem.mono rfl) n c (onDir_does (same_mem.mono rfl) k unfilled rfl))
  unfold closeSegment
  split
  · rename_i g hg
    dsimp only
    split
    · refine .trans ?_ (.of_quiet (log_quiet ..))
      refine .trans ?_ (.of_same (dropFromDir_does (same_desk.mono rfl) _ rfl) (dropFromDir_does (same_fails.mono rfl) _ rfl)
        (dropFromDir_does (same_mem.mono rfl) _ rfl))
      refine .trans ?_ (.of_quiet (unbindEdition_quiet ..))
      exact (desk g.key .free).trans (judgeWatch_stands _)
    · exact (desk g.key (.live .closed g)).trans (.of_quiet (log_quiet ..))
  · exact .refl s

theorem closeAll_stands (cause : CloseCause) (ns : List Nat) (s : State) : SlipsStand s (closeAll cause ns s) := by
  induction ns generalizing s with
  | nil => exact .refl s
  | cons n ns ih => exact (closeSegment_stands cause n s).trans (ih _)

/-! ## What a CLOSE selects (R32) -/

/-- The listed numbers of the FILLING segments with a property. -/
def chosenBy (P : Segment → Bool) (s : State) : List (Nat × Extent) :=
  s.cat.table.filter fun x => match s.live? x.1 with
    | some (.filling, g) => P g
    | _ => false

theorem fillings_filter_length (P : Segment → Bool) (s : State) :
    (s.fillings.filter fun q => P q.2).length = (s.chosenBy P).length := by
  rw [fillings, chosenBy, ← List.countP_eq_length_filter, ← List.countP_eq_length_filter, List.countP_filterMap]
  refine List.countP_congr fun x _ => ?_
  rcases s.live? x.1 with _ | ⟨_ | _ | _, g⟩ <;> rfl

theorem chosenBy_filter (P Q : Segment → Bool) (s : State) : ((s.chosenBy P).filter fun x => match s.live? x.1 with
    | some (_, g) => Q g
    | none => false) = s.chosenBy fun g => P g && Q g := by
  rw [chosenBy, chosenBy, List.filter_filter]
  refine List.filter_congr fun x _ => ?_
  rcases s.live? x.1 with _ | ⟨_ | _ | _, g⟩
  · rfl
  · exact Bool.and_comm _ _
  · exact Bool.and_false _
  · exact Bool.and_false _

/-- The segments of a record day and switch, or of all switches. -/
def selectedBy (all : Bool) (sw day : Nat) (g : Segment) : Bool := g.key.day == day && (all || g.key.switch == sw)

theorem closeTargets_eq (s : State) (all : Bool) (sw day : Nat) :
    s.closeTargets all sw day = s.fillings.filter fun q => selectedBy all sw day q.2 := rfl

theorem mem_closeTargets_iff (all : Bool) (sw day n : Nat) : n ∈ (s.closeTargets all sw day).map Prod.fst ↔
    ∃ g, s.live? n = some (.filling, g) ∧ selectedBy all sw day g = true := by
  simp [closeTargets_eq, List.mem_map, List.mem_filter, mem_fillings_iff]

theorem closeTargets_length (s : State) (all : Bool) (sw day : Nat) :
    (s.closeTargets all sw day).length = (s.chosenBy (selectedBy all sw day)).length ∧
    ((s.closeTargets all sw day).filter fun x => x.2.reserve == 0).length =
      ((s.chosenBy (selectedBy all sw day)).filter fun x => match s.live? x.1 with
        | some (_, g) => g.reserve == 0
        | none => false).length := by
  rw [chosenBy_filter, closeTargets_eq, List.filter_filter]
  refine ⟨fillings_filter_length _ s, ?_⟩
  rw [← fillings_filter_length]
  exact congrArg List.length (List.filter_congr fun q _ => Bool.and_comm _ _)

/-- What a CLOSE slip's parameters select. -/
def targetsOf (a : Admitted) (s : State) : List (Nat × Segment) :=
  s.closeTargets (flagSet (a.params.getD 2 0)) (field a.params 0 2) (field a.params 4 2)

/-- The answer's values: how many are CLOSED, and how many extents are FREE. -/
def closeCounts (ts : List (Nat × Segment)) : List Byte :=
  fours [ts.length - (ts.filter fun x => x.2.reserve == 0).length, (ts.filter fun x => x.2.reserve == 0).length]

theorem doClose_of_bad {a : Admitted} (bad : badSwitch (flagSet (a.params.getD 2 0)) (field a.params 0 2) = true) :
    doClose a s = s.reply a .badSwitch [] := if_pos bad

theorem doClose_of_good {a : Admitted} (good : ¬ badSwitch (flagSet (a.params.getD 2 0)) (field a.params 0 2) = true) :
    doClose a s = (closeAll .slip ((s.targetsOf a).map Prod.fst) s).reply a .done (closeCounts (s.targetsOf a)) := if_neg good

/-! ## RESOLVE (R167) -/

theorem doResolve_of_suspect {a : Admitted} {st : LiveState} {g : Segment} (live : s.live? (field a.params 0 4) = some (st, g))
    (suspect : g.mark = .suspect) : doResolve a s =
    ((s.onSegment (field a.params 0 4) fun x => { x with mark := .unverified }).log .suspectResolved (.segment (field a.params 0 4))
      g.part g.fails 0).reply a .done (fours [g.fails]) := by
  unfold doResolve
  dsimp only
  rw [live]
  exact if_pos suspect

theorem doResolve_of_not {a : Admitted} (none : ∀ st g, s.live? (field a.params 0 4) = some (st, g) → g.mark ≠ .suspect) :
    doResolve a s = s.reply a .notFound [] := by
  unfold doResolve
  dsimp only
  split
  · rename_i st g live
    exact if_neg (none st g live)
  · rfl

/-! ## JOURNAL-RELEASE (R181) -/

theorem room_releaseTo (q : Nat) (s : State) : s.room ≤ (s.releaseTo q).room ∧ (s.jnl.head ≤ q → (s.releaseTo q).room = 1048576) := by
  unfold room windowSize releaseTo
  simp only [onJnl_jnl, Config.journalWindow]
  omega

/-- A pass that waits for room goes on. -/
def passGoesOn (q : Op) : Op := { q with body := q.body.roomBack }

theorem passGoesOn_eq (q : Op) : passGoesOn q = match q.body.pass with
    | some p => { q with body := q.body.setPass { p with awaitsRoom := false } }
    | none => q := by
  obtain ⟨slip, adm, prio, urgent, begun, stopping, ended, body⟩ := q
  cases body <;> rfl

theorem roomBack_visit (b : OpBody) : b.roomBack.visit = b.visit := by cases b <;> rfl
theorem roomBack_fetches (b : OpBody) : b.roomBack.fetches = b.fetches := by cases b <;> rfl
theorem fetches_of_pass {b : OpBody} (h : b.pass.isSome = true) : b.fetches = false := by
  cases b with
  | advance | expire => rfl
  | _ => cases h

theorem goesOnLater_passGoesOn {q : Op} (h : Claims.GoesOnLater q) : Claims.GoesOnLater (passGoesOn q) := by
  obtain ⟨visit, cursor⟩ := h
  refine ⟨(roomBack_visit q.body).trans visit, fun sel c n v eq => cursor sel c n v ?_⟩
  change q.body.roomBack = _ at eq
  cases hb : q.body with
  | verify => rw [hb] at eq; exact eq
  | _ => rw [hb] at eq; cases eq

theorem endRoomWaits_of_reserve (h : s.hasReserve = true) : s.endRoomWaits =
    (s.onScrub fun x => { x with awaitsRoom := false }).onExec fun e =>
      { e with running := e.running.map passGoesOn, suspended := e.suspended.map passGoesOn, waiting := e.waiting.map passGoesOn } :=
  if_pos h

theorem endRoomWaits_of_not (h : ¬ s.hasReserve = true) : s.endRoomWaits = s := if_neg h

/-- An executor in which passes go on is as calm. -/
theorem calm_endRoomWaits (calm : Claims.Calm s) : Claims.Calm s.endRoomWaits := by
  by_cases h : s.hasReserve = true
  · rw [endRoomWaits_of_reserve h]
    obtain ⟨base, rests⟩ := calm
    have keeps {l : List Op} (all : ∀ q ∈ l, Claims.GoesOnLater q) : ∀ q ∈ l.map passGoesOn, Claims.GoesOnLater q := fun q mem => by
      obtain ⟨p, hp, rfl⟩ := List.mem_map.mp mem
      exact goesOnLater_passGoesOn (all p hp)
    refine ⟨base, rests.imp (fun some => ?_) fun all q mem => ?_⟩
    · exact Option.isSome_map.trans some
    · simp only [List.mem_append] at mem all
      change (q ∈ s.exec.suspended.map passGoesOn ∨ q ∈ s.exec.waiting.map passGoesOn) ∨ _ at mem
      obtain (mem | mem) | mem := mem
      · exact keeps (fun q hq => all q (.inl (.inl hq))) q mem
      · exact keeps (fun q hq => all q (.inl (.inr hq))) q mem
      · exact all q (.inr mem)
  · rwa [endRoomWaits_of_not h]

/-- With nothing in the line there is nothing to take. -/
theorem drainLine_of_empty (h : s.jnl.line = []) : s.drainLine = s := by
  show drainLoop (Config.journalBuffer + 1) s = s
  unfold drainLoop
  rw [h]

end Sys2Proof.Machine.State

namespace Sys2Proof.Claims

open Sys2Proof.Machine Sys2Proof.Machine.State

variable {s t : State} {a : Admitted} (bus : Bus)

theorem runQuick_of_front {k : Kind} (h : (at_ bus s).frontQuick k = some a) (effect : Admitted → State → State) :
    (at_ bus s).runQuick k effect = (effect a (at_ bus s)).quickDone.settleOps := by
  unfold runQuick
  rw [h]

theorem exec_close (f : Front .close a s) :
    Machine.exec (.close bus) s = .next ((doClose a (at_ bus s)).quickDone.settleOps) :=
  (congrArg Host.Outcome.next (s.commandedOn_on bus _ f.1.1 f.1.2)).trans
    (congrArg Host.Outcome.next (runQuick_of_front (s := s) bus f.2 doClose))

theorem exec_resolve (f : Front .resolve a s) :
    Machine.exec (.resolve bus) s = .next ((doResolve a (at_ bus s)).quickDone.settleOps) :=
  (congrArg Host.Outcome.next (s.commandedOn_on bus _ f.1.1 f.1.2)).trans
    (congrArg Host.Outcome.next (runQuick_of_front (s := s) bus f.2 doResolve))

theorem exec_journalRelease (f : Front .journalRelease a s) :
    Machine.exec (.journalRelease bus) s = .next ((doJournalRelease a (at_ bus s)).quickDone.settleOps) :=
  (congrArg Host.Outcome.next (s.commandedOn_on bus _ f.1.1 f.1.2)).trans
    (congrArg Host.Outcome.next (runQuick_of_front (s := s) bus f.2 doJournalRelease))

theorem kept_at (k : Kept (at_ bus s) t) : Kept s t :=
  keeps_kept.trans (onBus_does (keeps_kept.mono rfl) bus (Kept.refl s)) k

/-- A quick slip that is refused, or finds nothing to do. -/
theorem refused_replied (act : Acts s) (calm : Calm s) (a : Admitted) (st : Status) :
    Replied (at_ bus s) (at_ bus s) a.slip st [] ((at_ bus s).reply a st []).quickDone.settleOps :=
  reply_replied (x := at_ bus s) calm act.2 (.refl _) rfl a st []

theorem close_replied (act : Acts s) (calm : Calm s) (a : Admitted) (ts : List (Nat × Segment)) :
    Replied (at_ bus s) (closeAll .slip (ts.map Prod.fst) (at_ bus s)) a.slip .done (closeCounts ts)
      ((closeAll .slip (ts.map Prod.fst) (at_ bus s)).reply a .done (closeCounts ts)).quickDone.settleOps := by
  refine reply_replied ?_ ?_ (closeAll_stands ..) (closeAll_does (same_feed.mono rfl) .slip _ rfl) a .done _
  · exact SweepStands.calm (s := at_ bus s) (.of_notes (closeAll_does (keeps_notes.mono rfl) .slip _ rfl)
      (closeAll_does (same_exec.mono rfl) .slip _ rfl)) calm
  · rw [closeAll_engine]
    exact act.2

/-- RESOLVE of a SUSPECT segment. -/
theorem resolve_replied (act : Acts s) (calm : Calm s) (a : Admitted) (n : Nat) (g : Segment) :
    Replied (at_ bus s) (((at_ bus s).onSegment n fun x => { x with mark := .unverified }).log .suspectResolved (.segment n) g.part
        g.fails 0) a.slip .done (fours [g.fails])
      ((((at_ bus s).onSegment n fun x => { x with mark := .unverified }).log .suspectResolved (.segment n) g.part g.fails 0).reply a
        .done (fours [g.fails])).quickDone.settleOps := by
  set y := (at_ bus s).onSegment n fun x => { x with mark := .unverified }
  have desk : y.desk = (at_ bus s).desk := onSegment_does (same_desk.mono rfl) n _ rfl
  have exec : y.exec = (at_ bus s).exec := onSegment_does (same_exec.mono rfl) n _ rfl
  have marked : SlipsStand (at_ bus s) y :=
    .of_same desk (onSegment_does (same_fails.mono rfl) n _ rfl) (onSegment_does (same_mem.mono rfl) n _ rfl)
  refine reply_replied ?_ ?_ (marked.trans (.of_quiet (log_quiet ..))) ?_ a .done _
  · refine SweepStands.calm (s := at_ bus s) (.of_notes ?_ (log_does (same_exec.mono rfl) _ _ _ _ _ exec)) calm
    rw [← desk]
    exact log_does (keeps_notes.mono rfl) _ _ _ _ _ (s := y) rfl
  · rw [(log_segments ..).engine, show y.engine = s.engine from onSegment_does (same_engine.mono rfl) n _ rfl]
    exact act.2
  · exact log_does (same_feed.mono rfl) _ _ _ _ _ (onSegment_does (same_feed.mono rfl) n _ rfl)

/-- The closes of a CLOSE, as the slip's sweep leaves them. -/
theorem close_segments (hr : rising s.cat.table = true) (a : Admitted)
    (segments : SegmentsStand (closeAll .slip ((s.targetsOf a).map Prod.fst) (at_ bus s)) t) (i : Nat) :
    t.extent? i = if i ∈ (s.targetsOf a).map Prod.fst then (s.extent? i).map closedExtent else s.extent? i := by
  have closed := extent?_closeAll (s := at_ bus s) hr .slip ((s.targetsOf a).map Prod.fst) i
  rw [segments.extent?, closed]
  rfl

/-- A CLOSE slip selects a segment. -/
def selects (a : Admitted) (g : Segment) : Bool :=
  selectedBy (flagSet (a.params.getD 2 0)) (field a.params 0 2) (field a.params 4 2) g

theorem mem_targetsOf_iff (a : Admitted) (i : Nat) :
    i ∈ (s.targetsOf a).map Prod.fst ↔ ∃ g, s.live? i = some (.filling, g) ∧ selects a g = true :=
  mem_closeTargets_iff (s := s) _ _ _ i

theorem extent?_of_selected (hr : rising s.cat.table = true)
    (segments : SegmentsStand (closeAll .slip ((s.targetsOf a).map Prod.fst) (at_ bus s)) t) {i : Nat} {g : Segment}
    (live : s.live? i = some (.filling, g)) (sel : selects a g = true) :
    ∃ e : Extent, t.extent? i = some { e with content := closedContent g } := by
  obtain ⟨e, he, c⟩ := live?_eq_some_iff.mp live
  refine ⟨e, ?_⟩
  rw [close_segments bus hr a segments i, if_pos ((mem_targetsOf_iff a i).mpr ⟨g, live, sel⟩), he, Option.map_some,
    closedExtent_filling c]

/-- A segment that is not FILLING or not selected keeps its state and fields. -/
theorem live?_of_unselected (hr : rising s.cat.table = true)
    (segments : SegmentsStand (closeAll .slip ((s.targetsOf a).map Prod.fst) (at_ bus s)) t) {i : Nat} {st : LiveState} {g : Segment}
    (live : s.live? i = some (st, g)) (out : st ≠ .filling ∨ selects a g = false) : t.live? i = some (st, g) := by
  have kept : ¬ i ∈ (s.targetsOf a).map Prod.fst := fun mem => by
    obtain ⟨g', live', sel⟩ := (mem_targetsOf_iff a i).mp mem
    obtain ⟨rfl, rfl⟩ := Prod.mk.inj (Option.some.inj (live.symm.trans live'))
    exact out.elim (fun c => c rfl) fun c => absurd (sel.symm.trans c) (by decide)
  rw [live?, close_segments bus hr a segments i, if_neg kept]
  exact live

/-- What the release mark's rise leaves, with the waits for room that it ends. -/
def releasing (a : Admitted) (s : State) : State := (s.releaseTo (field a.params 0 8)).endRoomWaits

theorem releasing_exec (a : Admitted) (s : State) : (releasing a s).scrub =
      (if 65536 ≤ (s.releaseTo (field a.params 0 8)).room then { s.scrub with awaitsRoom := false } else s.scrub) ∧
    (releasing a s).exec = if 65536 ≤ (s.releaseTo (field a.params 0 8)).room then
      { s.exec with running := s.exec.running.map passGoesOn, suspended := s.exec.suspended.map passGoesOn,
                    waiting := s.exec.waiting.map passGoesOn }
      else s.exec := by
  unfold releasing
  by_cases back : 65536 ≤ (s.releaseTo (field a.params 0 8)).room
  · rw [endRoomWaits_of_reserve (decide_eq_true back), if_pos back, if_pos back]
    exact ⟨rfl, rfl⟩
  · rw [endRoomWaits_of_not (fun c => back (of_decide_eq_true c)), if_neg back, if_neg back]
    exact ⟨rfl, rfl⟩

theorem doJournalRelease_of_empty (empty : s.jnl.line = []) (a : Admitted) :
    doJournalRelease a s = (releasing a s).reply a .done (leBytes 8 (releasing a s).jnl.release) := by
  have line : ((releasing a s).reply a .done (leBytes 8 (releasing a s).jnl.release)).jnl.line = [] := by
    rw [show ((releasing a s).reply a .done (leBytes 8 (releasing a s).jnl.release)).jnl = (s.releaseTo (field a.params 0 8)).jnl from
      reply_does (same_jnl.mono rfl) a .done _ (endRoomWaits_does (same_jnl.mono rfl) rfl)]
    exact empty
  exact drainLine_of_empty line

theorem releasing_release (a : Admitted) (s : State) :
    (releasing a s).jnl.release = max s.jnl.release (min (field a.params 0 8) s.jnl.head) :=
  endRoomWaits_does (same_release.mono rfl) (s := s.releaseTo (field a.params 0 8)) rfl

theorem release_replied (act : Acts s) (calm : Calm s) (a : Admitted) (vs : List Byte) :
    Replied (at_ bus s) (releasing a (at_ bus s)) a.slip .done vs
      ((releasing a (at_ bus s)).reply a .done vs).quickDone.settleOps := by
  have released : Calm ((at_ bus s).releaseTo (field a.params 0 8)) := calm
  refine reply_replied (calm_endRoomWaits released) ?_ ?_ ?_ a .done vs
  · have engine : (releasing a (at_ bus s)).engine = s.engine :=
      endRoomWaits_does (same_engine.mono rfl) (s := (at_ bus s).releaseTo (field a.params 0 8)) rfl
    exact fun c => act.2 (engine.symm.trans c)
  · exact .of_same (endRoomWaits_does (same_desk.mono rfl) rfl) (endRoomWaits_does (same_fails.mono rfl) rfl)
      (endRoomWaits_does (same_mem.mono rfl) rfl)
  · exact endRoomWaits_does (same_feed.mono rfl) rfl

/-- JOURNAL-RELEASE, whatever it drains and whatever the sweep's end brings. -/
theorem journalRelease_frame (f : Front .journalRelease a s) : ∃ t, Machine.exec (.journalRelease bus) s = .next t ∧
    t = (doJournalRelease a (at_ bus s)).quickDone.settleOps ∧
    t.jnl.release = max s.jnl.release (min (field a.params 0 8) s.jnl.head) ∧ t.jnl.settled = s.jnl.settled ∧
    t.ret = s.ret ∧ Kept s t := by
  have effect : doJournalRelease a (at_ bus s) = ((releasing a (at_ bus s)).reply a .done
    (leBytes 8 (releasing a (at_ bus s)).jnl.release)).drainLine := rfl
  have settled : (releasing a (at_ bus s)).jnl.settled = s.jnl.settled :=
    endRoomWaits_does (same_settled.mono rfl) (s := (at_ bus s).releaseTo (field a.params 0 8)) rfl
  have release := releasing_release a (at_ bus s)
  have ret : (releasing a (at_ bus s)).ret = s.ret :=
    endRoomWaits_does (same_ret.mono rfl) (s := (at_ bus s).releaseTo (field a.params 0 8)) rfl
  have kept : Kept s (releasing a (at_ bus s)) :=
    endRoomWaits_does (keeps_kept.mono rfl) (s := (at_ bus s).releaseTo (field a.params 0 8)) ⟨rfl, rfl, rfl, rfl, rfl, rfl, rfl⟩
  refine ⟨_, exec_journalRelease bus f, rfl, ?_⟩
  rw [effect]
  generalize releasing a (at_ bus s) = x at *
  have keep {α : Type} {F : State → α} (o : Obeys (Same F) [.notes, .book, .place, .desk, .buf, .exec, .feed, .pool, .recon, .eds,
      .coder, .cat, .dir, .lanes, .scrub, .jnl]) : F (x.reply a .done (leBytes 8 x.jnl.release)).drainLine.quickDone.settleOps = F x :=
    settleOps_does (o.mono rfl) (quickDone_does (o.mono rfl) (drainLine_does (o.mono rfl) (reply_does (o.mono rfl) a .done _ rfl)))
  exact ⟨(keep (same_release.mono rfl)).trans release, (keep (same_settled.mono rfl)).trans settled,
    (keep (same_ret.mono rfl)).trans ret,
    (keep (same_pending.mono rfl)).trans kept.pending, (keep (same_powered.mono rfl)).trans kept.powered,
    (keep (same_stamp.mono rfl)).trans kept.stamp, (keep (same_engine.mono rfl)).trans kept.engine,
    (keep (same_base.mono rfl)).trans kept.base, (keep (same_period.mono rfl)).trans kept.period,
    (keep (same_media.mono rfl)).trans kept.media⟩

/-- Settles O59: each slip's effect, then its answer and the end of a calm sweep. -/
theorem closeResolveAndJournalRelease : Obligations.CloseResolveAndJournalRelease := by
  unfold Obligations.CloseResolveAndJournalRelease
  refine ⟨fun bus a s calm hr => ⟨fun f => ?_, fun f => ?_⟩, fun bus a s f => ?_, room_releaseTo⟩
  · by_cases good : GoodSwitch (flagSet (a.params.getD 2 0)) (field a.params 0 2)
    · have r := close_replied bus f.1 calm a (s.targetsOf a)
      have eq := exec_close bus f
      rw [doClose_of_good fun bad => (badSwitch_iff _ _).mp bad good] at eq
      have counts := closeTargets_length s (flagSet (a.params.getD 2 0)) (field a.params 0 2) (field a.params 4 2)
      have at_eq : (at_ bus s).targetsOf a = s.targetsOf a := rfl
      rw [at_eq] at eq
      refine ⟨_, eq, ?_⟩
      generalize ((closeAll .slip ((s.targetsOf a).map Prod.fst) (at_ bus s)).reply a .done
        (closeCounts (s.targetsOf a))).quickDone.settleOps = t at r
      refine ⟨?_, ?_, ?_, fun bad => absurd good bad, fun _ => ⟨?_, fun i g live sel ready => ?_, fun i g live sel given => ?_,
        fun i g live sel none => ?_, fun i st g live not => ?_⟩⟩
      · exact r.ret.trans (closeAll_does (same_ret.mono rfl) .slip _ rfl)
      · exact congrArg Recon.gaps (r.recon.trans (closeAll_does (same_recon.mono rfl) .slip _ rfl))
      · exact keeps_kept.trans (closeAll_does (keeps_kept.mono rfl) .slip _ (onBus_does (keeps_kept.mono rfl) bus (Kept.refl s)))
          r.kept
      · have given := r.answered
        unfold closeCounts targetsOf at given
        rw [counts.1, counts.2] at given
        exact given
      · exact r.remembers _ (closeAll_submits (s := at_ bus s) ((mem_targetsOf_iff a i).mpr ⟨g, live, sel⟩) live ready .slip)
      · obtain ⟨e, he⟩ := extent?_of_selected bus hr r.segments live sel
        exact live?_of_extent he (if_neg given)
      · obtain ⟨e, he⟩ := extent?_of_selected bus hr r.segments live sel
        rw [he]
        exact congrArg some (if_pos none)
      · exact live?_of_unselected bus hr r.segments live not
    · have r := refused_replied bus f.1 calm a .badSwitch
      have eq := exec_close bus f
      rw [doClose_of_bad ((badSwitch_iff _ _).mpr good)] at eq
      exact ⟨_, eq, r.ret, congrArg Recon.gaps r.recon, kept_at bus r.kept, fun _ => ⟨r.segments.table, r.answered⟩,
        fun c => absurd c good⟩
  · by_cases suspect : ∃ st g, s.live? (field a.params 0 4) = some (st, g) ∧ g.mark = .suspect
    · obtain ⟨st, g, live, mark⟩ := suspect
      have r := resolve_replied bus f.1 calm a (field a.params 0 4) g
      have eq := exec_resolve bus f
      rw [doResolve_of_suspect (s := at_ bus s) live mark] at eq
      refine ⟨_, eq, ?_, ?_, ?_, fun st' g' live' _ => ?_, fun no => absurd mark (no st g live)⟩
      · exact r.ret.trans (log_does (same_ret.mono rfl) _ _ _ _ _ (onSegment_does (same_ret.mono rfl) _ _ rfl))
      · exact r.eds.trans (log_does (same_eds.mono rfl) _ _ _ _ _ (onSegment_does (same_eds.mono rfl) _ _ rfl))
      · exact keeps_kept.trans (log_does (keeps_kept.mono rfl) _ _ _ _ _ (onSegment_does (keeps_kept.mono rfl) _ _
          (onBus_does (keeps_kept.mono rfl) bus (Kept.refl s)))) r.kept
      · obtain ⟨rfl, rfl⟩ := Prod.mk.inj (Option.some.inj (live.symm.trans live'))
        refine ⟨?_, r.answered, fun ready => r.remembers _ (log_submitted ?_ _ _ _ _ _)⟩
        · rw [r.segments.live?, (log_segments ..).live?]
          exact live?_onSegment (s := at_ bus s) live _
        · have engine : ((at_ bus s).onSegment (field a.params 0 4) fun x => { x with mark := .unverified }).engine = s.engine :=
            onSegment_does (same_engine.mono rfl) _ _ rfl
          exact engine.trans ready
    · have r := refused_replied bus f.1 calm a .notFound
      have eq := exec_resolve bus f
      rw [doResolve_of_not (s := at_ bus s) fun st g live mark => suspect ⟨st, g, live, mark⟩] at eq
      exact ⟨_, eq, r.ret, r.eds, kept_at bus r.kept, fun st g live mark => absurd ⟨st, g, live, mark⟩ suspect,
        fun _ => ⟨r.segments.table, r.answered⟩⟩
  · obtain ⟨t, eq, ht, release, settled, ret, kept⟩ := journalRelease_frame bus f
    refine ⟨t, eq, release, settled, ret, kept, fun calm empty => ?_⟩
    have r := release_replied bus f.1 calm a (leBytes 8 (releasing a (at_ bus s)).jnl.release)
    rw [← doJournalRelease_of_empty (s := at_ bus s) empty, ← ht, releasing_release] at r
    obtain ⟨scrub, exec⟩ := releasing_exec a (at_ bus s)
    refine ⟨r.answered, r.scrub.trans scrub, fun o running pass => ?_⟩
    have reserve : ((at_ bus s).releaseTo (field a.params 0 8)).room = (s.releaseTo (field a.params 0 8)).room := rfl
    rw [reserve] at exec
    split_ifs at exec ⊢ with back
    · have runs := r.exec (passGoesOn o) (by rw [exec]; exact congrArg (Option.map passGoesOn) running)
        ((roomBack_fetches o.body).trans (fetches_of_pass pass))
      rw [exec] at runs
      rw [show passGoesOn = _ from funext passGoesOn_eq] at runs
      exact runs
    · have runs := r.exec o (by rw [exec]; exact running) (fetches_of_pass pass)
      rw [exec] at runs
      exact runs

end Sys2Proof.Claims
end

section
/-! SUPPORT. A verdict after a failed fetch, and what its reader does then (R158, R161 to R163, R165, R166, R171), for O36. -/

namespace Sys2Proof.Machine.State

open Sys2Proof.Claims

variable {s t u w x : State} {n off : Nat} {st : LiveState} {g : Segment} {o : Op} {v : Visit} {r : Reader}

/-! ## The standing and its entry (R161) -/

/-- A segment that has failed: SUSPECT, the fail count up by 1. -/
def failing (g : Segment) : Segment := { g with mark := .suspect, fails := min (g.fails + 1) 15 }

/-- The VERIFY-FAIL entry of a media error. -/
def mediaFail (n off : Nat) (g : Segment) : EntryBody := EntryBody.mk0 .verifyFail (.segment n) 1 (min (g.fails + 1) 15) off

/-- The segment has failed, its extent's lane-fault flag is set and its entry submitted; the visit is over or still pins it. -/
structure FailsAt (n off : Nat) (st : LiveState) (g : Segment) (finished : Bool) (t : State) : Prop where
  live : t.live? n = some (st, { failing g with pins := if finished then g.pins - 1 else g.pins })
  fault : (t.extent? n).map Extent.fault = some true
  submitted : Submitted (mediaFail n off g) t

theorem FailsAt.mono {finished : Bool} (h : FailsAt n off st g finished s) (segments : SegmentsStand s t) (remembers : Remembers s t) :
    FailsAt n off st g finished t :=
  ⟨(segments.live? n).trans h.live, by rw [segments.extent?]; exact h.fault, remembers _ h.submitted⟩

/-- The extent's flag stands when the segment's fields change. -/
theorem fault_onSegment (h : (s.extent? n).map Extent.fault = some true) (f : Segment → Segment) :
    ((s.onSegment n f).extent? n).map Extent.fault = some true := by
  cases live : s.live? n with
  | none => rwa [onSegment_of_none live]
  | some y =>
    obtain ⟨st, g⟩ := y
    obtain ⟨e, he, c⟩ := live?_eq_some_iff.mp live
    rw [extent?_onSegment he c, Option.map_some]
    rwa [he, Option.map_some] at h

/-- The segment unpinned by the reader that leaves it. -/
theorem FailsAt.unpin (h : FailsAt n off st g false s) : FailsAt n off st g true (s.unpin n) where
  live := live?_onSegment h.live _
  fault := fault_onSegment h.fault _
  submitted := Remembers.of_jnl (onSegment_does (same_jnl.mono rfl) n (fun g => { g with pins := g.pins - 1 }) rfl) _ h.submitted

/-- The verdict before its entry: the standing set, and counted by the reader. -/
def judged (r : Reader) (n : Nat) (s : State) : State := (s.standFail n).countReader r false

/-- The submission of the verdict's entry. -/
def verdictSub (r : Reader) (n off : Nat) (g : Segment) : Submission :=
  { entries := [mediaFail n off g], who := readerProducer r, acts := [.verdict r] }

/-- The verdict with its entry submitted. -/
def told (r : Reader) (n off : Nat) (g : Segment) (s : State) : State := ((s.judged r n).submit (verdictSub r n off g)).1

theorem judged_live (live : s.live? n = some (st, g)) (r : Reader) : (s.judged r n).live? n = some (st, failing g) := by
  have counted : SegmentsStand (s.standFail n) (s.judged r n) := countReader_does (keeps_segments.mono rfl) r false (.refl _)
  rw [counted.live?]
  exact live?_onSegment live _

theorem giveVerdict_media (live : s.live? v.seg = some (st, g)) (r : Reader) (off : Nat) :
    s.giveVerdict r (some (.media, off)) v =
      if ((s.judged r v.seg).submit (verdictSub r v.seg off g)).2 then (s.told r v.seg off g).verdictDone r
      else (s.told r v.seg off g).setVisit r (some { v with judged := true, waiting := false, kept := none }) := by
  have fails : (s.judged r v.seg).failsOf v.seg = min (g.fails + 1) 15 := by
    rw [failsOf, judged_live live]
    rfl
  unfold judged at fails
  unfold giveVerdict
  dsimp only
  rw [fails]
  rfl

/-- The journal takes the verdict's entry exactly where one fits. -/
theorem verdict_taken (ready : s.engine = .ready) (r : Reader) (n off : Nat) (g : Segment) :
    ((s.judged r n).submit (verdictSub r n off g)).2 = true ↔ EntriesFit 1 s := by
  have jnl : (s.judged r n).jnl = s.jnl := countReader_does (same_jnl.mono rfl) r false (standFail_does (same_jnl.mono rfl) n rfl)
  have engine : (s.judged r n).engine = .ready :=
    (countReader_does (same_engine.mono rfl) r false (standFail_does (same_engine.mono rfl) n rfl) : _ = s.engine).trans ready
  rw [← entriesFit_congr jnl, show 1 = (verdictSub r n off g).entries.length from rfl,
    ← takesAtOnce_iff_fits (verdictSub r n off g) (List.cons_ne_nil _ _)]
  obtain ⟨takes, eq⟩ | ⟨takes, eq⟩ := submit_of_ready engine (verdictSub r n off g) <;> rw [eq, takes]

/-- What the verdict and its entry leave. -/
structure Told (r : Reader) (n off : Nat) (st : LiveState) (g : Segment) (s z : State) : Prop where
  fails : FailsAt n off st g false z
  stand : SlipsStand s z
  feed : z.feed = s.feed
  engine : z.engine = s.engine
  laps : bget z.desk.counters Counter.scrubLaps.index = bget s.desk.counters Counter.scrubLaps.index
  exec : z.exec = (s.countReader r false).exec
  scrub : z.scrub = (s.countReader r false).scrub
  took : EntriesFit 1 s → Took [mediaFail n off g] s.jnl z.jnl

theorem told_told (live : s.live? n = some (st, g)) (ready : s.engine = .ready) (fault : (s.extent? n).map Extent.fault = some true)
    (r : Reader) (off : Nat) : Told r n off st g s (s.told r n off g) := by
  have counts {α : Type} {F : State → α} (oF : Obeys (Same F) [.exec, .cat, .scrub]) : F (s.judged r n) = F s :=
    countReader_does (oF.mono rfl) r false (standFail_does (oF.mono rfl) n rfl)
  have engine : (s.judged r n).engine = s.engine := counts (same_engine.mono rfl)
  have jnl : (s.judged r n).jnl = s.jnl := counts (same_jnl.mono rfl)
  have quiet : Quiet (s.judged r n) (s.told r n off g) := submit_quiet ..
  have stood : SlipsStand s (s.judged r n) :=
    .of_same (counts (same_desk.mono rfl)) (counts (same_fails.mono rfl)) (counts (same_mem.mono rfl))
  have segments : SegmentsStand (s.judged r n) (s.told r n off g) := submit_segments ..
  have standExec : (s.standFail n).exec = s.exec := standFail_does (same_exec.mono rfl) n rfl
  have standScrub : (s.standFail n).scrub = s.scrub := standFail_does (same_scrub.mono rfl) n rfl
  refine ⟨⟨?_, ?_, ?_⟩, stood.trans (.of_quiet quiet), quiet.feed.trans (counts (same_feed.mono rfl)), quiet.engine.trans engine, ?_,
    ?_, ?_, fun fits => ?_⟩
  · rw [segments.live?, judged_live live]
    rfl
  · have counted : SegmentsStand (s.standFail n) (s.judged r n) := countReader_does (keeps_segments.mono rfl) r false (.refl _)
    rw [segments.extent?, counted.extent?]
    exact fault_onSegment fault _
  · exact submit_submitted (engine.trans ready) (verdictSub r n off g) _ (List.mem_singleton.mpr rfl)
  · exact (quiet.counters .scrubLaps (by decide)).trans (congrArg (fun d : Desk => bget d.counters _) (counts (same_desk.mono rfl)))
  · have same : (s.judged r n).exec = (s.countReader r false).exec := by
      unfold judged
      cases r <;> simp [countReader, onOp, onExec, onScrub, standExec]
    exact (submit_does (same_exec.mono rfl) _ rfl).trans same
  · have same : (s.judged r n).scrub = (s.countReader r false).scrub := by
      unfold judged
      cases r <;> simp [countReader, onOp, onExec, onScrub, standScrub]
    exact (submit_does (same_scrub.mono rfl) _ rfl).trans same
  · rw [← jnl]
    refine (submit_of_fits (engine.trans ready) (verdictSub r n off g) ?_).2
    exact (takesAtOnce_iff_fits _ (List.cons_ne_nil _ _)).mpr ((entriesFit_congr jnl).mpr fits)

/-! ## What settling leaves of the counters and the line -/

theorem settle_counts {c : Counter} (h : c ≠ .findings) (s : State) :
    bget s.settle.desk.counters c.index = bget s.desk.counters c.index := by
  have resumed : s.resumeStalled.desk.counters = s.desk.counters := resumeStalled_does (same_counters.mono rfl) rfl
  rw [settle, (pump_quiet _).counters c h, (runCoder_quiet _).counters c h, resumed]

theorem settle_waits {p : Producer} (h : s.waits p = true) : s.settle.waits p = true := by
  have resumed : s.resumeStalled.jnl = s.jnl := resumeStalled_does (same_jnl.mono rfl) rfl
  have line : s.jnl.line <+: s.settle.jnl.line := by
    rw [← resumed]
    exact (runCoder_quiet s.resumeStalled).line.trans (pump_quiet _).line
  unfold waits at h ⊢
  rw [List.any_eq_true] at h ⊢
  obtain ⟨x, mem, hx⟩ := h
  exact ⟨x, line.subset mem, hx⟩

/-! ## The scrub at its verdict (R165, R166) -/

/-- The lap's entry as the scrub submits it past the last number. -/
def lapSub (y : Scrub) : Submission :=
  { entries := [EntryBody.mk0 .scrubLap .none y.checked y.failed (y.startDay.getD 0)], who := .scrub, acts := [.lapEnd] }

theorem scrubAdvance_within (h : s.scrub.cursor + 1 < 262144) :
    s.scrubAdvance = s.onScrub fun x => { x with cursor := x.cursor + 1, state := .walking } := if_pos h

theorem scrubAdvance_past (h : 262144 ≤ s.scrub.cursor + 1) : s.scrubAdvance =
    if (s.submit (lapSub s.scrub)).2 then (s.submit (lapSub s.scrub)).1.lapEnd
    else (s.submit (lapSub s.scrub)).1.onScrub fun x => { x with state := .walking } := if_neg (Nat.not_lt.mpr h)

/-- The scrub goes on from its verdict, before things settle. -/
theorem scrubAdvance_movesOn {now : Scrub} {k : Nat} (cursor : now.cursor = s.scrub.cursor) (ready : w.engine = .ready)
    (scrub : w.scrub = { now with visit := none })
    (laps : bget w.desk.counters Counter.scrubLaps.index = bget s.desk.counters Counter.scrubLaps.index)
    (fits : EntriesFit 1 w ↔ EntriesFit k s) : ScrubMovesOn now k s w.scrubAdvance.settle := by
  have here : w.scrub.cursor = s.scrub.cursor := by rw [scrub]; exact cursor
  have settled : w.scrubAdvance.settle.scrub = w.scrubAdvance.scrub := settle_does (same_scrub.mono rfl) rfl
  have sub : (lapSub w.scrub).entries ≠ [] := List.cons_ne_nil _ _
  have told : (w.submit (lapSub w.scrub)).1.scrub = w.scrub := submit_does (same_scrub.mono rfl) _ rfl
  have quiet := submit_quiet (lapSub w.scrub) w
  have counted := (quiet.counters .scrubLaps (by decide)).trans laps
  have entry : (lapSub w.scrub).entries = [EntryBody.mk0 .scrubLap .none now.checked now.failed (now.startDay.getD 0)] := by
    rw [scrub]
    rfl
  refine ⟨fun within => ?_, fun past => ⟨?_, fun f => ?_, fun f => ?_⟩⟩
  · rw [settled, scrubAdvance_within (by rwa [here]), onScrub_scrub, here, scrub]
  · have submitted := submit_submitted ready (lapSub w.scrub) _ (by rw [entry]; exact List.mem_singleton.mpr rfl)
    refine settle_remembers _ _ ?_
    rw [scrubAdvance_past (by rwa [here])]
    split
    · exact Remembers.of_jnl (lapEnd_does (same_jnl.mono rfl) rfl) _ submitted
    · exact submitted
  · obtain ⟨-, eq⟩ | ⟨no, -⟩ := submit_of_ready ready (lapSub w.scrub)
    · have taken : w.scrubAdvance = (w.submit (lapSub w.scrub)).1.lapEnd := by
        rw [scrubAdvance_past (by rwa [here]), eq]
        rfl
      refine ⟨?_, ?_⟩
      · have noticed : (notice .scrubLaps (w.submit (lapSub w.scrub)).1).scrub = w.scrub :=
          notice_does (same_scrub.mono rfl) .scrubLaps told
        rw [settled, taken, lapEnd, onScrub_scrub, noticed, scrub]
      · dsimp only
        rw [settle_counts (by decide), taken, lapEnd, ← counted]
        show bget (notice .scrubLaps _).desk.counters _ = _
        rw [notice_counters, bget_bset_self]
    · exact absurd ((takesAtOnce_iff_fits _ sub).mpr (fits.mpr f)) (by rw [no]; decide)
  · obtain ⟨takes, -⟩ | ⟨-, eq⟩ := submit_of_ready ready (lapSub w.scrub)
    · exact absurd (fits.mp ((takesAtOnce_iff_fits _ sub).mp takes)) f
    · have waits : w.scrubAdvance = (w.submit (lapSub w.scrub)).1.onScrub fun x => { x with state := .walking } := by
        rw [scrubAdvance_past (by rwa [here]), eq]
        rfl
      refine ⟨?_, ?_, ?_⟩
      · rw [settled, waits, onScrub_scrub, told, scrub]
      · refine settle_waits ?_
        rw [waits, eq]
        simp [State.waits, lapSub]
      · dsimp only
        rw [settle_counts (by decide), waits]
        exact counted

theorem scrubAdvance_segments (w : State) : SegmentsStand w w.scrubAdvance.settle :=
  settle_does (keeps_segments.mono rfl) (scrubAdvance_does (keeps_segments.mono rfl) (.refl w))

theorem scrubAdvance_remembers (w : State) : Remembers w w.scrubAdvance.settle := by
  refine .trans ?_ (settle_remembers _)
  have told : Remembers w (w.submit (lapSub w.scrub)).1 := .of_quiet (submit_quiet ..)
  by_cases past : 262144 ≤ w.scrub.cursor + 1
  · rw [scrubAdvance_past past]
    split
    · exact told.trans (.of_jnl (lapEnd_does (same_jnl.mono rfl) rfl))
    · exact told.trans (.of_jnl rfl)
  · rw [scrubAdvance_within (Nat.not_le.mp past)]
    exact .of_jnl rfl

theorem verdictDone_scrub_exec (y : State) : (y.verdictDone .scrub).exec = y.exec := by
  have left : (y.leaveVisit .scrub).exec = y.exec := by
    unfold leaveVisit
    split
    · rename_i v _
      exact (unpin_does (same_exec.mono rfl) v.seg rfl : (y.unpin v.seg).exec = y.exec)
    · rfl
  unfold verdictDone
  split
  · rfl
  · exact (scrubAdvance_does (same_exec.mono rfl) rfl : _ = (y.leaveVisit .scrub).exec).trans left

/-- A failed fetch of the scrub: the verdict, and the scrub moves on or waits with its pin for the entry. -/
theorem scrub_fails (visit : s.scrub.visit = some v) (live : s.live? v.seg = some (st, g)) (ready : s.engine = .ready)
    (fault : (s.extent? v.seg).map Extent.fault = some true) (off : Nat) :
    (s.fetchDone .scrub (.error off)).exec = s.exec ∧
    (EntriesFit 1 s → FailsAt v.seg off st g true (s.fetchDone .scrub (.error off)).settle ∧
      ScrubMovesOn { s.scrub with checked := s.scrub.checked + 1, failed := s.scrub.failed + 1 } 2 s
        (s.fetchDone .scrub (.error off)).settle) ∧
    (¬ EntriesFit 1 s → FailsAt v.seg off st g false (s.fetchDone .scrub (.error off)).settle ∧
      (s.fetchDone .scrub (.error off)).settle.scrub =
        { s.scrub with checked := s.scrub.checked + 1, failed := s.scrub.failed + 1,
                       visit := some { v with judged := true, waiting := false, kept := none } }) := by
  have z := told_told live ready fault .scrub off
  have done : s.fetchDone .scrub (.error off) = s.giveVerdict .scrub (some (.media, off)) v := by
    show verifyArrives .scrub (.error off) s = _
    unfold verifyArrives visitOf
    rw [visit]
  have taken := verdict_taken ready .scrub v.seg off g
  rw [done, giveVerdict_media live]
  have scrub : (s.told .scrub v.seg off g).scrub =
      { s.scrub with checked := s.scrub.checked + 1, failed := s.scrub.failed + 1 } := z.scrub
  have exec : (s.told .scrub v.seg off g).exec = s.exec := z.exec
  generalize s.told .scrub v.seg off g = y at z scrub exec ⊢
  refine ⟨?_, fun fits => ?_, fun full => ?_⟩
  · split
    · exact (verdictDone_scrub_exec y).trans exec
    · exact exec
  · rw [if_pos (taken.mpr fits)]
    have leaves : y.verdictDone .scrub = ((y.unpin v.seg).setVisit .scrub none).scrubAdvance := by
      have here : y.visitOf .scrub = some v := by
        show y.scrub.visit = some v
        rw [scrub]
        exact visit
      unfold verdictDone leaveVisit
      rw [here]
    rw [leaves]
    set w := (y.unpin v.seg).setVisit .scrub none with hw
    have unpinned : (y.unpin v.seg).scrub = y.scrub := unpin_does (same_scrub.mono rfl) v.seg rfl
    have desk : w.desk = y.desk := setVisit_does (same_desk.mono rfl) .scrub none (unpin_does (same_desk.mono rfl) v.seg rfl)
    have jnl : w.jnl = y.jnl := setVisit_does (same_jnl.mono rfl) .scrub none (unpin_does (same_jnl.mono rfl) v.seg rfl)
    have engine : w.engine = y.engine := setVisit_does (same_engine.mono rfl) .scrub none (unpin_does (same_engine.mono rfl) v.seg rfl)
    refine ⟨?_, scrubAdvance_movesOn (s := s) rfl (engine.trans (z.engine.trans ready)) ?_ ?_ ?_⟩
    · exact z.fails.unpin.mono (.trans (setVisit_does (keeps_segments.mono rfl) .scrub none (.refl _)) (scrubAdvance_segments w))
        (.trans (.of_jnl rfl) (scrubAdvance_remembers w))
    · show { (y.unpin v.seg).scrub with visit := none } = _
      rw [unpinned, scrub]
    · rw [desk]
      exact z.laps
    · rw [entriesFit_congr jnl]
      exact ⟨fun more => entriesFit_before_took (z.took fits) one_ne_zero more, fun more => entriesFit_of_took (z.took fits) more⟩
  · rw [if_neg (mt taken.mp full)]
    set w := y.setVisit .scrub (some { v with judged := true, waiting := false, kept := none }) with hw
    have segments : SegmentsStand y w := setVisit_does (keeps_segments.mono rfl) .scrub _ (.refl y)
    have told : Remembers y w := .of_jnl rfl
    refine ⟨z.fails.mono (segments.trans (settle_segments w)) (told.trans (settle_remembers w)), ?_⟩
    have settled : w.settle.scrub = w.scrub := settle_does (same_scrub.mono rfl) rfl
    have here : w.scrub = { y.scrub with visit := some { v with judged := true, waiting := false, kept := none } } := rfl
    rw [settled, here, scrub]

/-! ## The executor at a verdict (R162, R191) -/

/-- Of the executor, the running operation alone has changed, beside those with its number. -/
structure OneOp (adm : Nat) (s t : State) : Prop where
  waiting : t.exec.waiting = s.exec.waiting
  preempt : t.exec.preempt = s.exec.preempt
  suspended : (∀ q ∈ s.exec.suspended, q.adm ≠ adm) → t.exec.suspended = s.exec.suspended

namespace OneOp

variable {adm : Nat}

theorem of_exec (h : t.exec = s.exec) : OneOp adm s t := ⟨by rw [h], by rw [h], fun _ => by rw [h]⟩
theorem trans (h : OneOp adm s t) (g : OneOp adm t u) : OneOp adm s u :=
  ⟨g.waiting.trans h.waiting, g.preempt.trans h.preempt, fun d => (g.suspended (by rw [h.suspended d]; exact d)).trans (h.suspended d)⟩

theorem onOp (f : Op → Op) (s : State) : OneOp adm s (s.onOp adm f) where
  waiting := rfl
  preempt := rfl
  suspended d := by
    show s.exec.suspended.map (fun o => if o.adm = adm then f o else o) = _
    refine (List.map_congr_left fun q hq => ?_).trans (List.map_id _)
    exact if_neg (d q hq)

end OneOp

theorem onOp_running (h : s.exec.running = some o) (f : Op → Op) : (s.onOp o.adm f).exec.running = some (f o) := by
  simp [onOp, onExec, h]

/-- A running operation's visit is the one of its body. -/
theorem visitOf_running (h : s.exec.running = some o) : s.visitOf (.op o.adm) = o.body.visit := by
  simp [visitOf, opOf, h]

/-- The counts of a VERIFY after a failure. -/
def failedOne (c : VerifyCounts) : VerifyCounts := { c with checked := c.checked + 1, failed := c.failed + 1 }

/-- The progress that a failed verdict leaves, and what it leaves of the slips and of the other operations. -/
structure Verdict (n off : Nat) (st : LiveState) (g : Segment) (o : Op) (finished : Bool) (b : OpBody) (s w : State) : Prop where
  fails : FailsAt n off st g finished w
  stand : SlipsStand s w
  feed : w.feed = s.feed
  engine : w.engine = s.engine
  ops : OneOp o.adm s w
  running : w.exec.running = some { o with body := b }

/-- A failed fetch of a running VERIFY: the visit is over, and the answer is due past the last number; or it waits for the entry. -/
theorem verify_fails {sel : Selection} {cursor : Nat} {c : VerifyCounts} (running : s.exec.running = some o)
    (body : o.body = .verify sel cursor c (some v)) (live : s.live? v.seg = some (st, g)) (ready : s.engine = .ready)
    (fault : (s.extent? v.seg).map Extent.fault = some true) (off : Nat) : ∃ w,
    (s.opArrives (.error off) = w.verifyEnd ∧ Verdict v.seg off st g o true (.verify sel (cursor + 1) (failedOne c) none) s w) ∨
    (s.opArrives (.error off) = w ∧ Verdict v.seg off st g o false (.verify sel cursor (failedOne c)
      (some { v with judged := true, waiting := false, kept := none })) s w) := by
  have z := told_told live ready fault (.op o.adm) off
  have visit : s.visitOf (.op o.adm) = some v := by
    rw [visitOf_running running, body]
    rfl
  have arrives : s.opArrives (.error off) = s.giveVerdict (.op o.adm) (some (.media, off)) v := by
    have verifies : s.opArrives (.error off) = s.verifyArrives (.op o.adm) (.error off) := by
      unfold opArrives
      rw [running]
      dsimp only
      rw [body]
    rw [verifies, verifyArrives, visit]
  rw [arrives, giveVerdict_media live]
  have ran : (s.told (.op o.adm) v.seg off g).exec.running = some { o with body := .verify sel cursor (failedOne c) (some v) } := by
    rw [z.exec]
    refine (onOp_running running _).trans ?_
    rw [body]
    rfl
  have counted : OneOp o.adm s (s.told (.op o.adm) v.seg off g) := (OneOp.onOp _ s).trans (.of_exec z.exec)
  generalize s.told (.op o.adm) v.seg off g = y at z ran counted ⊢
  split
  · have here : y.visitOf (.op o.adm) = some v := (visitOf_running ran).trans rfl
    set left := (y.unpin v.seg).setVisit (.op o.adm) none with hl
    set w := left.onOp o.adm fun o =>
      { o with body := match o.body with
          | .verify sel cursor n v => .verify sel (cursor + 1) n v
          | b => b } with hw
    have leaves : y.verdictDone (.op o.adm) = w.verifyEnd := by
      unfold verdictDone leaveVisit
      rw [here] <;> rfl
    have unpinned : (y.unpin v.seg).exec = y.exec := unpin_does (same_exec.mono rfl) v.seg rfl
    have kept {α : Type} {F : State → α} (oF : Obeys (Same F) [.exec, .cat, .scrub]) : F w = F y :=
      onOp_does (oF.mono rfl) _ _ (setVisit_does (oF.mono rfl) _ _ (unpin_does (oF.mono rfl) v.seg rfl))
    refine ⟨w, .inl ⟨leaves, ?_, ?_, (kept (same_feed.mono rfl)).trans z.feed, (kept (same_engine.mono rfl)).trans z.engine, ?_, ?_⟩⟩
    · exact z.fails.unpin.mono (onOp_does (keeps_segments.mono rfl) _ _ (setVisit_does (keeps_segments.mono rfl) _ _ (.refl _)))
        (.of_jnl rfl)
    · exact z.stand.trans (.of_same (kept (same_desk.mono rfl)) (kept (same_fails.mono rfl)) (kept (same_mem.mono rfl)))
    · exact ((counted.trans (.of_exec unpinned)).trans (.onOp _ _)).trans (.onOp _ _)
    · have first := onOp_running (s := y.unpin v.seg) (by rw [unpinned]; exact ran) fun o => { o with body := o.body.setVisit none }
      exact (onOp_running (s := left) first _).trans rfl
  · set w := y.setVisit (.op o.adm) (some { v with judged := true, waiting := false, kept := none }) with hw
    refine ⟨w, .inr ⟨rfl, ?_, z.stand.trans (.of_same rfl rfl rfl), z.feed, z.engine, counted.trans (.onOp _ _), ?_⟩⟩
    · exact z.fails.mono (setVisit_does (keeps_segments.mono rfl) _ _ (.refl y)) (.of_jnl rfl)
    · exact onOp_running ran fun o => { o with body := o.body.setVisit _ }

/-! ## After the verdict: a requested suspension, the next number, or the end (R162, R191) -/

/-- A suspension takes effect where one was requested before the reading ended. -/
def paused (asked : Option Nat) (s : State) : State := if asked.isSome then s.takeSuspension else s

theorem fetchDone_error (running : s.exec.running = some o) (fetching : o.fetching = true) (goes : o.stopping = false) (off : Nat) :
    s.fetchDone (.op o.adm) (.error off) = paused s.exec.preempt (s.opArrives (.error off)) := by
  unfold fetchDone paused
  rw [running]
  dsimp only
  rw [if_pos ⟨rfl, fetching⟩, goes]
  rfl

/-- What the operation's progress gives way to. -/
structure Goes (s : State) (q : Op) (t : State) : Prop where
  on : s.exec.preempt = none → t.exec.running = some q
  stops : ∀ a r, s.exec.preempt = some a → (s.exec.waiting.find? fun x => x.adm == a) = some r →
    t.exec.running = some r ∧ t.exec.suspended.head? = some q

theorem paused_goes {q : Op} (running : w.exec.running = some q) (ops : OneOp o.adm s w) :
    Goes s q (paused s.exec.preempt w).settleOps ∧ SegmentsStand w (paused s.exec.preempt w).settleOps ∧
    Remembers w (paused s.exec.preempt w).settleOps := by
  have isSome : w.exec.running.isSome = true := by rw [running]; rfl
  obtain ⟨e, eq, runs⟩ : ∃ e, paused s.exec.preempt w = w.onExec (fun _ => e) ∧ e.running.isSome = true := by
    refine ⟨(paused s.exec.preempt w).exec, ?_, ?_⟩
    · unfold paused
      split
      · exact takeSuspension_exec w
      · rfl
    · unfold paused
      split
      · exact takeSuspension_isSome isSome
      · exact isSome
  have settled : (paused s.exec.preempt w).settleOps = (paused s.exec.preempt w).settle := settleOps_of_running (by rw [eq]; exact runs)
  refine ⟨⟨fun none => ?_, fun a r asked found => ?_⟩, ?_, ?_⟩
  · rw [settled, settle_exec, none]
    exact running
  · have taken : w.takeSuspension.exec.running = some r ∧ w.takeSuspension.exec.suspended.head? = some q := by
      rw [← ops.preempt] at asked
      rw [← ops.waiting] at found
      unfold takeSuspension
      rw [running, asked]
      dsimp only
      rw [found]
      exact ⟨rfl, rfl⟩
    rw [settled, settle_exec, asked]
    exact taken
  · rw [settled, eq]
    exact settle_does (keeps_segments.mono rfl) (onExec_does (keeps_segments.mono rfl) _ (.refl w))
  · rw [settled, eq]
    refine .trans ?_ (settle_remembers _)
    exact .of_jnl rfl

theorem takeSuspension_of_idle (h : s.exec.running = none) : s.takeSuspension = s := by
  unfold takeSuspension
  rw [h]

theorem verifyEnd_within {sel : Selection} {cursor : Nat} {c : VerifyCounts} {b : Option Visit} {q : Op}
    (running : w.exec.running = some { q with body := .verify sel cursor c b }) (within : cursor < 262144) : w.verifyEnd = w := by
  unfold verifyEnd
  rw [running]
  exact if_neg (Nat.not_le.mpr within)

theorem verifyEnd_past {sel : Selection} {cursor : Nat} {c : VerifyCounts} {b : Option Visit} {q : Op}
    (running : w.exec.running = some { q with body := .verify sel cursor c b }) (past : 262144 ≤ cursor) :
    w.verifyEnd = w.endAnswer .done (verifyValues c) := by
  unfold verifyEnd
  rw [running]
  exact if_pos past

/-- What was submitted before an operation's end stays submitted. -/
theorem endAnswer_remembers {q : Op} (h : w.exec.running = some q) (e : w.engine ≠ .recovering)
    (quiet : ∀ p ∈ w.exec.suspended ++ w.exec.waiting, GoesOnLater p) (st : Status) (vs : List Byte) :
    Remembers w (w.endAnswer st vs).settleOps := by
  have exec := endAnswer_exec h st vs
  have restful : Restful (w.endAnswer st vs) := .inr (by rw [exec]; exact quiet)
  have engine : (w.endAnswer st vs).engine = w.engine := endAnswer_does (same_engine.mono rfl) st vs rfl
  obtain ⟨next, -, -⟩ := nextOp_of_restful restful (by rw [engine]; exact e)
  rw [settleOps, next]
  refine .trans ?_ (settle_remembers _)
  exact .of_jnl (onExec_does (same_jnl.mono rfl) _ (endAnswer_does (same_jnl.mono rfl) st vs rfl))

/-- A VERIFY past the last number is answered, and the next operation runs. -/
theorem verdict_ends {sel : Selection} {cursor : Nat} {c : VerifyCounts} (z : Verdict n off st g o true (.verify sel cursor c none) s w)
    (past : 262144 ≤ cursor) (e : s.engine ≠ .recovering) (choice : QuietChoice o s) (asked : Option Nat) (stand : SlipsStand u s)
    (feed : s.feed = u.feed) : (paused asked w.verifyEnd).settleOps.exec.running = s.pick ∧
    Answered u o.slip .done (verifyValues c) (paused asked w.verifyEnd).settleOps ∧
    FailsAt n off st g true (paused asked w.verifyEnd).settleOps := by
  have suspended := z.ops.suspended fun q mem => (choice q (List.mem_append_left _ mem)).1
  have quiet : ∀ q ∈ w.exec.suspended ++ w.exec.waiting, GoesOnLater q := by
    rw [suspended, z.ops.waiting]
    exact fun q mem => (choice q mem).2
  have engine : w.engine ≠ .recovering := by rw [z.engine]; exact e
  have idle : (w.endAnswer .done (verifyValues c)).exec.running = none := by rw [endAnswer_exec z.running]
  have still : paused asked w.verifyEnd = w.endAnswer .done (verifyValues c) := by
    rw [verifyEnd_past z.running past, paused, takeSuspension_of_idle idle, ite_self]
  have ends := endAnswer_ends z.running engine quiet (stand.trans z.stand) (z.feed.trans feed) .done (verifyValues c)
  rw [still]
  refine ⟨ends.running.trans ?_, ends.answered, z.fails.mono ends.segments (endAnswer_remembers z.running engine quiet _ _)⟩
  unfold pick
  rw [suspended, z.ops.waiting]

/-! ## EXTRACT (R171) -/

/-- A failed fetch ends an EXTRACT's reading of the segment. -/
theorem extract_leaves {p : ExtractParams} {ex : ExtractState} (running : s.exec.running = some o) (body : o.body = .extract p ex)
    (visit : ex.visit = some v) (off : Nat) : s.opArrives (.error off) = s.extractLeave true ∧
    OneOp o.adm s (s.extractLeave true) ∧ SegmentsStand (s.unpin v.seg) (s.extractLeave true) ∧
    (s.extractLeave true).exec.running =
      some { o with body := .extract p { ex with visit := none, skip := none, skipped := ex.skipped + 1 } } := by
  have unpins : s.unpinOp o = s.unpin v.seg := by
    unfold unpinOp
    rw [body]
    show (match ex.visit with
      | some v => s.unpin v.seg
      | none => s) = _
    rw [visit]
  have leaves : s.extractLeave true = (s.unpin v.seg).onExtract fun st =>
      { st with visit := none, skip := none, skipped := st.skipped + 1 } := by
    unfold extractLeave
    rw [running]
    dsimp only
    rw [unpins]
    rfl
  have unpinned : (s.unpin v.seg).exec = s.exec := unpin_does (same_exec.mono rfl) v.seg rfl
  refine ⟨?_, ?_, ?_, ?_⟩
  · unfold opArrives
    rw [running]
    dsimp only
    rw [body]
    rfl
  · rw [leaves]
    exact (OneOp.of_exec unpinned).trans ⟨rfl, rfl, fun _ => rfl⟩
  · rw [leaves]
    exact onExtract_does (keeps_segments.mono rfl) _ (.refl _)
  · rw [leaves]
    simp [onExtract, onBody, onRunning, onExec, unpinned, running, body]

end Sys2Proof.Machine.State
end

section

namespace Sys2Proof.Claims

open Sys2Proof.Machine Sys2Proof.Machine.State

variable {s t : State} {l : LaneNo} {n offset len : Nat} {q : Reader} {st : LiveState} {g : Segment} (bus : Bus)

/-- The engine when a fetch has failed and its reader is not yet told. -/
def fetchFailed (l : LaneNo) (n : Nat) (s : State) : State := ((at_ bus s).onLane l (Lane.complete false)).markFault n

theorem exec_fetchError (act : Acts s) (h : (bget s.lanes.lane l).inProgress = some (.fetch n offset len q)) :
    Machine.exec (.fetchCompletion l .mediaError bus) s = .next ((fetchFailed bus l n s).fetchDone q (.error offset)).settleOps := by
  refine (congrArg Host.Outcome.next (s.commandedOn_on bus _ act.1 act.2)).trans (congrArg Host.Outcome.next ?_)
  change (match (bget (at_ bus s).lanes.lane l).inProgress with
    | some (.fetch n offset length r) => _
    | _ => _) = _
  rw [show (bget (at_ bus s).lanes.lane l).inProgress = some (.fetch n offset len q) from h]
  rfl

/-- What a failed fetch leaves before its reader is told. -/
structure FetchFailed (n : Nat) (st : LiveState) (g : Segment) (s x : State) : Prop where
  live : x.live? n = some (st, g)
  fault : (x.extent? n).map Extent.fault = some true
  exec : x.exec = s.exec
  scrub : x.scrub = s.scrub
  jnl : x.jnl = s.jnl
  counters : x.desk.counters = s.desk.counters
  engine : x.engine = s.engine
  stand : SlipsStand (at_ bus s) x
  feed : x.feed = (at_ bus s).feed

theorem fetchFailed_failed (live : s.live? n = some (st, g)) (l : LaneNo) : FetchFailed bus n st g s (fetchFailed bus l n s) := by
  have keep {α : Type} {F : State → α} (o : Obeys (Same F) [.cat, .lanes]) : F (fetchFailed bus l n s) = F (at_ bus s) :=
    markFault_does (o.mono rfl) n (onLane_does (o.mono rfl) l _ (fun _ => rfl) rfl)
  have segments : SegmentsStand s ((at_ bus s).onLane l (Lane.complete false)) :=
    onLane_does (keeps_segments.mono rfl) l _ (fun _ => rfl) ⟨rfl, rfl, rfl, fun _ => rfl⟩
  obtain ⟨e, he, c⟩ := live?_eq_some_iff.mp ((segments.live? n).trans live)
  exact
    { live := live?_markFault ((segments.live? n).trans live)
      fault := by rw [fetchFailed, extent?_markFault he c]; rfl
      exec := keep (same_exec.mono rfl)
      scrub := keep (same_scrub.mono rfl)
      jnl := keep (same_jnl.mono rfl)
      counters := keep (same_counters.mono rfl)
      engine := keep (same_engine.mono rfl)
      stand := .of_same (keep (same_desk.mono rfl)) (keep (same_fails.mono rfl)) (keep (same_mem.mono rfl))
      feed := keep (same_feed.mono rfl) }

/-- A live segment of an engine that acts is one of a READY engine. -/
theorem ready_of_live (act : Acts s) (live : s.live? n = some (st, g)) : s.engine = .ready := by
  obtain ⟨e, he, -⟩ := live?_eq_some_iff.mp live
  have built := built_of_extent he
  unfold tableBuilt at built
  simp only [Bool.or_eq_true, beq_iff_eq] at built
  exact built.resolve_right act.2

theorem scrubMovesOn_congr {x : State} {now : Scrub} {k : Nat} (scrub : x.scrub = s.scrub) (jnl : x.jnl = s.jnl)
    (counters : x.desk.counters = s.desk.counters) (h : ScrubMovesOn now k x t) : ScrubMovesOn now k s t := by
  unfold ScrubMovesOn at h ⊢
  dsimp only at h ⊢
  rwa [scrub, entriesFit_congr jnl, counters] at h

theorem goes_at {x : State} {p : Op} (exec : x.exec = s.exec) (h : Goes x p t) :
    (s.exec.preempt = none → t.exec.running = some p) ∧
    ∀ a w, s.exec.preempt = some a → (s.exec.waiting.find? fun x => x.adm == a) = some w →
      t.exec.running = some w ∧ t.exec.suspended.head? = some p := by
  obtain ⟨on, stops⟩ := h
  rw [exec] at on stops
  exact ⟨on, stops⟩

/-- Settles O36: the verdict's standing and entry, the reader's count, and what the reader then does. -/
theorem fetchErrorEndsTheReading : Obligations.FetchErrorEndsTheReading := by
  unfold Obligations.FetchErrorEndsTheReading
  rintro bus l n offset len q v st g s act progress rfl live
  have f := fetchFailed_failed bus live l
  have eq := exec_fetchError bus act progress
  have ready := ready_of_live act live
  refine ⟨_, eq, ?_⟩
  have keep {α : Type} {F : State → α} (o : Obeys (Same F) [.notes, .book, .desk, .buf, .exec, .feed, .pool, .coder, .cat, .dir,
      .lanes, .scrub, .jnl, .bus]) :
      F ((fetchFailed bus l v.seg s).fetchDone q (.error offset)).settleOps = F s :=
    settleOps_does (o.mono rfl) (fetchDone_does (o.mono rfl) q _ (markFault_does (o.mono rfl) _ (onLane_does (o.mono rfl) l _
      (fun _ => rfl) (onBus_does (o.mono rfl) bus rfl))))
  refine ⟨keep (same_media.mono rfl), keep (same_ret.mono rfl), keep (same_recon.mono rfl),
    ⟨keep (same_pending.mono rfl), keep (same_powered.mono rfl), keep (same_stamp.mono rfl), keep (same_engine.mono rfl),
      keep (same_base.mono rfl), keep (same_period.mono rfl), keep (same_media.mono rfl)⟩, ?_, ?_⟩
  · rintro rfl visit choice
    obtain ⟨exec, fits, full⟩ := scrub_fails (s := fetchFailed bus l v.seg s) (v := v) (by rw [f.scrub]; exact visit) f.live
      (f.engine.trans ready) f.fault offset
    have settled : ((fetchFailed bus l v.seg s).fetchDone .scrub (.error offset)).settleOps =
        ((fetchFailed bus l v.seg s).fetchDone .scrub (.error offset)).settle := by
      rw [settleOps, nextOp_of_noChoice]
      unfold NoChoice pick
      rw [exec, f.exec]
      exact choice
    have fit : EntryFits s ↔ EntriesFit 1 (fetchFailed bus l v.seg s) := (entriesFit_congr (n := 1) f.jnl).symm
    rw [settled]
    rw [f.scrub] at fits full
    refine ⟨?_, fun can => ?_, fun cannot => ?_⟩
    · by_cases can : EntryFits s
      · exact (fits (fit.mp can)).1.fault
      · exact (full (mt fit.mpr can)).1.fault
    · obtain ⟨at_, moves⟩ := fits (fit.mp can)
      exact ⟨⟨at_.live, fun _ => at_.submitted⟩, scrubMovesOn_congr f.scrub f.jnl f.counters moves⟩
    · obtain ⟨at_, waits⟩ := full (mt fit.mpr cannot)
      exact ⟨⟨at_.live, fun _ => at_.submitted⟩, waits⟩
  · rintro o rfl running waiting goes
    have here : (fetchFailed bus l v.seg s).exec.running = some o := by rw [f.exec]; exact running
    refine ⟨fun sel cursor c body choice => ?_, fun p ex body visit => ?_⟩
    · have fetching : o.fetching = true := by
        unfold Op.fetching
        rw [body]
        exact waiting
      rw [fetchDone_error here fetching goes]
      have choice' : cursor + 1 < 262144 ∨ QuietChoice o (fetchFailed bus l v.seg s) := by
        unfold QuietChoice
        rw [f.exec]
        exact choice
      have pick : (fetchFailed bus l v.seg s).pick = s.pick := by
        unfold State.pick
        rw [f.exec]
      obtain ⟨w, ⟨arrives, z⟩ | ⟨arrives, z⟩⟩ := verify_fails here body f.live (f.engine.trans ready) f.fault offset
      · rw [arrives]
        by_cases within : cursor + 1 < 262144
        · obtain ⟨on, segments, remembers⟩ := paused_goes z.running z.ops
          rw [verifyEnd_within z.running within]
          have at_ := z.fails.mono segments remembers
          exact ⟨at_.fault, .inl ⟨⟨at_.live, fun _ => at_.submitted⟩, fun _ => goes_at f.exec on, fun past => by omega⟩⟩
        · have past : 262144 ≤ cursor + 1 := Nat.not_lt.mp within
          obtain ⟨next, answered, at_⟩ := verdict_ends z past (by rw [f.engine, ready]; decide) (choice'.resolve_left within)
            (fetchFailed bus l v.seg s).exec.preempt f.stand f.feed
          exact ⟨at_.fault, .inl ⟨⟨at_.live, fun _ => at_.submitted⟩, fun c => absurd c within, fun _ => ⟨next.trans pick, answered⟩⟩⟩
      · obtain ⟨on, segments, remembers⟩ := paused_goes z.running z.ops
        rw [arrives]
        have at_ := z.fails.mono segments remembers
        exact ⟨at_.fault, .inr ⟨⟨at_.live, fun _ => at_.submitted⟩, goes_at f.exec on⟩⟩
    · have fetching : o.fetching = true := by
        unfold Op.fetching
        rw [body]
        show (ex.visit.map Visit.waiting).getD false = true
        rw [visit]
        exact waiting
      obtain ⟨arrives, ops, left, runs⟩ := extract_leaves here body visit offset
      obtain ⟨on, segments, -⟩ := paused_goes runs ops
      rw [fetchDone_error here fetching goes, arrives]
      have unpinned := left.trans segments
      refine ⟨?_, ?_, goes_at f.exec on⟩
      · rw [unpinned.extent?]
        exact fault_onSegment f.fault _
      · rw [unpinned.live?]
        exact live?_onSegment f.live _

end Sys2Proof.Claims
end


section
/-! SUPPORT. The parameter area read field by field (R200), and the marks of a ring (R46, R47). -/

namespace Sys2Proof.Machine

/-! ## Fields of equal bytes -/

/-- A field is its bytes: where two structures agree in them, they agree in the field. -/
theorem field_congr {p q : List Byte} (o n : Nat) (h : ∀ i, o ≤ i → i < o + n → p.getD i 0 = q.getD i 0) :
    field p o n = field q o n := by
  induction n generalizing o with
  | zero => rfl
  | succ n ih => rw [field_succ, field_succ, h o le_rfl (by omega), ih (o + 1) fun i h1 h2 => h i (by omega) (by omega)]

namespace State

variable {s : State}

@[simp] theorem bytes_length (fill : Byte) (m : Memory) (a n : Nat) : (Memory.bytes fill m a n).length = n := by
  induction n generalizing a with
  | zero => rfl
  | succ n ih => simp [Memory.bytes, ih]

@[simp] theorem hostBytes_length (s : State) (a n : Nat) : (s.hostBytes a n).length = n := bytes_length _ _ _ _

/-- Byte i of a span is the byte at the i-th address. -/
theorem hostBytes_getD (s : State) {a n i : Nat} (h : i < n) :
    (s.hostBytes a n).getD i 0 = Memory.byte Config.hostFill s.mem (a + i) := by
  unfold hostBytes
  induction n generalizing a i with
  | zero => omega
  | succ n ih =>
    cases i with
    | zero => rfl
    | succ i =>
      have := ih (a := a + 1) (i := i) (by omega)
      rwa [Nat.add_assoc, Nat.add_comm 1 i] at this

theorem readOrFree_of_reads {a n : Nat} (h : s.readFails a n = false) : s.readOrFree a n = s.hostBytes a n := by
  simp [readOrFree, h]

/-- A byte that the engine reads without failure is the byte in memory. -/
theorem byteOrFree_of_reads {a : Nat} (h : s.readFails a 1 = false) : s.byteOrFree a = Memory.byte Config.hostFill s.mem a := by
  rw [byteOrFree, readOrFree_of_reads h]
  rfl

/-! ## The named fields of a structure (R200) -/

section fields

variable {a : Nat} {bs : List Byte} {f : Nat × Nat} (reads : s.readFails (a + f.1) f.2 = false) (within : f.1 + f.2 ≤ bs.length)
include reads within

theorem readField_length : (s.readField a bs f).length = bs.length := by
  simp [readField, readOrFree_of_reads reads]
  omega

/-- A field read brings its own bytes and leaves the others. -/
theorem readField_getD (i : Nat) : (s.readField a bs f).getD i 0 =
    if f.1 ≤ i ∧ i < f.1 + f.2 then Memory.byte Config.hostFill s.mem (a + i) else bs.getD i 0 := by
  have low : (bs.take f.1).length = f.1 := by simp; omega
  have mid : (s.hostBytes (a + f.1) f.2).length = f.2 := hostBytes_length _ _ _
  rw [readField, readOrFree_of_reads reads, List.append_assoc]
  rcases Nat.lt_or_ge i f.1 with below | above
  · rw [List.getD_append _ _ _ _ (by omega), if_neg (by omega)]
    simp [below]
  · rw [List.getD_append_right _ _ _ _ (by omega), low]
    rcases Nat.lt_or_ge i (f.1 + f.2) with inside | past
    · rw [List.getD_append _ _ _ _ (by omega), hostBytes_getD s (by omega), if_pos ⟨above, inside⟩]
      congr 1
      omega
    · rw [List.getD_append_right _ _ _ _ (by omega), mid, if_neg (by omega)]
      simp only [List.getD_eq_getElem?_getD, List.getElem?_drop]
      congr 2
      omega

end fields

/-- The named fields of a structure, all readable and within it: each byte of one is the byte in memory. -/
theorem readFields_getD {a n : Nat} (fs : List (Nat × Nat))
    (reads : ∀ f ∈ fs, s.readFails (a + f.1) f.2 = false) (within : ∀ f ∈ fs, f.1 + f.2 ≤ n) {f : Nat × Nat} (hf : f ∈ fs) {i : Nat}
    (lo : f.1 ≤ i) (hi : i < f.1 + f.2) : (s.readFields a n fs).getD i 0 = Memory.byte Config.hostFill s.mem (a + i) := by
  /- By the last field read: what stands in the structure already is right, or the field is still to come. -/
  have fold : ∀ (fs : List (Nat × Nat)) (bs : List Byte), bs.length = n → (∀ f ∈ fs, s.readFails (a + f.1) f.2 = false) →
      (∀ f ∈ fs, f.1 + f.2 ≤ n) → (bs.getD i 0 = Memory.byte Config.hostFill s.mem (a + i) ∨ ∃ f ∈ fs, f.1 ≤ i ∧ i < f.1 + f.2) →
      (fs.foldl (s.readField a) bs).getD i 0 = Memory.byte Config.hostFill s.mem (a + i) := by
    intro fs
    induction fs with
    | nil => simp
    | cons g gs ih =>
      intro bs len reads within known
      have within' : g.1 + g.2 ≤ bs.length := by rw [len]; exact within g (by simp)
      have byte := readField_getD (reads g (by simp)) within' i
      refine ih _ ((readField_length (reads g (by simp)) within').trans len) (fun f hf => reads f (by simp [hf]))
        (fun f hf => within f (by simp [hf])) ?_
      rw [byte]
      split
      · exact .inl rfl
      · rename_i out
        refine known.imp id fun ⟨f, hf, at_⟩ => ⟨f, ?_, at_⟩
        rcases List.mem_cons.mp hf with rfl | later
        · exact absurd at_ out
        · exact later
  exact fold fs _ (by simp) reads within (.inr ⟨f, hf, lo, hi⟩)

/-- The fields of a kind's row lie within the parameter area. -/
theorem fields_within (k : Kind) : ∀ f ∈ k.fields, f.1 + f.2 ≤ 56 := by
  cases k <;> decide

/-- A parameter area whose named fields can be read: the engine finds in each field what stands in memory. -/
theorem field_readParams {k : Kind} {i : SlipNo} (reads : ∀ x ∈ k.fields, s.readFails (s.paramsAt i + x.1) x.2 = false)
    {x : Nat × Nat} (hx : x ∈ k.fields) : field (s.readParams k i) x.1 x.2 = field (s.hostBytes (s.paramsAt i) 56) x.1 x.2 :=
  field_congr _ _ fun j lo hi => by
    have within := fields_within k x hx
    rw [readParams, readFields_getD k.fields reads (fields_within k) hx lo hi, hostBytes_getD s (by omega)]

/-- The ring's marks in the parameters of an INGEST slip (R43). -/
theorem readMarks_readParams {i : SlipNo} (reads : ∀ x ∈ Kind.ingest.fields, s.readFails (s.paramsAt i + x.1) x.2 = false) :
    readMarks (s.readParams .ingest i) = readMarks (s.hostBytes (s.paramsAt i) 56) := by
  have flag := field_readParams (k := .ingest) reads (x := (24, 1)) (by decide)
  rw [field_one, field_one] at flag
  rw [readMarks, readMarks, field_readParams reads (x := (16, 8)) (by decide), field_readParams reads (x := (32, 8)) (by decide),
    BitVec.eq_of_toNat_eq flag]

end State

end Sys2Proof.Machine
end

section
/-! SUPPORT. The ring's marks taken (R46, R47) and the first slip of the admission list (R43), for O20, O14 and O15. -/

namespace Sys2Proof.Machine

theorem Quiet.list {s t : State} (h : Quiet s t) : t.desk.list = s.desk.list := by
  rw [h.desk]
  rfl

namespace State

open Sys2Proof.Claims

variable {u s t : State} {c : ChanNo} {m : RingMarks}

/-! ## A read of the marks -/

theorem takeMarks_file (m : RingMarks) (ch : Channel) : (ch.takeMarks m).file = ch.file := rfl

theorem applyMarks_fault (h : marksFault (s.chan c) m = true) : s.applyMarks c m = s.ringFault c := if_pos h

section taken

variable (h : marksFault (s.chan c) m = false)
include h

theorem applyMarks_no_total (none : ((s.chan c).takeMarks m).finalTotal = none) : s.applyMarks c m = s.onChan c (Channel.takeMarks m) := by
  simp [applyMarks, h, none]

theorem applyMarks_short {n : Nat} (total : ((s.chan c).takeMarks m).finalTotal = some n) (file : (s.chan c).file = none)
    (short : n < 64) : s.applyMarks c m = (s.onChan c (Channel.takeMarks m)).endNoFile c .badHeader := by
  simp [applyMarks, h, total, takeMarks_file, file, short]

theorem applyMarks_total {n : Nat} (total : ((s.chan c).takeMarks m).finalTotal = some n)
    (goes : (s.chan c).file = none → 64 ≤ n) : s.applyMarks c m = (s.onChan c (Channel.takeMarks m)).testEnd c := by
  cases e : (s.chan c).file with
  | none => simp [applyMarks, h, total, takeMarks_file, e, Nat.not_lt.mpr (goes e)]
  | some f => simp [applyMarks, h, total, takeMarks_file, e]

end taken

/-- A channel without a file has no end test. -/
theorem testEnd_no_file (h : (s.chan c).file = none) : s.testEnd c = s := by simp [testEnd, h]

/-! ## A slip taken (R43) -/

/-- The first slip off the admission list. -/
def listLess (rest : List Admitted) (s : State) : State := s.onDesk fun d => { d with list := rest }

/-- A FREE channel bound to a slip and its ring. -/
def bindSlip (c : ChanNo) (i : SlipNo) (base size : Nat) (s : State) : State :=
  (s.onChan c fun _ => { Channel.idle with state := .header, slip := some i, ringBase := base, ringSize := size }).setBinding c
    (some { slip := some i, file := none })

section take

variable {a : Admitted} {rest : List Admitted} (free : s.freeChan = some c) (list : s.desk.list = a :: rest)
include free list

theorem takeSlip_badRing (bad : badRing (field (s.readParams .ingest a.slip) 0 8) (field (s.readParams .ingest a.slip) 8 4) = true) :
    s.takeSlip = (s.listLess rest).answer (some a.slip) .range [] := by
  simp [takeSlip, free, list, bad, listLess]

theorem takeSlip_goodRing
    (good : badRing (field (s.readParams .ingest a.slip) 0 8) (field (s.readParams .ingest a.slip) 8 4) = false) :
    s.takeSlip = ((s.listLess rest).bindSlip c a.slip (field (s.readParams .ingest a.slip) 0 8)
      (field (s.readParams .ingest a.slip) 8 4)).applyMarks c (readMarks (s.readParams .ingest a.slip)) := by
  simp [takeSlip, free, list, good, listLess, bindSlip]

end take

/-- Answers leave the admission list. -/
theorem answer_list (slip : Option SlipNo) (st : Status) (vs : List Byte) (s : State) :
    (s.answer slip st vs).desk.list = s.desk.list := by
  cases slip with
  | none => rfl
  | some i =>
    unfold answer
    dsimp only
    split
    · rfl
    · obtain ⟨n, hd⟩ := (writeAnswer_wrote i st vs s).desk
      rw [hd]
      rfl

theorem endNoFile_list (c : ChanNo) (st : Status) (s : State) : (s.endNoFile c st).desk.list = s.desk.list :=
  answer_list _ _ _ s

theorem listLess_stands (rest : List Admitted) (s : State) : SlipsStand s (s.listLess rest) where
  place := rfl
  held := rfl
  map := rfl
  fails := rfl
  marks _ := rfl
  wf := id

theorem bindSlip_stands (c : ChanNo) (i : SlipNo) (base size : Nat) (s : State) : SlipsStand s (s.bindSlip c i base size) :=
  .of_same rfl rfl rfl

theorem bindSlip_others (c : ChanNo) (i : SlipNo) (base size : Nat) (s : State) : OtherChans c s (s.bindSlip c i base size) :=
  fun _ hd => onChan_chan_ne _ hd

theorem bindSlip_chan (c : ChanNo) (i : SlipNo) (base size : Nat) (s : State) : (s.bindSlip c i base size).chan c =
    { Channel.idle with state := .header, slip := some i, ringBase := base, ringSize := size } := onChan_chan_self _

/-- A first read of the marks is a ring fault where the filled mark is above the ring's size, or the total below the filled mark. -/
theorem marksFault_first (i : SlipNo) (base size : Nat) (m : RingMarks) :
    marksFault { Channel.idle with state := .header, slip := some i, ringBase := base, ringSize := size } m = true ↔
      size < m.filled ∨ (m.final = true ∧ m.total < m.filled) := by
  simp [marksFault, Channel.idle]

end State

end Sys2Proof.Machine

namespace Sys2Proof.Claims

open Sys2Proof.Machine Sys2Proof.Machine.State

variable {u s t : State} {c : ChanNo} {a : Admitted} {rest : List Admitted}

theorem exec_ingest (bus : Bus) {s : State} (a : Acts s) : Machine.exec (.ingest bus) s = .next (at_ bus s).takeSlip.settle :=
  congrArg Host.Outcome.next (s.commandedOn_on bus _ a.1 a.2)

/-- INGEST touches neither the retention unit nor the editions, nor what lies outside the blocks that carry work. -/
theorem ingest_frame (bus : Bus) (s : State) :
    let t := (at_ bus s).takeSlip.settle
    t.ret = s.ret ∧ t.eds = s.eds ∧ Kept s t :=
  ⟨settle_does (same_ret.mono rfl) (takeSlip_does (same_ret.mono rfl) rfl),
    settle_does (same_eds.mono rfl) (takeSlip_does (same_eds.mono rfl) rfl),
    settle_does (keeps_kept.mono rfl) (takeSlip_does (keeps_kept.mono rfl) (onBus_does (keeps_kept.mono rfl) bus (Kept.refl s)))⟩

/-- A channel and the first slip of the list, where no channel waits for a page. -/
structure Offered (u : State) (c : ChanNo) (a : Admitted) (rest : List Admitted) : Prop where
  free : u.freeChan = some c
  list : u.desk.list = a :: rest
  alone : u.feed.stalled = []

/-- A slip taken leaves the list, the other channels and the switch table. -/
structure Moved (u : State) (c : ChanNo) (rest : List Admitted) (t : State) : Prop where
  list : t.desk.list = rest
  others : OtherChans c u t
  recon : t.recon = u.recon

theorem Moved.quiet (h : Moved u c rest s) (q : Quiet s t) : Moved u c rest t where
  list := q.list.trans h.list
  others := otherChans_trans h.others (otherChans_of_feed q.feed c)
  recon := q.recon.trans h.recon

section ingest

variable (h : Offered u c a rest)
include h

/-- A ring of a wrong shape: the slip is answered RANGE (R43). -/
theorem ingest_range (bad : badRing (field (u.readParams .ingest a.slip) 0 8) (field (u.readParams .ingest a.slip) 8 4) = true) :
    Moved u c rest u.takeSlip.settle ∧ u.takeSlip.settle.feed = u.feed ∧ Answered u (some a.slip) .range [] u.takeSlip.settle := by
  rw [takeSlip_badRing h.free h.list bad]
  have feed := answer_feed (some a.slip) .range [] (u.listLess rest)
  have q := settle_quiet (s := (u.listLess rest).answer (some a.slip) .range [])
    (.inl ((congrArg Feed.stalled feed).trans h.alone))
  have moved : Moved u c rest ((u.listLess rest).answer (some a.slip) .range []) :=
    ⟨answer_list _ _ _ _, otherChans_of_feed feed c, answer_does (same_recon.mono rfl) (some a.slip) .range [] rfl⟩
  exact ⟨moved.quiet q, q.feed.trans feed, answered_quiet (answer_answered (listLess_stands rest u) _ _ _)
    (answer_does (same_place.mono rfl) (some a.slip) .range [] rfl) q⟩

section good

variable {base size : Nat} {m : RingMarks}

omit h in
/-- What the binding of a slip has moved. -/
theorem bound_moved (u : State) (c : ChanNo) (i : SlipNo) (rest : List Admitted) (base size : Nat) :
    Moved u c rest ((u.listLess rest).bindSlip c i base size) :=
  ⟨rfl, bindSlip_others c i base size (u.listLess rest), rfl⟩

/-- A channel bound to the slip ends before it has read a header: the slip is answered with a drained mark of 0 (R46, R47). -/
theorem ingest_ends (st : Status) (t : State)
    (slip : (t.chan c).slip = some a.slip) (drained : (t.chan c).drained = 0) (stands : SlipsStand u t) (moved : Moved u c rest t)
    (alone : t.feed.stalled = u.feed.stalled) :
    Moved u c rest (t.endNoFile c st).settle ∧ Ended u c (some a.slip) st (leBytes 8 0) (t.endNoFile c st).settle := by
  have ended := endNoFile_ended stands moved.others alone st
  rw [slip, drained] at ended
  have q := settle_quiet (.inl (ended.stalled.trans h.alone))
  exact ⟨Moved.quiet ⟨(endNoFile_list c st t).trans moved.list, ended.others, (endNoFile_recon c st t).trans moved.recon⟩ q,
    ended.quiet q⟩

/-- The marks of a slip just taken: a fault or a total below 64 ends the channel, and otherwise it stands in HEADER (R43, R46, R47,
R58). -/
theorem ingest_marks (base size : Nat) (m : RingMarks) :
    let t := (((u.listLess rest).bindSlip c a.slip base size).applyMarks c m).settle
    let fault := size < m.filled ∨ (m.final = true ∧ m.total < m.filled)
    let stands (n : Option Nat) : Prop :=
      t.chan c = { Channel.idle with state := .header, slip := some a.slip, ringBase := base, ringSize := size,
                                     filledSeen := m.filled, finalTotal := n } ∧
      bget t.feed.bindings c = some { slip := some a.slip, file := none }
    Moved u c rest t ∧ (fault → Ended u c (some a.slip) .ringFault (leBytes 8 0) t) ∧ (¬ fault → m.final = false → stands none) ∧
    (¬ fault → m.final = true → m.total < 64 → Ended u c (some a.slip) .badHeader (leBytes 8 0) t) ∧
    (¬ fault → m.final = true → 64 ≤ m.total → stands (some m.total)) := by
  intro t fault stands
  let b := (u.listLess rest).bindSlip c a.slip base size
  have chan := bindSlip_chan c a.slip base size (u.listLess rest)
  have moved := bound_moved u c a.slip rest base size
  have slips : SlipsStand u b := (listLess_stands rest u).trans (bindSlip_stands c a.slip base size _)
  have first : marksFault (b.chan c) m = true ↔ fault := by rw [chan]; exact marksFault_first _ _ _ _
  let k := b.onChan c (Channel.takeMarks m)
  have taken : k.chan c = { b.chan c with filledSeen := m.filled, finalTotal := if m.final then some m.total else none } := by
    rw [onChan_chan_self, chan]
    rfl
  have took : Moved u c rest k := ⟨rfl, otherChans_trans moved.others fun _ hd => onChan_chan_ne _ hd, rfl⟩
  have keptSlips : SlipsStand u k := slips.trans (.of_same rfl rfl rfl)
  have total : ((b.chan c).takeMarks m).finalTotal = if m.final then some m.total else none := by rw [chan]; rfl
  /- Without an end the channel keeps what it has read. -/
  have goes (e : t = k.settle) (n : Option Nat) (hn : (if m.final then some m.total else none) = n) : Moved u c rest t ∧ stands n := by
    have q := settle_quiet (s := k) (.inl h.alone)
    refine ⟨by rw [e]; exact took.quiet q, ?_, ?_⟩
    · rw [e, q.chan, taken, chan, hn]
    · rw [e, q.feed]
      exact bget_bset_self _ _ _
  by_cases bad : fault
  · have e : t = (b.endNoFile c .ringFault).settle := by
      show (b.applyMarks c m).settle = _
      rw [applyMarks_fault (first.mpr bad), ringFault_no_file (by rw [chan]; rfl) (by rw [chan]; rfl)]
    obtain ⟨left, ended⟩ := ingest_ends h .ringFault b (by rw [chan]) (by rw [chan]; rfl) slips moved rfl
    rw [← e] at left ended
    exact ⟨left, fun _ => ended, fun g => absurd bad g, fun g => absurd bad g, fun g => absurd bad g⟩
  · have fine : marksFault (b.chan c) m = false := by simpa using mt first.mp bad
    cases final : m.final
    · rw [final] at total
      obtain ⟨left, on⟩ := goes (congrArg settle (applyMarks_no_total fine total)) none (by rw [final]; rfl)
      exact ⟨left, fun g => absurd g bad, fun _ _ => on, by simp, by simp⟩
    · rw [final] at total
      have file : (b.chan c).file = none := by rw [chan]; rfl
      by_cases short : m.total < 64
      · have e : t = (k.endNoFile c .badHeader).settle := congrArg settle (applyMarks_short fine total file short)
        obtain ⟨left, ended⟩ := ingest_ends h .badHeader k (by rw [taken, chan]) (by rw [taken, chan]; rfl) keptSlips took rfl
        rw [← e] at left ended
        exact ⟨left, fun g => absurd g bad, by simp, fun _ _ _ => ended, fun _ _ g => by omega⟩
      · have e : t = k.settle := by
          show (b.applyMarks c m).settle = _
          rw [applyMarks_total fine total fun _ => by omega, testEnd_no_file (by rw [taken]; exact file)]
        obtain ⟨left, on⟩ := goes e (some m.total) (by rw [final]; rfl)
        exact ⟨left, fun g => absurd g bad, by simp, fun _ _ g => absurd g short, fun _ _ _ => on⟩

end good

end ingest

/-- Settles O20: by the ring's shape, and with a right shape by the first read of its marks. -/
theorem ingestTakesTheFirstSlip : Obligations.IngestTakesTheFirstSlip := by
  intro bus c a rest s acts free list alone reads p
  have h : Offered (at_ bus s) c a rest := ⟨free, list, alone⟩
  obtain ⟨ret, eds, kept⟩ := ingest_frame bus s
  have base : field ((at_ bus s).readParams .ingest a.slip) 0 8 = field p 0 8 :=
    field_readParams (s := at_ bus s) (k := .ingest) reads (x := (0, 8)) (by decide)
  have size : field ((at_ bus s).readParams .ingest a.slip) 8 4 = field p 8 4 :=
    field_readParams (s := at_ bus s) (k := .ingest) reads (x := (8, 4)) (by decide)
  have marks : readMarks ((at_ bus s).readParams .ingest a.slip) = readMarks p := readMarks_readParams (s := at_ bus s) reads
  have shape : State.badRing (field p 0 8) (field p 8 4) = true ↔
      field p 0 8 % 64 ≠ 0 ∨ field p 8 4 % 64 ≠ 0 ∨ field p 8 4 < 4096 ∨ 67108864 < field p 8 4 := by
    simp [State.badRing]
  cases bad : State.badRing (field p 0 8) (field p 8 4)
  · have e := takeSlip_goodRing h.free h.list (by rw [base, size]; exact bad)
    obtain ⟨moved, fault, open_, short, total⟩ := ingest_marks h (field p 0 8) (field p 8 4) (readMarks p)
    rw [base, size, marks] at e
    rw [← e] at moved fault open_ short total
    rw [bad] at shape
    exact ⟨_, exec_ingest bus acts, moved.list, moved.others, moved.recon, ret, eds, kept, by simp, by simp, shape, fun _ =>
      ⟨fun g => ⟨(fault g).chan, (fault g).binding, (fault g).answered⟩, open_,
        fun g f l => ⟨(short g f l).chan, (short g f l).binding, (short g f l).answered⟩, total⟩⟩
  · obtain ⟨moved, feed, answered⟩ := ingest_range h (by rw [base, size]; exact bad)
    rw [bad] at shape
    exact ⟨_, exec_ingest bus acts, moved.list, moved.others, moved.recon, ret, eds, kept, fun _ => chan_congr feed c,
      fun _ => ⟨by rw [feed]; rfl, answered⟩, shape, by simp⟩

end Sys2Proof.Claims
end


section
/-! SUPPORT. The commit point of an interval (R56 to R58), for O28. -/

namespace Sys2Proof.Machine.State

open Sys2Proof.Claims

variable {u s t : State} {c : ChanNo} {f : File}

/-! ## Entries all taken leave nothing waiting -/

theorem submitAll_off (off : s.journalOff = true) (who : Producer) (acts : List OnTake) (es : List EntryBody) :
    submitAll who acts es s = (s, true) := by
  induction es with
  | nil => rfl
  | cons e es ih =>
    cases es with
    | nil => simp [submitAll, submit_of_off off]
    | cons e' es =>
      have : s.post who [e] = s := by simp [post, submit_of_off off]
      rw [submitAll, this]
      · exact ih
      · simp

/-- Where all entries are taken at once the line of waiting submissions is what it was. -/
theorem submitAll_line (on : s.engine ≠ .recovering) (who : Producer) (acts : List OnTake) (es : List EntryBody)
    (taken : (submitAll who acts es s).2 = true) : (submitAll who acts es s).1.jnl.line = s.jnl.line := by
  cases e : s.engine with
  | ready =>
    by_cases ne : es = []
    · rw [ne]
      rfl
    · obtain ⟨_, out, at_, _, jnl⟩ := (submitAll_of_fits e who acts es (fits_of_submitAll e who acts es ne taken)).2
      rw [jnl]
  | recovering => exact absurd e on
  | blank | formatting => rw [submitAll_off (by simp [journalOff, e])]

/-! ## Pages at the commit point of an interval (R57 step 2) -/

/-- A page as a commit point leaves it: committed as far as it is written, a SEALED one without its owner. -/
def committedPage (p : Page) : Page := { p with committed := p.places.length, owner := if p.sealedUp then none else p.owner }

/-- A page of the pool stands committed, unless it was SEALED and each of its places RELEASED. -/
def CommitsAtPoint (p : Page) (t : State) : Prop :=
  (∃ q ∈ t.pool.pages, PageKept (committedPage p) q) ∨ (p.sealedUp = true ∧ ∀ x ∈ p.places, x.standing = .released)

theorem commitsAtPoint_quiet {p : Page} (q : Quiet s t) (h : CommitsAtPoint p s) : CommitsAtPoint p t :=
  h.imp (fun ⟨_, hr, kept⟩ => (q.page hr).imp fun _ ⟨hr', kept'⟩ => ⟨hr', kept.trans kept'⟩) id

theorem committedPage_kept {p q : Page} (kept : PageKept p q) : PageKept (committedPage p) (committedPage q) := by
  have length : q.places.length = p.places.length := kept.places.length_eq.symm
  refine ⟨?_, kept.places⟩
  rw [committedPage, committedPage, length, kept.same]

theorem commitPages_commits {p q : Page} (owner : p.owner = some c) (kept : PageKept p q) (hq : q ∈ s.pool.pages) :
    CommitsAtPoint p (s.commitPages c) := by
  have owner' : q.owner = some c := by rw [kept.same]; exact owner
  have mem : committedPage q ∈ s.pool.pages.map fun p =>
      if p.owner = some c then { p with committed := p.places.length, owner := if p.sealedUp then none else p.owner } else p :=
    List.mem_map.mpr ⟨q, hq, if_pos owner'⟩
  cases e : (committedPage q).done
  · exact .inl ⟨_, List.mem_filter.mpr ⟨mem, by simp [e]⟩, committedPage_kept kept⟩
  · simp only [Page.done, Bool.and_eq_true, List.all_eq_true, beq_iff_eq] at e
    have same : q.sealedUp = p.sealedUp := by rw [kept.same]
    exact .inr ⟨same.symm.trans e.1.1, kept.released e.2⟩

/-! ## The commit point -/

/-- The binding that a commit point leaves: the committed copy is the running account (R57 step 3). -/
def commitBinding (c : ChanNo) (f : File) (s : State) : Binding :=
  { slip := (s.chan c).slip, file := some (f.switch, f.account) }

/-- The file after the commit point of an interval. -/
def intervalFile (c : ChanNo) (f : File) (s : State) : File := { s.mergedFile c f with commitDue := false }

/-- The engine after the three steps of an interval's commit point, which is owed no more. -/
def intervalOn (c : ChanNo) (f : File) (s : State) : State :=
  (((s.mergeFile c f).1.commitPages c).setBinding c (some (s.commitBinding c f))).onFile c fun x => { x with commitDue := false }

theorem commitPages_feed (c : ChanNo) (s : State) : (s.commitPages c).feed = s.feed := rfl
theorem commitPages_recon (c : ChanNo) (s : State) : (s.commitPages c).recon = s.recon := rfl
theorem commitPages_jnl (c : ChanNo) (s : State) : (s.commitPages c).jnl = s.jnl := rfl

theorem intervalOn_feed (c : ChanNo) (f : File) (s : State) : (s.intervalOn c f).feed =
    (((s.mergeInto c f).setBinding c (some (s.commitBinding c f))).onFile c fun x => { x with commitDue := false }).feed := by
  rw [intervalOn, onFile, onChan, onFeed_feed, setBinding, onFeed_feed, commitPages_feed, (mergeFile_quiet c f s).feed]
  rfl

theorem intervalOn_recon (c : ChanNo) (f : File) (s : State) : (s.intervalOn c f).recon = (s.mergeInto c f).recon := by
  rw [intervalOn, onFile, onChan, onFeed_recon, setBinding, onFeed_recon, commitPages_recon, (mergeFile_quiet c f s).recon]

theorem intervalOn_jnl (c : ChanNo) (f : File) (s : State) : (s.intervalOn c f).jnl = (s.mergeFile c f).1.jnl := by
  rw [intervalOn, onFile, onChan, onFeed_jnl, setBinding, onFeed_jnl, commitPages_jnl]

theorem intervalOn_chan (hf : (s.chan c).file = some f) : (s.intervalOn c f).chan c =
    { s.chan c with file := some (s.intervalFile c f) } := by
  have bound : ((s.mergeInto c f).setBinding c (some (s.commitBinding c f))).chan c = (s.mergeInto c f).chan c := rfl
  rw [chan_congr (intervalOn_feed c f s), onFile, onChan_chan_self, bound, (mergeInto_becomes hf).chan]
  rfl

theorem intervalOn_others (hf : (s.chan c).file = some f) : OtherChans c s (s.intervalOn c f) := fun d hd => by
  rw [chan_congr (intervalOn_feed c f s), onFile, onChan_chan_ne _ hd]
  exact (mergeInto_becomes hf).others d hd

theorem intervalOn_stalled (c : ChanNo) (f : File) (s : State) : (s.intervalOn c f).feed.stalled = s.feed.stalled := by
  rw [intervalOn_feed]
  rfl

theorem intervalOn_binding (c : ChanNo) (f : File) (s : State) :
    bget (s.intervalOn c f).feed.bindings c = some (s.commitBinding c f) := by
  rw [intervalOn_feed]
  exact bget_bset_self _ _ _

theorem intervalOn_waits (on : s.engine ≠ .recovering) (clear : s.waits (.chan c) = false) (taken : (s.mergeFile c f).2 = true) :
    (s.intervalOn c f).waits (.chan c) = false := by
  rw [mergeFile_eq] at taken
  have line := submitAll_line (s := s.mergeInto c f) on _ _ _ taken
  rw [waits, intervalOn_jnl, mergeFile_eq, line]
  exact clear

theorem chanOn_of_running (cl : (s.chan c).closing = .none) (st : (s.chan c).state = .running) : s.chanOn c = s.testEnd c := by
  unfold chanOn
  simp [cl, st]

end Sys2Proof.Machine.State

namespace Sys2Proof.Claims

open Sys2Proof.Machine Sys2Proof.Machine.State

variable {u s t : State} {c : ChanNo} {f : File}

/-- A file that reaches the commit point of an interval, where no channel waits for a page. -/
structure OwesCommit (u : State) (c : ChanNo) (f : File) : Prop where
  on : u.engine ≠ .recovering
  state : (u.chan c).state = .running
  file : (u.chan c).file = some f
  due : f.commitDue = true
  closing : (u.chan c).closing = .none
  clear : u.waits (.chan c) = false
  alone : u.feed.stalled = []
  feeding : (u.switchCtx f.switch).state = .feeding

/-- What the commit point of an interval has made of the tables, the pages, the journal and the binding. -/
structure Interval (u : State) (c : ChanNo) (f : File) (t : State) : Prop where
  others : OtherChans c u t
  binding : bget t.feed.bindings c = some (u.commitBinding c f)
  switch : t.switchCtx f.switch = u.mergedCtx c f
  gaps : t.recon.gaps = (u.mergedGaps f).1
  sent : u.engine = .ready → ∀ b ∈ (u.mergedGaps f).2, Submitted b t
  pages : ∀ p ∈ u.pool.pages, p.owner = some c → CommitsAtPoint p t
  file : ∃ n, (t.chan c).file = some { u.intervalFile c f with trailing := n }
  stalled : t.feed.stalled = []

theorem Interval.quiet (h : Interval u c f s) (q : Quiet s t) : Interval u c f t where
  others := otherChans_trans h.others (otherChans_of_feed q.feed c)
  binding := by rw [q.feed]; exact h.binding
  switch := (q.switchCtx _).trans h.switch
  gaps := by rw [q.recon]; exact h.gaps
  sent e b hb := q.submitted (h.sent e b hb)
  pages p hp o := commitsAtPoint_quiet q (h.pages p hp o)
  file := by rw [q.chan]; exact h.file
  stalled := by rw [q.feed]; exact h.stalled

/-- The end test leaves what the commit point has made but for the trailing fragment (R58). -/
theorem Interval.testEnd (h : Interval u c f s) : Interval u c f (s.testEnd c) := by
  obtain ⟨ch, becomes, ⟨n, trailing⟩, _⟩ := testEnd_becomes c s
  have recon : (s.testEnd c).recon = s.recon := testEnd_does (same_recon.mono rfl) c rfl
  have pool : (s.testEnd c).pool = s.pool := testEnd_does (same_pool.mono rfl) c rfl
  have jnl : (s.testEnd c).jnl = s.jnl := testEnd_does (same_jnl.mono rfl) c rfl
  obtain ⟨m, file⟩ := h.file
  refine ⟨otherChans_trans h.others becomes.others, by rw [becomes.bindings]; exact h.binding, ?_, by rw [recon]; exact h.gaps,
    fun e b hb => submitted_congr jnl (h.sent e b hb), fun p hp o => ?_, ⟨n, ?_⟩, becomes.stalled.trans h.stalled⟩
  · rw [switchCtx, recon]
    exact h.switch
  · rw [CommitsAtPoint, pool]
    exact h.pages p hp o
  · rw [becomes.chan, trailing, file]
    rfl

section interval

variable (h : OwesCommit u c f)
include h

theorem intervalOn_interval : Interval u c f (u.intervalOn c f) := by
  have q := mergeFile_quiet c f u
  refine ⟨intervalOn_others h.file, intervalOn_binding c f u, ?_, by rw [intervalOn_recon]; rfl, fun ready b hb => ?_,
    fun p hp owner => ?_, ⟨f.trailing, by rw [intervalOn_chan h.file]; rfl⟩, (intervalOn_stalled c f u).trans h.alone⟩
  · rw [switchCtx, intervalOn_recon]
    exact mergeInto_switch h.feeding
  · refine submitted_congr (intervalOn_jnl c f u) ?_
    rw [mergeFile_eq]
    exact submitAll_submitted (s := u.mergeInto c f) ready _ _ _ b hb
  · obtain ⟨r, hr, kept⟩ := q.page (p := p) hp
    exact commitPages_commits owner kept hr

/-- Its entries taken, the file has its end test; otherwise the channel waits with it (R50, R57, R58). -/
theorem makeCommit_running : u.makeCommit c =
    if (u.mergeFile c f).2 then (u.intervalOn c f).testEnd c else u.intervalOn c f := by
  have chan := intervalOn_chan h.file
  have on : (u.intervalOn c f).chanOn c = (u.intervalOn c f).testEnd c :=
    chanOn_of_running (by rw [chan]; exact h.closing) (by rw [chan]; exact h.state)
  rw [← on]
  have : u.makeCommit c = u.commitInterval c f := by
    simp [makeCommit, h.closing, h.clear, h.file, h.state, h.due]
  rw [this]
  rfl

theorem makeCommit_interval : Interval u c f (u.makeCommit c) := by
  rw [makeCommit_running h]
  split
  · exact (intervalOn_interval h).testEnd
  · exact intervalOn_interval h

theorem interval_settles : Quiet (u.makeCommit c) (u.makeCommit c).settle := settle_quiet (.inl (makeCommit_interval h).stalled)

/-- Without a final total, or with 64 bytes or more left, the channel runs on. -/
theorem interval_runs (far : ∀ m, (u.chan c).finalTotal = some m → (u.chan c).drained + 64 ≤ m) :
    ((u.makeCommit c).settle.chan c).state = .running ∧ ((u.makeCommit c).settle.chan c).drained = (u.chan c).drained := by
  have chan := intervalOn_chan h.file
  have stays : (u.intervalOn c f).testEnd c = u.intervalOn c f := by
    cases e : (u.chan c).finalTotal with
    | none => exact testEnd_of_no_total (by rw [chan]; exact e)
    | some m => exact testEnd_of_far (m := m) (by rw [chan]; exact e) (by rw [chan]; exact far m e)
  have e := makeCommit_running h
  rw [stays, ite_self] at e
  rw [(interval_settles h).chan, e, chan]
  exact ⟨h.state, rfl⟩

section short

variable {m : Nat} (total : (u.chan c).finalTotal = some m) (le : (u.chan c).drained ≤ m) (lt : m < (u.chan c).drained + 64)
include total le lt

/-- With fewer than 64 bytes left and the entries taken the channel is in ENDING (R58). -/
theorem interval_ends (taken : (u.mergeFile c f).2 = true) :
    let t := (u.makeCommit c).settle
    (t.chan c).state = .ending ∧ (t.chan c).drained = m ∧
      (t.chan c).file.map File.trailing = some (m - (u.chan c).drained) := by
  have chan := intervalOn_chan h.file
  have ends := testEnd_ends (s := u.intervalOn c f) (c := c) (m := m) (f := u.intervalFile c f) (by rw [chan])
    (by rw [chan]; exact total) (by rw [chan]; exact h.state) (by rw [chan]; exact h.closing) rfl
    (intervalOn_waits h.on h.clear taken) (by rw [chan]; exact le) (by rw [chan]; exact lt)
  have q := interval_settles h
  rw [makeCommit_running h, if_pos taken] at q ⊢
  intro t
  rw [q.chan, ends.chan, chan]
  exact ⟨rfl, rfl, rfl⟩

omit total le lt in
/-- The entries not taken, the channel waits in RUNNING before its end test (R50). -/
theorem interval_waits (full : (u.mergeFile c f).2 = false) :
    let t := (u.makeCommit c).settle
    ((t.chan c).state = .running ∧ (t.chan c).drained = (u.chan c).drained) ∧ t.waits (.chan c) = true := by
  have waits : (u.intervalOn c f).waits (.chan c) = true := by
    rw [State.waits, intervalOn_jnl]
    exact submitAll_waits _ _ _ full
  have q := interval_settles h
  rw [makeCommit_running h, if_neg (by simp [full])] at q ⊢
  intro t
  rw [q.chan, intervalOn_chan h.file]
  exact ⟨⟨h.state, rfl⟩, q.waits waits⟩

end short

end interval

/-- Settles O28: the merge and the pages whatever the journal takes, and the end test where it takes all. -/
theorem commitPointMergesAndCommits : Obligations.CommitPointMergesAndCommits := by
  intro bus c f s a state file due closing clear alone feeding
  have h : OwesCommit (at_ bus s) c f := ⟨a.2, state, file, due, closing, clear, alone, feeding⟩
  obtain ⟨ret, eds, kept⟩ := commitPoint_frame bus c s
  have made := (makeCommit_interval h).quiet (interval_settles h)
  obtain ⟨n, left⟩ := made.file
  refine ⟨_, exec_commitPoint bus c a, ret, eds, made.others, kept,
    ⟨fun none => interval_runs h fun m e => absurd (none.symm.trans e) (by simp), fun m total => ⟨fun far => ?_, fun le lt =>
      ⟨interval_ends h total le lt, interval_waits h⟩⟩⟩, ?_⟩
  · exact interval_runs h fun k e => by
      obtain rfl : m = k := Option.some.inj (total.symm.trans e)
      exact far
  · rw [left, made.switch]
    refine ⟨rfl, rfl, rfl, made.binding, rfl, rfl, rfl, rfl, rfl, made.gaps, made.sent, fun p hp owner => ?_⟩
    refine (made.pages p hp owner).imp (fun ⟨q, hq, kept⟩ => ⟨q, hq, ?_⟩) id
    have data := kept.data
    rw [kept.same]
    refine ⟨rfl, rfl, rfl, rfl, ?_, data⟩
    rw [← owner]
    rfl

end Sys2Proof.Claims
end


section
/-! SUPPORT. What goes on beside a channel: the pages given to other channels (R54) and their closing entries leave it alone; for
O12, O14 and O24. -/

namespace Sys2Proof.Machine.State

open Sys2Proof.Claims

variable {s t u : State} {c d : ChanNo} {f : File}

/-- What goes on beside a channel: it keeps its state, its binding and its place outside the waiting order, owns no page that it did
not own, no switch becomes FEEDING, and what was submitted stays so. -/
structure Apart (c : ChanNo) (s t : State) : Prop where
  engine : t.engine = s.engine
  chan : t.chan c = s.chan c
  binding : bget t.feed.bindings c = bget s.feed.bindings c
  switches : ∀ n, (s.switchCtx n).state ≠ .feeding → (t.switchCtx n).state ≠ .feeding
  owner : (∀ p ∈ s.pool.pages, p.owner ≠ some c) → ∀ p ∈ t.pool.pages, p.owner ≠ some c
  stalled : c ∉ s.feed.stalled → c ∉ t.feed.stalled
  submitted : ∀ b, Submitted b s → Submitted b t

namespace Apart

theorem refl (c : ChanNo) (s : State) : Apart c s s := ⟨rfl, rfl, rfl, fun _ => id, id, id, fun _ => id⟩

theorem trans (h : Apart c s t) (g : Apart c t u) : Apart c s u :=
  ⟨g.engine.trans h.engine, g.chan.trans h.chan, g.binding.trans h.binding, fun n hn => g.switches n (h.switches n hn),
    fun ho => g.owner (h.owner ho), fun hs => g.stalled (h.stalled hs), fun b hb => g.submitted b (h.submitted b hb)⟩

theorem of_quiet (q : Quiet s t) : Apart c s t where
  engine := q.engine
  chan := q.chan c
  binding := by rw [q.feed]
  switches n hn := by rw [q.switchCtx]; exact hn
  owner := noOwner_quiet q
  stalled := by rw [q.feed]; exact id
  submitted _ := q.submitted

/-- A change of the feed unit alone that leaves the channel, its binding and its place outside the waiting order. -/
theorem of_rest (engine : t.engine = s.engine) (recon : t.recon = s.recon) (pool : t.pool = s.pool) (jnl : t.jnl = s.jnl)
    (chan : t.chan c = s.chan c) (binding : bget t.feed.bindings c = bget s.feed.bindings c)
    (stalled : c ∉ s.feed.stalled → c ∉ t.feed.stalled) : Apart c s t where
  engine := engine
  chan := chan
  binding := binding
  switches n hn := by rw [switchCtx, recon]; exact hn
  owner := by rw [pool]; exact id
  stalled := stalled
  submitted _ hb := submitted_congr jnl hb

/-- A change outside the feed unit, the switches, the pages and the journal. -/
theorem of_same (engine : t.engine = s.engine) (recon : t.recon = s.recon) (pool : t.pool = s.pool) (jnl : t.jnl = s.jnl)
    (feed : t.feed = s.feed) : Apart c s t :=
  of_rest engine recon pool jnl (chan_congr feed c) (by rw [feed]) (by rw [feed]; exact id)

end Apart

/-! ## The parts of what goes on -/

theorem onChan_apart (ne : d ≠ c) (k : Channel → Channel) (s : State) : Apart c s (s.onChan d k) :=
  .of_rest rfl rfl rfl rfl (onChan_chan_ne k ne.symm) rfl id

theorem setBinding_apart (ne : d ≠ c) (b : Option Binding) (s : State) : Apart c s (s.setBinding d b) :=
  .of_rest rfl rfl rfl rfl rfl (bget_bset_ne _ _ _ _ ne) id

theorem leaveStalled_apart (d : ChanNo) (s : State) : Apart c s (s.leaveStalled d) :=
  .of_rest rfl rfl rfl rfl rfl rfl fun h m => h (List.mem_of_mem_filter m)

theorem answer_apart (slip : Option SlipNo) (st : Status) (vs : List Byte) (s : State) : Apart c s (s.answer slip st vs) :=
  .of_same (answer_does (same_engine.mono rfl) slip st vs rfl) (answer_does (same_recon.mono rfl) slip st vs rfl)
    (answer_does (same_pool.mono rfl) slip st vs rfl) (answer_does (same_jnl.mono rfl) slip st vs rfl) (answer_feed slip st vs s)

theorem noAnswer_apart (slip : Option SlipNo) (s : State) : Apart c s (s.noAnswer slip) :=
  .of_same (noAnswer_does (same_engine.mono rfl) slip rfl) (noAnswer_does (same_recon.mono rfl) slip rfl)
    (noAnswer_does (same_pool.mono rfl) slip rfl) (noAnswer_does (same_jnl.mono rfl) slip rfl)
    (noAnswer_does (same_feed.mono rfl) slip rfl)

theorem freeTheChan_apart (ne : d ≠ c) (s : State) : Apart c s (s.freeTheChan d) :=
  (onChan_apart ne _ s).trans (setBinding_apart ne none _)

theorem setSwitch_switchCtx_ne {n m : Nat} (h : n ≠ m) (x : SwitchCtx) (s : State) : (s.setSwitch m x).switchCtx n = s.switchCtx n := by
  rw [switchCtx, setSwitch, onRecon_recon]
  exact dfind_dput_ne _ h _ _

theorem freeTheChan_stalled (c : ChanNo) (s : State) : (s.freeTheChan c).feed.stalled = s.feed.stalled := rfl

/-- A switch released is not FEEDING, and no other becomes so. -/
theorem releaseSwitch_stays (n m : Nat) (h : (s.switchCtx n).state ≠ .feeding) : ((s.releaseSwitch m).switchCtx n).state ≠ .feeding := by
  by_cases e : n = m
  · rw [e]
    exact releaseSwitch_state m s
  · unfold releaseSwitch
    dsimp only
    split
    · rw [setSwitch_switchCtx_ne e]
      exact h
    · exact h

theorem releaseSwitch_apart (m : Nat) (s : State) : Apart c s (s.releaseSwitch m) where
  engine := releaseSwitch_does (same_engine.mono rfl) m rfl
  chan := chan_congr (releaseSwitch_feed m s) c
  binding := by rw [releaseSwitch_feed]
  switches n := releaseSwitch_stays n m
  owner := by
    rw [show (s.releaseSwitch m).pool = s.pool from releaseSwitch_does (same_pool.mono rfl) m rfl]
    exact id
  stalled := by rw [releaseSwitch_feed]; exact id
  submitted _ := submitted_congr (releaseSwitch_does (same_jnl.mono rfl) m rfl)

theorem cutPages_apart (d : ChanNo) (s : State) : Apart c s (s.cutPages d) := by
  refine ⟨rfl, rfl, rfl, fun _ => id, fun h p hp => ?_, id, fun _ => id⟩
  obtain ⟨q, hq, rfl⟩ := List.mem_map.mp (List.mem_filter.mp hp).1
  split
  · simp [cutPage]
  · exact h q hq

theorem chanDone_apart (ne : d ≠ c) (s : State) : Apart c s (s.chanDone d) := by
  unfold chanDone
  dsimp only
  split
  · exact (answer_apart _ _ _ s).trans (freeTheChan_apart ne _)
  · exact (noAnswer_apart _ s).trans (freeTheChan_apart ne _)

theorem submitClosing_apart (ne : d ≠ c) (before pair later : List EntryBody) (s : State) :
    Apart c s (submitClosing d before pair later s) := by
  have first : Apart c s (submitPair d before pair later s).1 := by
    have sent : Apart c s ((submitAll (.chan d) [] before s).1.submit (pairSub d pair later)).1 :=
      .of_quiet ((submitAll_quiet _ _ _ _).trans (submit_quiet _ _))
    unfold submitPair
    dsimp only
    split
    · exact sent.trans (setBinding_apart ne none _)
    · exact sent
  have last : Apart c s (submitAll (.chan d) [.chanDone d] later (submitPair d before pair later s).1).1 :=
    first.trans (.of_quiet (submitAll_quiet _ _ _ _))
  rw [submitClosing_eq]
  split <;> split
  · exact first.trans (chanDone_apart ne _)
  · exact first
  · exact last.trans (chanDone_apart ne _)
  · exact last

/-! ## A page for a stalled channel (R54) -/

/-- What an operation of the feed unit on channel d leaves of the rest: it changes that channel, and no page, switch or entry. -/
theorem becomes_apart {ch : Channel} (ne : d ≠ c) (h : Becomes d ch s t) (engine : t.engine = s.engine) (recon : t.recon = s.recon)
    (pool : t.pool = s.pool) (jnl : t.jnl = s.jnl) : Apart c s t :=
  .of_rest engine recon pool jnl (h.others c ne.symm) (by rw [h.bindings]) (by rw [h.stalled]; exact id)

theorem testEnd_apart (ne : d ≠ c) (s : State) : Apart c s (s.testEnd d) := by
  obtain ⟨ch, b, _⟩ := testEnd_becomes d s
  exact becomes_apart ne b (testEnd_does (same_engine.mono rfl) d rfl) (testEnd_does (same_recon.mono rfl) d rfl)
    (testEnd_does (same_pool.mono rfl) d rfl) (testEnd_does (same_jnl.mono rfl) d rfl)

theorem recordFinished_apart (ne : d ≠ c) (s : State) : Apart c s (s.recordFinished d) := by
  unfold recordFinished
  split
  · split
    · exact onChan_apart ne _ s
    · exact testEnd_apart ne s
  · exact .refl c s

theorem writePlace_apart (serial : Nat) (r : Rec) (s : State) : Apart c s (s.writePlace serial r) := by
  refine ⟨rfl, rfl, rfl, fun _ => id, fun h p hp => ?_, id, fun _ => id⟩
  obtain ⟨q, hq, rfl⟩ := List.mem_map.mp hp
  split <;> exact h q hq

theorem newPage_apart (ne : d ≠ c) (k : StreamKey) (s : State) : Apart c s (s.newPage d k) := by
  refine ⟨rfl, rfl, rfl, fun _ => id, fun h p hp => ?_, id, fun _ => id⟩
  obtain hp | hp := List.mem_append.mp hp
  · exact h p hp
  · rw [List.mem_singleton.mp hp]
    exact fun e => ne (Option.some.inj e)

/-- A record is placed in a page of the channel, or in a page opened for it. -/
theorem placeRecord_cases {k : StreamKey} {r : Rec} (h : s.placeRecord d k r = some t) :
    (∃ p, s.openPage d k.group = some p ∧ t = s.writePlace p.serial r) ∨
    (s.openPage d k.group = none ∧ t = (s.newPage d k).writePlace s.pool.serial r) := by
  unfold placeRecord at h
  cases e : s.openPage d k.group with
  | some p =>
    rw [e] at h
    exact .inl ⟨p, rfl, (Option.some.inj h).symm⟩
  | none =>
    rw [e] at h
    dsimp only at h
    split at h
    · exact .inr ⟨rfl, (Option.some.inj h).symm⟩
    · cases h

theorem placeRecord_apart (ne : d ≠ c) {k : StreamKey} {r : Rec} (h : s.placeRecord d k r = some t) : Apart c s t := by
  obtain ⟨p, _, rfl⟩ | ⟨_, rfl⟩ := placeRecord_cases h
  · exact writePlace_apart _ _ _
  · exact (newPage_apart ne k s).trans (writePlace_apart _ _ _)

theorem resumeOne_apart (ne : d ≠ c) (s : State) : Apart c s (s.resumeOne d) := by
  unfold resumeOne
  split
  · split
    · split
      · rename_i placed
        exact (((placeRecord_apart ne placed).trans (onChan_apart ne _ _)).trans (leaveStalled_apart d _)).trans
          (recordFinished_apart ne _)
      · exact .refl c s
    · exact leaveStalled_apart d s
  · exact leaveStalled_apart d s

theorem resumeAll_apart (cs : List ChanNo) (h : c ∉ cs) (s : State) : Apart c s (resumeAll cs s) := by
  induction cs generalizing s with
  | nil => exact .refl c s
  | cons d ds ih =>
    unfold resumeAll
    split
    · exact (resumeOne_apart (fun e => h (by simp [e])) s).trans (ih (fun m => h (by simp [m])) _)
    · exact .refl c s

theorem resumeStalled_apart (h : c ∉ s.feed.stalled) : Apart c s s.resumeStalled := resumeAll_apart _ h s

theorem settle_apart (h : c ∉ s.feed.stalled) : Apart c s s.settle :=
  (resumeStalled_apart h).trans (.of_quiet ((runCoder_quiet _).trans (pump_quiet _)))

/-! ## An abort, whoever waits for a page (R60 to R62) -/

/-- How a channel ends at an abort: with an answer, or without one (R60 steps 5 and 6). -/
def abortClosing (answer : Option Status) (drained : Nat) (a : Account) : Closing :=
  match answer with
  | some st => .answer st (ingestValues drained a)
  | none => .silent

/-- The file of a channel without its pages, and the pages given to those that wait (R60 step 1, R54). -/
def pagesFreed (c : ChanNo) (s : State) : State := ((s.leaveStalled c).cutPages c).resumeStalled

/-- A channel whose file is stopped: nothing pending, its switch released, its end fixed (R60 steps 2 to 4). -/
def stopFile (c : ChanNo) (f : File) (cl : Closing) (s : State) : State :=
  (s.onChan c fun ch => { ch with file := some { f with bound := false, held := none, pendingGaps := [] }, closing := cl }).releaseSwitch
    f.switch

theorem leaveStalled_notin (c : ChanNo) (s : State) : c ∉ (s.leaveStalled c).feed.stalled := by
  simp [leaveStalled]

theorem pagesFreed_apart (c : ChanNo) (s : State) : Apart c s (s.pagesFreed c) :=
  ((leaveStalled_apart c s).trans (cutPages_apart c _)).trans (resumeStalled_apart (s := (s.leaveStalled c).cutPages c)
    (leaveStalled_notin c s))

theorem pagesFreed_notin (c : ChanNo) (s : State) : c ∉ (s.pagesFreed c).feed.stalled :=
  (resumeStalled_apart (s := (s.leaveStalled c).cutPages c) (leaveStalled_notin c s)).stalled (leaveStalled_notin c s)

theorem pagesFreed_noOwner (c : ChanNo) (s : State) : ∀ p ∈ (s.pagesFreed c).pool.pages, p.owner ≠ some c :=
  (resumeStalled_apart (s := (s.leaveStalled c).cutPages c) (leaveStalled_notin c s)).owner (cutPages_noOwner c _)

/-- The engine at an abort before its closing entries, and those entries. -/
def aborting (c : ChanNo) (f : File) (answer : Option Status) (s : State) : State :=
  (s.pagesFreed c).stopFile c f (abortClosing answer (s.chan c).drained (s.committed c))
def abortLater (c : ChanNo) (f : File) (answer : Option Status) (s : State) : List EntryBody :=
  restartEntries f.switch (s.committed c).restarts ((s.aborting c f answer).switchCtx f.switch).expected

theorem abort_file (cl : (s.chan c).closing = .none) (hf : (s.chan c).file = some f) (cause : AbortCause) (answer : Option Status) :
    s.abort c cause answer = ((s.aborting c f answer).submitClosing c [] (abortedPair f.switch (s.committed c) cause)
      (s.abortLater c f answer)).runCoder := by
  have chan := (pagesFreed_apart c s).chan
  unfold abort
  simp only [cl, hf, ne_eq, not_true_eq_false, if_false]
  unfold abortLater aborting stopFile
  rw [← chan]
  cases answer <;> rfl

theorem aborting_chan (answer : Option Status) : (s.aborting c f answer).chan c =
    { s.chan c with file := some { f with bound := false, held := none, pendingGaps := [] },
                    closing := abortClosing answer (s.chan c).drained (s.committed c) } := by
  rw [aborting, stopFile, (releaseSwitch_apart (c := c) _ _).chan, onChan_chan_self, (pagesFreed_apart c s).chan]

theorem aborting_engine (answer : Option Status) : (s.aborting c f answer).engine = s.engine := by
  rw [aborting, stopFile, (releaseSwitch_apart (c := c) _ _).engine]
  exact (pagesFreed_apart c s).engine

theorem aborting_jnl (answer : Option Status) : (s.aborting c f answer).jnl = s.jnl := by
  have stopped : (s.aborting c f answer).jnl = (s.pagesFreed c).jnl := releaseSwitch_does (same_jnl.mono rfl) f.switch rfl
  exact stopped.trans (resumeStalled_does (same_jnl.mono rfl) rfl)

theorem aborting_pool (answer : Option Status) : (s.aborting c f answer).pool = (s.pagesFreed c).pool :=
  releaseSwitch_does (same_pool.mono rfl) f.switch rfl

theorem aborting_stalled (answer : Option Status) : (s.aborting c f answer).feed.stalled = (s.pagesFreed c).feed.stalled := by
  rw [aborting, stopFile, releaseSwitch_feed]
  rfl

/-- What an abort has made of the switch, the pages, the waiting order and the journal, whatever the journal has taken; and its
channel is FREE or waits with its closing entries. -/
structure Aborted (s : State) (c : ChanNo) (f : File) (pair : List EntryBody) (answer : Option Status) (t : State) : Prop where
  state : (t.switchCtx f.switch).state ≠ .feeding
  owner : ∀ p ∈ t.pool.pages, p.owner ≠ some c
  stalled : c ∉ t.feed.stalled
  sent : s.engine = .ready → ∀ b ∈ pair, Submitted b t
  chan : t.chan c = Channel.idle ∨
    ((t.chan c).closing = abortClosing answer (s.chan c).drained (s.committed c) ∧ (t.chan c).slip = (s.chan c).slip)

theorem Aborted.apart {pair : List EntryBody} {answer : Option Status} (h : Aborted s c f pair answer t) (g : Apart c t u) :
    Aborted s c f pair answer u where
  state := g.switches _ h.state
  owner := g.owner h.owner
  stalled := g.stalled h.stalled
  sent e b hb := g.submitted b (h.sent e b hb)
  chan := by rw [g.chan]; exact h.chan

theorem chanDone_chan (c : ChanNo) (s : State) : (s.chanDone c).chan c = Channel.idle := by
  unfold chanDone
  exact freeTheChan_chan c _

theorem chanDone_binding (c : ChanNo) (s : State) : bget (s.chanDone c).feed.bindings c = none := by
  unfold chanDone
  exact freeTheChan_binding c _

section abort

variable (cl : (s.chan c).closing = .none) (hf : (s.chan c).file = some f) (cause : AbortCause) (answer : Option Status)
include cl hf

theorem abort_aborted : Aborted s c f (abortedPair f.switch (s.committed c) cause) answer (s.abort c cause answer) := by
  obtain ⟨y, posts, sent, ends, _⟩ := submitClosing_reaches c [] (abortedPair f.switch (s.committed c) cause)
    (s.abortLater c f answer) (abortedPair_ne_nil _ _ _) (s.aborting c f answer)
  have recon := submitClosing_recon c [] (abortedPair f.switch (s.committed c) cause) (s.abortLater c f answer) (s.aborting c f answer)
  have pool := submitClosing_pool c [] (abortedPair f.switch (s.committed c) cause) (s.abortLater c f answer) (s.aborting c f answer)
  obtain ⟨_, stalled⟩ := submitClosing_others c [] (abortedPair f.switch (s.committed c) cause) (s.abortLater c f answer)
    (abortedPair_ne_nil _ _ _) (s.aborting c f answer)
  rw [abort_file cl hf]
  refine Aborted.apart ⟨?_, ?_, ?_, fun ready b hb => ?_, ?_⟩ (.of_quiet (runCoder_quiet _))
  · rw [switchCtx, recon]
    exact releaseSwitch_state f.switch _
  · rw [pool, aborting_pool]
    exact pagesFreed_noOwner c s
  · rw [stalled, aborting_stalled]
    exact pagesFreed_notin c s
  · exact submitClosing_submitted c [] _ _ (abortedPair_ne_nil _ _ _) ((aborting_engine answer).trans ready) b (by simp [hb])
  · obtain e | e := ends <;> rw [e]
    · rw [posts.chans, aborting_chan]
      exact .inr ⟨rfl, rfl⟩
    · exact .inl (chanDone_chan c y)

/-- Where its entries fit the channel is done at once: it is answered, or its slip is released, and it is FREE without a binding (R60
step 6). -/
theorem abort_done (ready : s.engine = .ready) (fits : EntriesFit 3 s) : ∃ y, Posts (s.aborting c f answer) y ∧
    s.abort c cause answer = (y.chanDone c).runCoder := by
  obtain ⟨y, posts, _, _, done⟩ := submitClosing_reaches c [] (abortedPair f.switch (s.committed c) cause)
    (s.abortLater c f answer) (abortedPair_ne_nil _ _ _) (s.aborting c f answer)
  refine ⟨y, posts, ?_⟩
  rw [abort_file cl hf, done ((aborting_engine answer).trans ready)]
  refine (entriesFit_congr (aborting_jnl answer)).mpr (entriesFit_mono fits ?_)
  have : (s.abortLater c f answer).length ≤ 1 := restartEntries_length _ _ _
  simp [abortedPair]
  omega

end abort

theorem abort_of_closing (cl : (s.chan c).closing ≠ .none) (cause : AbortCause) (answer : Option Status) :
    s.abort c cause answer = s := if_pos cl

/-- A channel without a file, let go without an answer (R61). -/
theorem abort_no_file (cl : (s.chan c).closing = .none) (hf : (s.chan c).file = none) (cause : AbortCause) :
    s.abort c cause none = (s.noAnswer (s.chan c).slip).freeTheChan c := by
  simp [abort, cl, hf]

theorem abort_no_file_answers (cl : (s.chan c).closing = .none) (hf : (s.chan c).file = none) (cause : AbortCause) (st : Status) :
    s.abort c cause (some st) = s.endNoFile c st := by
  simp [abort, cl, hf]

/-- The abort of one channel goes on beside every other that waits for no page. -/
theorem abort_apart (ne : d ≠ c) (h : c ∉ s.feed.stalled) (cause : AbortCause) (answer : Option Status) :
    Apart c s (s.abort d cause answer) := by
  by_cases cl : (s.chan d).closing = .none
  · cases hf : (s.chan d).file with
    | none =>
      cases answer with
      | none =>
        rw [abort_no_file cl hf]
        exact (noAnswer_apart _ s).trans (freeTheChan_apart ne _)
      | some st =>
        rw [abort_no_file_answers cl hf]
        exact (answer_apart _ _ _ s).trans (freeTheChan_apart ne _)
    | some f =>
      have freed : Apart c s (s.pagesFreed d) := ((leaveStalled_apart d s).trans (cutPages_apart d _)).trans
        (resumeStalled_apart (s := (s.leaveStalled d).cutPages d) ((leaveStalled_apart d s).stalled h))
      rw [abort_file cl hf]
      exact (((freed.trans (onChan_apart ne _ _)).trans (releaseSwitch_apart _ _)).trans (submitClosing_apart ne _ _ _ _)).trans
        (.of_quiet (runCoder_quiet _))
  · rw [abort_of_closing cl]
    exact .refl c s

/-- Where no channel waits for a page, none does after an abort. -/
theorem abort_alone (h : s.feed.stalled = []) (cause : AbortCause) (answer : Option Status) :
    (s.abort c cause answer).feed.stalled = [] := by
  refine List.eq_nil_iff_forall_not_mem.mpr fun d hd => ?_
  have none : ∀ d, d ∉ s.feed.stalled := by simp [h]
  by_cases e : c = d
  · subst e
    by_cases cl : (s.chan c).closing = .none
    · cases hf : (s.chan c).file with
      | some f => exact (abort_aborted cl hf cause answer).stalled hd
      | none =>
        have left : (s.abort c cause answer).feed.stalled = s.feed.stalled := by
          cases answer with
          | none =>
            have feed : (s.noAnswer (s.chan c).slip).feed = s.feed := noAnswer_does (same_feed.mono rfl) _ rfl
            rw [abort_no_file cl hf, freeTheChan_stalled, feed]
          | some st =>
            have feed := answer_feed (s.chan c).slip st (leBytes 8 (s.chan c).drained) s
            rw [abort_no_file_answers cl hf, endNoFile, freeTheChan_stalled, feed]
        exact none c (by rwa [left] at hd)
    · rw [abort_of_closing cl] at hd
      exact none c hd
  · exact (abort_apart e (none d) cause answer).stalled (none d) hd

end Sys2Proof.Machine.State
end


section
/-! SUPPORT. The desk change (R199), for O12. -/

namespace Sys2Proof.Machine.State

open Sys2Proof.Claims

variable {s t u : State} {c d : ChanNo} {f : File}

/-! ## One channel at a desk change -/

/-- A channel that loses its slip. -/
def slipGone (c : ChanNo) (s : State) : State := s.onChan c fun ch => { ch with slip := none }

theorem slipGone_chan (c : ChanNo) (s : State) : (s.slipGone c).chan c = { s.chan c with slip := none } := onChan_chan_self _

theorem slipGone_committed (c : ChanNo) (s : State) : (s.slipGone c).committed c = s.committed c := rfl

theorem detachChan_free (h : (s.chan c).state = .free) : s.detachChan c = s := by simp [detachChan, h]

theorem detachChan_ending (h : (s.chan c).state = .ending) : s.detachChan c = s.slipGone c := by simp [detachChan, h, slipGone]

/-- A channel in HEADER, RUNNING or STALLED (R44). -/
def Open (s : State) (c : ChanNo) : Prop :=
  (s.chan c).state = .header ∨ (s.chan c).state = .running ∨ (s.chan c).state = .stalled

theorem detachChan_open (h : s.Open c) : s.detachChan c = (s.slipGone c).abort c .deskChange none := by
  obtain h | h | h := h <;> simp [detachChan, h, slipGone]

/-- The channels other than one, at a desk change, go on beside it. -/
theorem detachChan_apart (ne : d ≠ c) (h : s.feed.stalled = []) :
    Apart c s (s.detachChan d) ∧ (s.detachChan d).feed.stalled = [] := by
  have gone : Apart c s (s.slipGone d) := onChan_apart ne _ s
  unfold detachChan
  dsimp only
  split
  · exact ⟨.refl c s, h⟩
  · exact ⟨gone, h⟩
  · exact ⟨gone.trans (abort_apart ne (gone.stalled (by simp [h])) _ _), abort_alone (s := s.slipGone d) h _ _⟩

theorem detachChan_alone (h : s.feed.stalled = []) : (s.detachChan c).feed.stalled = [] := by
  unfold detachChan
  dsimp only
  split
  · exact h
  · exact h
  · exact abort_alone (s := s.slipGone c) h _ _

/-! ## All channels in turn -/

/-- The channels of a list at a desk change. -/
def detachAll (cs : List ChanNo) (s : State) : State := cs.foldl (fun t c => t.detachChan c) s

/-- What one channel's turn leaves, all of them leave. -/
theorem detachAll_same {β : Type} (k : State → β) (h : ∀ c t, k (t.detachChan c) = k t) (cs : List ChanNo) (s : State) :
    k (s.detachAll cs) = k s := by
  induction cs generalizing s with
  | nil => rfl
  | cons c cs ih => exact (ih (s.detachChan c)).trans (h c s)

theorem detachAll_apart (cs : List ChanNo) (h : c ∉ cs) (alone : s.feed.stalled = []) :
    Apart c s (s.detachAll cs) ∧ (s.detachAll cs).feed.stalled = [] := by
  induction cs generalizing s with
  | nil => exact ⟨.refl c s, alone⟩
  | cons d ds ih =>
    obtain ⟨one, still⟩ := detachChan_apart (c := c) (d := d) (fun e => h (by simp [e])) alone
    obtain ⟨rest, alone'⟩ := ih (fun m => h (by simp [m])) still
    exact ⟨one.trans rest, alone'⟩

/-- Each channel has its own turn, before and after which the others go on beside it. -/
theorem detachAll_turn (c : ChanNo) (alone : s.feed.stalled = []) : ∃ x, Apart c s x ∧ x.feed.stalled = [] ∧
    Apart c (x.detachChan c) (s.detachAll (indices 8)) := by
  obtain ⟨before, after, split⟩ := List.append_of_mem (mem_indices c)
  have nodup := indices_nodup 8
  rw [split, List.nodup_append] at nodup
  obtain ⟨_, tail, apart⟩ := nodup
  obtain ⟨lead, still⟩ := detachAll_apart (s := s) before (fun m => apart c m c (by simp) rfl) alone
  refine ⟨s.detachAll before, lead, still, ?_⟩
  have follow := (detachAll_apart (s := (s.detachAll before).detachChan c) after (List.nodup_cons.mp tail).1
    (detachChan_alone still)).1
  rwa [show s.detachAll (indices 8) = ((s.detachAll before).detachChan c).detachAll after from by
    rw [split, detachAll, List.foldl_append]; rfl]

/-! ## The change -/

/-- The desk in use is the one DESK BASE names, and no channel waits for a page. -/
def newDesk (s : State) : State :=
  (s.onFeed fun f => { f with stalled := [] }).onDesk fun d => { d with place := d.base.toNat, baseWritten := false }

/-- The engine holds no slip. -/
def slipsGone (s : State) : State :=
  s.detachOps.onDesk fun d => { d with list := [], held := Vector.replicate 64 .notHeld, first := true, asked := d.asked && d.base != 0 }

theorem deskChange_eq (s : State) : s.deskChange = (s.newDesk.detachAll (indices 8)).slipsGone := rfl

theorem slipsGone_feed (s : State) : s.slipsGone.feed = s.feed := rfl
theorem slipsGone_desk (s : State) : s.slipsGone.desk = { s.desk with list := [], held := Vector.replicate 64 .notHeld, first := true,
                                                                      asked := s.desk.asked && s.desk.base != 0 } := rfl
theorem slipsGone_exec (s : State) : s.slipsGone.exec = s.detachOps.exec := rfl

theorem slipsGone_apart (c : ChanNo) (s : State) : Apart c s s.slipsGone := .of_same rfl rfl rfl rfl rfl

theorem detachAll_alone (s : State) : (s.newDesk.detachAll (indices 8)).feed.stalled = [] := by
  have : ∀ (cs : List ChanNo) (t : State), t.feed.stalled = [] → (t.detachAll cs).feed.stalled = [] := by
    intro cs
    induction cs with
    | nil => exact fun _ => id
    | cons d ds ih => exact fun t h => ih _ (detachChan_alone h)
  exact this _ _ rfl

/-- What follows of itself from a desk change is quiet: no channel waits for a page. -/
theorem deskChange_settles (s : State) : Quiet s.deskChange s.deskChange.settle :=
  settle_quiet (.inl (by rw [deskChange_eq, slipsGone_feed, detachAll_alone]))

/-- A channel at a desk change: its own turn, and all else beside it. -/
theorem deskChange_turn (c : ChanNo) (s : State) : ∃ x, Apart c s.newDesk x ∧ x.feed.stalled = [] ∧
    Apart c (x.detachChan c) s.deskChange.settle := by
  obtain ⟨x, lead, alone, follow⟩ := detachAll_turn (s := s.newDesk) c rfl
  exact ⟨x, lead, alone, (follow.trans (slipsGone_apart c _)).trans (.of_quiet (deskChange_settles s))⟩

/-- The desk unit and the executor after a desk change. -/
theorem deskChange_desk (s : State) : s.deskChange.settle.desk.place = s.desk.base.toNat ∧ s.deskChange.settle.desk.list = [] ∧
    (∀ i, bget s.deskChange.settle.desk.held i = .notHeld) ∧ s.deskChange.settle.desk.first = true := by
  have q := deskChange_settles s
  have place := detachAll_same (fun s => s.desk.place) (fun c _ => detachChan_does (same_place.mono rfl) c rfl) (indices 8) s.newDesk
  have desk := slipsGone_desk (s.newDesk.detachAll (indices 8))
  rw [← deskChange_eq] at desk
  have first : s.deskChange.desk.place = (s.newDesk.detachAll (indices 8)).desk.place := by rw [desk]
  refine ⟨(q.place.trans first).trans place, ?_, fun i => ?_, ?_⟩
  · rw [q.list, desk]
  · rw [q.held, desk]
    exact bget_replicate _ _
  · rw [q.desk, desk]
    rfl

theorem deskChange_exec (s : State) : s.deskChange.settle.exec = s.detachOps.exec := by
  have exec := detachAll_same (fun s => s.exec) (fun c _ => detachChan_does (same_exec.mono rfl) c rfl) (indices 8) s.newDesk
  rw [settle_exec, deskChange_eq, slipsGone_exec, detachOps, onExec_exec, exec]
  rfl

end Sys2Proof.Machine.State

namespace Sys2Proof.Claims

open Sys2Proof.Machine Sys2Proof.Machine.State

variable {s : State} {c : ChanNo} {f : File}

/-! ## The channels, by their states -/

/-- A file in ENDING goes on without its slip (R199). -/
theorem ending_loses_its_slip (h : (s.chan c).state = .ending) : s.deskChange.settle.chan c = { s.chan c with slip := none } := by
  obtain ⟨x, lead, _, follow⟩ := deskChange_turn c s
  have same : x.chan c = s.chan c := lead.chan
  rw [follow.chan, detachChan_ending (by rw [same]; exact h), slipGone_chan, same]

section opened

variable (h : s.Open c) (cl : (s.chan c).closing = .none)
include h cl

/-- An open channel without a file is FREE (R61, R199). -/
theorem open_without_file (hf : (s.chan c).file = none) : s.deskChange.settle.chan c = Channel.idle := by
  obtain ⟨x, lead, _, follow⟩ := deskChange_turn c s
  have same : x.chan c = s.chan c := lead.chan
  have gone := slipGone_chan c x
  rw [same] at gone
  rw [follow.chan, detachChan_open (by rw [Open, same]; exact h), abort_no_file (by rw [gone]; exact cl) (by rw [gone]; exact hf),
    freeTheChan_chan]

/-- An open channel with a file is aborted, without a slip to answer (R60, R199). -/
theorem open_with_file (hf : (s.chan c).file = some f) :
    Aborted (s.slipGone c) c f (abortedPair f.switch (s.committed c) .deskChange) none s.deskChange.settle := by
  obtain ⟨x, lead, _, follow⟩ := deskChange_turn c s
  have same : x.chan c = s.chan c := lead.chan
  have gone := slipGone_chan c x
  rw [same] at gone
  have committed : (x.slipGone c).committed c = s.committed c := by
    rw [slipGone_committed, State.committed, lead.binding]
    rfl
  have aborted := abort_aborted (s := x.slipGone c) (c := c) (f := f) (by rw [gone]; exact cl) (by rw [gone]; exact hf) .deskChange none
  rw [← detachChan_open (by rw [Open, same]; exact h), committed] at aborted
  obtain ⟨state, owner, stalled, sent, chan⟩ := aborted.apart follow
  refine ⟨state, owner, stalled, fun ready => sent (lead.engine.trans ready), ?_⟩
  rw [gone] at chan
  rw [slipGone_chan]
  exact chan

end opened

/-- What a write of DESK BASE leaves alone, whatever becomes of the slips. -/
theorem deskBase_frame (v : Word64) (s : State) :
    let t := (s.writeBase v).settle
    t.ret = s.ret ∧ t.eds = s.eds ∧ t.scrub = s.scrub ∧ t.stamp = s.stamp ∧ t.engine = s.engine ∧ t.media = s.media ∧
      t.pending = s.pending :=
  ⟨settle_does (same_ret.mono rfl) (writeBase_does (same_ret.mono rfl) v rfl),
    settle_does (same_eds.mono rfl) (writeBase_does (same_eds.mono rfl) v rfl),
    settle_does (same_scrub.mono rfl) (writeBase_does (same_scrub.mono rfl) v rfl),
    settle_does (same_stamp.mono rfl) (writeBase_does (same_stamp.mono rfl) v rfl),
    settle_does (same_engine.mono rfl) (writeBase_does (same_engine.mono rfl) v rfl),
    settle_does (same_media.mono rfl) (writeBase_does (same_media.mono rfl) v rfl),
    settle_does (same_pending.mono rfl) (writeBase_does (same_pending.mono rfl) v rfl)⟩

/-- DESK BASE written into the register. -/
def baseTaken (v : Word64) (s : State) : State := s.onDesk fun d => { d with base := State.takenBase v }

theorem writeBase_between (v : Word64) (h : s.desk.sweep = none) : s.writeBase v = (baseTaken v s).deskChange := by
  simp [writeBase, h, baseTaken]

theorem writeBase_sweeping (v : Word64) (h : s.desk.sweep ≠ none) :
    s.writeBase v = (baseTaken v s).onDesk fun d => { d with baseWritten := true } := by
  have : s.desk.sweep.isSome = true := Option.isSome_iff_ne_none.mpr h
  simp [writeBase, this, baseTaken]

/-- The two registers after a write of DESK BASE. -/
theorem deskBase_registers (v : Word64) (s : State) :
    (s.writeBase v).settle.desk.base = State.takenBase v ∧ (s.writeBase v).settle.desk.period = s.desk.period := by
  by_cases h : s.desk.sweep = none
  · rw [writeBase_between v h]
    exact ⟨settle_does (same_base.mono rfl) (deskChange_does (s0 := baseTaken v s) (same_base.mono rfl) rfl),
      settle_does (same_period.mono rfl) (deskChange_does (s0 := baseTaken v s) (same_period.mono rfl) rfl)⟩
  · rw [writeBase_sweeping v h]
    exact ⟨settle_does (s0 := (baseTaken v s).onDesk fun d => { d with baseWritten := true }) (same_base.mono rfl) rfl,
      settle_does (s0 := (baseTaken v s).onDesk fun d => { d with baseWritten := true }) (same_period.mono rfl) rfl⟩

/-- DESK_BASE of a powered engine that is not RECOVERING is the write, and what follows of itself. -/
theorem exec_deskBase (v : Word64) (powered : s.powered = true) (on : s.engine ≠ .recovering) :
    Machine.exec (.deskBase v) s = .next (s.writeBase v).settle := by
  show Machine.execDeskBase v s = _
  simp [execDeskBase, attended, powered, on]

/-- Settles O12: between sweeps the desk change, channel by channel; at a sweep the register alone. -/
theorem deskChangeLetsEverySlipGo : Obligations.DeskChangeLetsEverySlipGo := by
  refine fun v s powered => ⟨fun rec => ?_, fun on => ?_⟩
  · show Machine.execDeskBase v s = _
    rw [execDeskBase, attended, if_pos powered, if_pos rec]
    rfl
  · obtain ⟨ret, eds, scrub, stamp, engine, media, pending⟩ := deskBase_frame v s
    obtain ⟨base, period⟩ := deskBase_registers v s
    refine ⟨_, exec_deskBase v powered on, base, ret, eds, scrub, stamp, engine, media, pending, period, fun between => ?_,
      fun sweeping => ?_⟩
    · rw [base, writeBase_between v between]
      obtain ⟨place, list, held, first⟩ := deskChange_desk (baseTaken v s)
      refine ⟨place, list, held, first, deskChange_exec _, fun c ending => ending_loses_its_slip (s := baseTaken v s) ending,
        fun c opened cl => ⟨fun hf => open_without_file (s := baseTaken v s) opened cl hf, fun f hf => ?_⟩⟩
      have aborted := open_with_file (s := baseTaken v s) opened cl hf
      exact ⟨aborted.chan.imp id fun ⟨closing, slip⟩ => ⟨closing, by rw [slip, slipGone_chan]⟩, aborted.state, aborted.owner,
        aborted.sent⟩
    · rw [writeBase_sweeping v sweeping]
      let w := (baseTaken v s).onDesk fun d => { d with baseWritten := true }
      have desk : w.settle.desk = w.desk.withNotes w.settle.desk := settle_does (keeps_notes.mono rfl) rfl
      exact ⟨settle_does (s0 := w) (same_place.mono rfl) rfl, by rw [desk]; rfl, settle_exec w,
        settle_does (s0 := w) (same_recon.mono rfl) rfl⟩

end Sys2Proof.Claims
end


section
/-! SUPPORT. A sweep at which a withdrawn EXTRACT stops and another resumes, whose buffer lies over the desk, for O14. -/

namespace Sys2Proof.Claims
open Sys2Proof.Machine Sys2Proof.Machine.State

/-- A record whose sequence number has the bytes 1, POSTED, and 2, INGEST, and its block. -/
def postedRecord : Rec :=
  { cls := 0, cause := 0, seq := 0x201, start := 0, duration := 0, route := 0, site := 0, charge := 0, calling := [], called := [] }
def postedBlock : List Byte := encodeBlock Edition.empty none [postedRecord]

/-- A CLOSED segment of that one block, pinned for the reading of it. -/
def readSegment : Segment :=
  { key := { switch := 5, day := 90, group := 1 }, part := 1, edition := none, records := 1, blocks := 1, bytes := postedBlock.length,
    firstSeq := some 0x201, lastSeq := some 0x201, digest := 0, link := 0, expiry := 100, mark := .unverified, verified := none,
    fails := 0, pins := 1, reserve := postedBlock.length, inFlight := 0 }

/-- An EXTRACT whose first record of the buffer has its sequence number on the mark of slip 6 of a desk at 65,536, where one is
written. -/
def overDesk : ExtractParams :=
  { switch := 5, day := 90, mask := 2, range := none, resume := none, buffer := 0x10000 + 128 + 128 * 6 - 4, capacity := 1 }

/-- The EXTRACT of slip 5, which waits for no fetch; and one of a former desk, suspended with the bytes of its fetch kept (R163). -/
def stoppable : Op :=
  { slip := some 5, adm := 4, prio := 1, urgent := false, begun := true, stopping := false, ended := false,
    body := .extract overDesk ExtractState.start }
def keeping : Op :=
  { slip := none, adm := 3, prio := 2, urgent := false, begun := true, stopping := false, ended := false,
    body := .extract overDesk { ExtractState.start with visit := some { newVisit 7 readSegment with asked := postedBlock.length, kept := some postedBlock } } }

/-- A READY engine with a desk at 65,536 and a sweep asked for, which holds slip 5; every mark is FREE, so slip 5 is withdrawn. -/
def overwriting : State :=
  { State.reset with
    powered := true, engine := .ready, stamp := true
    desk := { State.reset.desk with base := 0x10000, place := 0x10000, first := false, asked := true,
                                    held := bset State.reset.desk.held 5 .held }
    exec := { State.reset.exec with running := some stoppable, suspended := [keeping] }
    cat := { State.reset.cat with usable := 1, table := [(7, { content := .live .closed readSegment, erases := 0, fault := false })] }
    lanes := { State.reset.lanes with lane := bset State.reset.lanes.lane 0 (Lane.start true) } }

/-- No bytes come over the bus, and no read fails. -/
def calmBus : Bus := { writes := [], fails := [] }

theorem overwriting_oneSlip : OneSlip calmBus 5 overwriting := by
  unfold OneSlip DeskFits Steady NoChoice NoneResumes byteAt at_
  decide +kernel

/-- The EXTRACT that resumes writes its record, slip 6 is then POSTED when its turn comes, and the sweep admits it. -/
theorem overwriting_lists : ∃ t, Machine.exec (.sweep calmBus) overwriting = .next t ∧ t.desk.list ≠ [] := ⟨_, rfl, by decide +kernel⟩

/-- Refutes O14: a withdrawn EXTRACT stops in the turn of its slip, and the executor chooses again within that turn (R190). The EXTRACT
that it resumes writes the records of the bytes it kept (R163) into its buffer, which can lie over the desk; a slip that has its turn
later is then POSTED, and where its kind is INGEST it joins the admission list, which the statement has stand. -/
theorem not_sweepDealsWithTheMarks : ¬ Obligations.SweepDealsWithTheMarks := by
  unfold Obligations.SweepDealsWithTheMarks
  intro holds
  obtain ⟨t, next, -, -, -, -, withdrawn, -⟩ := holds calmBus 5 overwriting overwriting_oneSlip
  obtain ⟨-, -, stays⟩ := withdrawn rfl (by decide +kernel) (by decide +kernel)
  obtain ⟨list, -⟩ := stays (by decide +kernel)
  obtain ⟨u, other, listed⟩ := overwriting_lists
  have same : t = u := Host.Outcome.next.inj (next.symm.trans other)
  exact listed (by rw [← same]; exact list)

end Sys2Proof.Claims
end


section
/-! SUPPORT. A sweep at its marks (R186, R187): the slips beside one are passed over, and the answer map of a first sweep, for O15
and O24. -/

namespace Sys2Proof.Machine.State

open Sys2Proof.Claims

variable {s t u : State} {i j : SlipNo} {c : ChanNo}

/-! ## The slips beside one -/

/-- Every slip but i is held, mapped and marked as it was. -/
structure Spared (i : SlipNo) (s t : State) : Prop where
  place : t.desk.place = s.desk.place
  fails : t.fails = s.fails
  held : ∀ j, j ≠ i → bget t.desk.held j = bget s.desk.held j
  map : ∀ j, j ≠ i → bget t.desk.map j = bget s.desk.map j
  marks : ∀ j, j ≠ i → t.markOf j = s.markOf j

theorem Spared.trans (h : Spared i s t) (g : Spared i t u) : Spared i s u where
  place := g.place.trans h.place
  fails := g.fails.trans h.fails
  held j ne := (g.held j ne).trans (h.held j ne)
  map j ne := (g.map j ne).trans (h.map j ne)
  marks j ne := (g.marks j ne).trans (h.marks j ne)

theorem Spared.of_stand (h : SlipsStand s t) : Spared i s t :=
  ⟨h.place, h.fails, fun _ _ => by rw [h.held], fun _ _ => by rw [h.map], fun j _ => h.marks j⟩

theorem Spared.refl (i : SlipNo) (s : State) : Spared i s s := .of_stand (.refl s)

theorem setHeld_spared (h : Holding) (s : State) : Spared i s (s.setHeld i h) :=
  ⟨rfl, rfl, fun _ ne => bget_bset_ne _ _ _ _ ne.symm, fun _ _ => rfl, fun _ _ => rfl⟩

theorem slip_apart (ne : j ≠ i) (s : State) : s.slipAt j + 128 ≤ s.slipAt i ∨ s.slipAt i + 128 ≤ s.slipAt j := by
  have : j.val ≠ i.val := fun e => ne (Fin.ext e)
  simp only [slipAt]
  omega

/-- A write within slip i, or in the desk header, is a write at no other slip's mark. -/
theorem write_spared {a : Nat} {bs : List Byte} (h : (s.slipAt i ≤ a ∧ a + bs.length ≤ s.slipAt i + 128) ∨
    a + bs.length ≤ s.desk.place + 128) : Spared i s (s.hostWrite a bs) := by
  have desk := hostWrite_desk s a bs
  refine ⟨by rw [desk], by unfold hostWrite; split <;> rfl, fun _ _ => by rw [desk], fun _ _ => by rw [desk], fun j ne => ?_⟩
  have apart := slip_apart ne s
  have low : s.desk.place + 128 ≤ s.slipAt j := by simp only [slipAt]; omega
  rw [markOf, markOf, slipAt, desk]
  exact byte_hostWrite_outside _ _ _ _ (by change s.slipAt j < a ∨ a + bs.length ≤ s.slipAt j; omega)

theorem setMark_spared (m : Byte) (s : State) : Spared i s (s.setMark i m) :=
  write_spared (.inl ⟨le_rfl, by simp⟩)

theorem setMap_spared (b : Byte) (s : State) : Spared i s (s.setMap i b) := by
  have map : Spared i s (s.onDesk fun d => { d with map := bset d.map i b }) :=
    ⟨rfl, rfl, fun _ _ => rfl, fun _ ne => bget_bset_ne _ _ _ _ ne.symm, fun _ _ => rfl⟩
  have : i.val < 64 := i.isLt
  exact map.trans (write_spared (.inr (by simp only [mapAt, onDesk_desk, List.length_singleton]; omega)))

theorem writeAnswer_spared (st : Status) (vs : List Byte) (s : State) : Spared i s (s.writeAnswer i st vs) := by
  have area : Spared i s (s.hostWrite (s.answerAt i) (answerBytes st vs)) :=
    write_spared (.inl ⟨by rw [answerAt]; omega, by simp only [answerBytes_length, answerAt]; omega⟩)
  exact (((area.trans (setMark_spared _ _)).trans (setMap_spared _ _)).trans (.of_stand (notice_stands _ _))).trans (setHeld_spared _ _)

/-! ## The turns of the slips -/

/-- In a desk that lies in the address space, and where no read fails, every slip but i is FREE, not held and clear in the map. -/
def Lone (i : SlipNo) (s : State) : Prop :=
  DeskFits s ∧ s.fails = [] ∧ ∀ j, j ≠ i → bget s.desk.held j = .notHeld ∧ bget s.desk.map j = 0 ∧ s.markOf j = markFree

theorem Lone.spared (h : Lone i s) (g : Spared i s t) : Lone i t := by
  obtain ⟨fits, reads, others⟩ := h
  refine ⟨by rw [DeskFits, g.place]; exact fits, g.fails.trans reads, fun j ne => ?_⟩
  rw [g.held j ne, g.map j ne, g.marks j ne]
  exact others j ne

/-- A slip's bytes can be read in a desk that lies in the address space, where no read fails. -/
theorem Lone.reads (h : Lone i s) (j : SlipNo) {o n : Nat} (le : o + n ≤ 128) : s.readFails (s.slipAt j + o) n = false := by
  obtain ⟨fits, none, _⟩ := h
  have := j.isLt
  rw [DeskFits] at fits
  simp only [readFails, none, List.any_nil, Bool.or_false, slipAt]
  exact decide_eq_false (by omega)

theorem Lone.pass (h : Lone i s) (ne : j ≠ i) (first : Bool) : s.dealSlip first j = s :=
  have ⟨held, map, mark⟩ := h.2.2 j ne
  dealSlip_of_free first (h.reads j (o := 0) (by decide)) mark held map

theorem Lone.passes (h : Lone i s) (first : Bool) (js : List SlipNo) (off : i ∉ js) :
    js.foldl (fun t j => t.dealSlip first j) s = s := by
  induction js with
  | nil => rfl
  | cons j js ih =>
    rw [List.foldl_cons, h.pass (fun e => off (by rw [e]; exact List.mem_cons_self)) first]
    exact ih fun m => off (List.mem_cons_of_mem _ m)

/-- Slip i has its turn, and after it some other slips have theirs. -/
theorem Lone.turn (h : Lone i s) (first : Bool) : ∃ rest : List SlipNo, i ∉ rest ∧ rest.Nodup ∧
    (indices 64).foldl (fun t j => t.dealSlip first j) s = rest.foldl (fun t j => t.dealSlip first j) (s.dealSlip first i) := by
  obtain ⟨before, after, split⟩ := List.append_of_mem (mem_indices i)
  have nodup := indices_nodup 64
  rw [split, List.nodup_append] at nodup
  obtain ⟨_, tail, apart⟩ := nodup
  refine ⟨after, (List.nodup_cons.mp tail).1, (List.nodup_cons.mp tail).2, ?_⟩
  rw [split, List.foldl_append, h.passes first before (fun m => apart i m i (by simp) rfl), List.foldl_cons]

/-! ## The answer map -/

/-- The answer map alone has changed, in the engine and in the desk header. -/
structure MapWritten (s t : State) : Prop where
  rest : t = { s with desk := { s.desk with map := t.desk.map }, mem := t.mem }
  bytes : ∀ a, s.desk.place + 128 ≤ a → Memory.byte Config.hostFill t.mem a = Memory.byte Config.hostFill s.mem a
  wf : Memory.wf Config.hostFill s.mem = true → Memory.wf Config.hostFill t.mem = true

namespace MapWritten

theorem refl (s : State) : MapWritten s s := ⟨rfl, fun _ _ => rfl, id⟩

theorem desk (h : MapWritten s t) : t.desk = { s.desk with map := t.desk.map } := by rw [h.rest]
theorem place (h : MapWritten s t) : t.desk.place = s.desk.place := by rw [h.desk]
theorem fails (h : MapWritten s t) : t.fails = s.fails := by rw [h.rest]

theorem trans (h : MapWritten s t) (g : MapWritten t u) : MapWritten s u where
  rest := by
    rw [g.rest, h.rest]
  bytes a ha := (g.bytes a (by rw [h.place]; exact ha)).trans (h.bytes a ha)
  wf w := g.wf (h.wf w)

theorem markOf (h : MapWritten s t) (j : SlipNo) : t.markOf j = s.markOf j := by
  rw [State.markOf, State.markOf, slipAt, slipAt, h.place]
  exact h.bytes _ (by omega)

end MapWritten

theorem setMap_written (i : SlipNo) (b : Byte) (s : State) : MapWritten s (s.setMap i b) where
  rest := by
    unfold setMap hostWrite
    dsimp only
    split <;> rfl
  bytes a ha := by
    have : i.val < 64 := i.isLt
    exact byte_hostWrite_outside _ _ _ _ (by rw [List.length_singleton]; simp only [mapAt, onDesk_desk]; omega)
  wf := wf_hostWrite (s := s.onDesk fun d => { d with map := bset d.map i b }) _ _

theorem setMap_map (i : SlipNo) (b : Byte) (s : State) : (s.setMap i b).desk.map = bset s.desk.map i b := by
  unfold setMap
  rw [hostWrite_desk]
  rfl

/-- The entry that a first sweep gives a slip. -/
def mapEntry (s : State) (i : SlipNo) : Byte :=
  if !s.readFails (s.slipAt i) 1 && s.markOf i == markAnswered then s.byteOrFree (s.answerAt i) else 0

theorem MapWritten.entry (h : MapWritten s t) (reads : ∀ i, s.readFails (s.answerAt i) 1 = false) (i : SlipNo) :
    t.mapEntry i = s.mapEntry i := by
  have slip : t.slipAt i = s.slipAt i := by rw [slipAt, slipAt, h.place]
  have answer : t.answerAt i = s.answerAt i := by rw [answerAt, answerAt, slip]
  have read (a : Nat) : t.readFails a 1 = s.readFails a 1 := by rw [readFails, readFails, h.fails]
  have byte : t.byteOrFree (t.answerAt i) = s.byteOrFree (s.answerAt i) := by
    rw [byteOrFree_of_reads (by rw [answer, read]; exact reads i), byteOrFree_of_reads (reads i), answer]
    exact h.bytes _ (by rw [answerAt, slipAt]; omega)
  rw [mapEntry, mapEntry, slip, read, h.markOf, byte]

/-- A first sweep rebuilds the map entry by entry (R187). -/
theorem rebuildEntries_written (reads : ∀ i, s.readFails (s.answerAt i) 1 = false) (is : List SlipNo) :
    let t := is.foldl (fun t i => t.rebuildEntry i) s
    MapWritten s t ∧ ∀ i, bget t.desk.map i = if i ∈ is then s.mapEntry i else bget s.desk.map i := by
  induction is generalizing s with
  | nil => exact ⟨.refl s, fun i => by simp⟩
  | cons j js ih =>
    have one : MapWritten s (s.rebuildEntry j) := setMap_written j _ s
    have here : (s.rebuildEntry j).desk.map = bset s.desk.map j (s.mapEntry j) := setMap_map j _ s
    have reads' (i : SlipNo) : (s.rebuildEntry j).readFails ((s.rebuildEntry j).answerAt i) 1 = false := by
      rw [readFails, one.fails, answerAt, slipAt, one.place]
      exact reads i
    obtain ⟨rest, map⟩ := ih reads'
    refine ⟨one.trans rest, fun i => ?_⟩
    rw [List.foldl_cons, map, one.entry reads, here]
    by_cases e : i = j
    · subst e
      simp
    · rw [bget_bset_ne _ _ _ _ (Ne.symm e)]
      simp [e]

theorem rebuildMap_written (reads : ∀ i, s.readFails (s.answerAt i) 1 = false) :
    MapWritten s s.rebuildMap ∧ ∀ i, bget s.rebuildMap.desk.map i = s.mapEntry i := by
  obtain ⟨written, map⟩ := rebuildEntries_written reads (indices 64)
  unfold rebuildMap
  generalize hl : indices 64 = l at *
  exact ⟨written, fun i => (map i).trans (if_pos (by rw [← hl]; exact mem_indices i))⟩

theorem clearEntry_written (i : SlipNo) (m : Byte) (s : State) : MapWritten s (s.clearEntry i m) := by
  unfold clearEntry
  split
  · exact setMap_written i 0 s
  · exact .refl s

theorem clearEntry_spared (m : Byte) (s : State) : Spared i s (s.clearEntry i m) := by
  unfold clearEntry
  split
  · exact setMap_spared 0 s
  · exact .refl i s

/-- The entry stands exactly where the mark is ANSWERED (R187). -/
theorem clearEntry_map (i : SlipNo) (m : Byte) (s : State) :
    bget (s.clearEntry i m).desk.map i = if m = markAnswered then bget s.desk.map i else 0 := by
  unfold clearEntry
  by_cases m' : m = markAnswered
  · rw [if_neg (by simp [m']), if_pos m']
  · by_cases z : bget s.desk.map i = 0
    · rw [if_neg (by simp [z]), if_neg m', z]
    · rw [if_pos ⟨z, m'⟩, setMap_map, if_neg m']
      exact bget_bset_self _ _ _

end Sys2Proof.Machine.State
end


section
/-! SUPPORT. What the marks of slip i make of the desk unit: the other slips, and the fields of the sweep, stand, for O15 and
O24. -/

namespace Sys2Proof.Machine.State

open Sys2Proof.Claims

variable {s t u : State} {i j : SlipNo} {c : ChanNo} {f : File}

/-- No operation but a power-on breaks the form of host memory. -/
theorem keeps_hostWf : Obeys (fun a b => Memory.wf Config.hostFill a.mem = true → Memory.wf Config.hostFill b.mem = true)
    [.notes, .book, .desk, .buf, .exec, .feed, .pool, .recon, .coder, .cat, .dir, .lanes, .ret, .scrub, .jnl] := by
  refine ⟨fun h g w => g (h w), fun p hp => ?_⟩
  cases p <;> first
    | exact absurd hp (by decide)
    | exact fun _ _ => id
    | exact fun _ _ _ => id
    | exact fun _ _ _ _ _ => wf_hostWrite _ _
    | exact fun _ _ _ => wf_hostWrite _ _

/-- The pages given to stalled channels change no mark: a drained mark lies in an answer area. -/
theorem resumeStalled_stand (s : State) : SlipsStand s s.resumeStalled := by
  have desk : s.resumeStalled.desk = s.desk := resumeStalled_does (same_desk.mono rfl) rfl
  have bytes := (standsAt_resumeStalled (s := s) (A := fun a => ∃ j, a = s.slipAt j) fun c _ k _ a ⟨j, ha⟩ => by
    subst ha
    simp only [answerAt, slipAt]
    omega).bytes
  refine ⟨by rw [desk], by rw [desk], by rw [desk], resumeStalled_does (same_fails.mono rfl) rfl, fun j => ?_,
    resumeStalled_does (keeps_hostWf.mono rfl) id⟩
  rw [markOf, markOf, slipAt, desk]
  exact bytes _ ⟨j, rfl⟩

/-- Beside slip i the slips stand, and so does the desk unit but for its notice fields. -/
structure Beside (i : SlipNo) (s t : State) : Prop extends Spared i s t where
  desk : t.desk = { s.desk.withNotes t.desk with held := t.desk.held, map := t.desk.map }
  wf : Memory.wf Config.hostFill s.mem = true → Memory.wf Config.hostFill t.mem = true

namespace Beside

theorem trans (h : Beside i s t) (g : Beside i t u) : Beside i s u :=
  ⟨h.toSpared.trans g.toSpared, by rw [g.desk, h.desk]; rfl, fun w => g.wf (h.wf w)⟩

theorem of_stand (h : SlipsStand s t) (notes : t.desk = s.desk.withNotes t.desk) : Beside i s t where
  toSpared := .of_stand h
  desk := by rw [notes]; rfl
  wf := h.wf

theorem of_quiet (h : Quiet s t) : Beside i s t := of_stand (.of_quiet h) h.desk

theorem of_same (desk : t.desk = s.desk) (fails : t.fails = s.fails) (mem : t.mem = s.mem) : Beside i s t :=
  of_stand (.of_same desk fails mem) (by rw [desk]; rfl)

theorem refl (i : SlipNo) (s : State) : Beside i s s := of_same rfl rfl rfl

theorem of_written (h : MapWritten s t) (g : Spared i s t) : Beside i s t where
  toSpared := g
  desk := by rw [h.desk]; rfl
  wf := h.wf

end Beside

theorem setHeld_beside (h : Holding) (s : State) : Beside i s (s.setHeld i h) := ⟨setHeld_spared h s, rfl, id⟩
theorem setMark_beside (m : Byte) (s : State) : Beside i s (s.setMark i m) :=
  ⟨setMark_spared m s, by rw [setMark, hostWrite_desk]; rfl, wf_hostWrite _ _⟩
theorem clearEntry_beside (m : Byte) (s : State) : Beside i s (s.clearEntry i m) :=
  .of_written (clearEntry_written i m s) (clearEntry_spared m s)

theorem writeAnswer_beside (st : Status) (vs : List Byte) (s : State) : Beside i s (s.writeAnswer i st vs) where
  toSpared := writeAnswer_spared st vs s
  desk := by
    obtain ⟨n, desk⟩ := (writeAnswer_wrote i st vs s).desk
    rw [desk]
    rfl
  wf := writeAnswer_does (keeps_hostWf.mono rfl) i st vs id

theorem answer_beside (st : Status) (vs : List Byte) (s : State) : Beside i s (s.answer (some i) st vs) := by
  unfold answer
  dsimp only
  split
  · exact setHeld_beside _ s
  · exact writeAnswer_beside st vs s

/-! ## The end of a channel of slip i -/

theorem freeTheChan_beside (c : ChanNo) (s : State) : Beside i s (s.freeTheChan c) := .of_same rfl rfl rfl

theorem testEnd_beside (c : ChanNo) (s : State) : Beside i s (s.testEnd c) := by
  have desk : (s.testEnd c).desk = s.desk := testEnd_does (same_desk.mono rfl) c rfl
  have bytes := (standsAt_testEnd (A := fun a => ∃ j, a = s.slipAt j) (s := s) (c := c) fun k _ a ⟨j, ha⟩ => by
    subst ha
    simp only [answerAt, slipAt]
    omega).bytes
  refine .of_stand ⟨by rw [desk], by rw [desk], by rw [desk], testEnd_does (same_fails.mono rfl) c rfl, fun j => ?_,
    testEnd_does (keeps_hostWf.mono rfl) c id⟩ (by rw [desk]; rfl)
  rw [markOf, markOf, slipAt, desk]
  exact bytes _ ⟨j, rfl⟩

/-- The closing entries leave the desk unit but for its notice fields, and then the channel is done or left to the journal's line. -/
theorem submitClosing_notes (c : ChanNo) (before pair later : List EntryBody) (s : State) : ∃ y, Posts s y ∧
    y.desk = s.desk.withNotes y.desk ∧ (submitClosing c before pair later s = y ∨ submitClosing c before pair later s = y.chanDone c) := by
  have posts := submitPair_posts c before pair later s
  have notes : (submitPair c before pair later s).1.desk = s.desk.withNotes (submitPair c before pair later s).1.desk := by
    have quiet := ((submitAll_quiet (.chan c) [] before s).trans (submit_quiet (pairSub c pair later) _)).desk
    unfold submitPair
    dsimp only
    split
    · exact quiet
    · exact quiet
  have eq := submitClosing_eq c before pair later s
  dsimp only at eq
  generalize submitPair c before pair later s = z at posts notes eq
  have rest := submitAll_quiet (.chan c) [.chanDone c] later z.1
  generalize submitAll (.chan c) [.chanDone c] later z.1 = r at rest eq
  rw [eq]
  have both (b : Bool) (x : State) : (if b then x.chanDone c else x) = x ∨ (if b then x.chanDone c else x) = x.chanDone c := by
    cases b
    · exact .inl rfl
    · exact .inr rfl
  split
  · exact ⟨z.1, posts, notes, both _ _⟩
  · exact ⟨r.1, posts.trans (.of_quiet rest), by rw [rest.desk, notes]; rfl, both _ _⟩

theorem aborting_desk (c : ChanNo) (f : File) (answer : Option Status) (s : State) : (s.aborting c f answer).desk = s.desk := by
  have stops : (s.aborting c f answer).desk = (s.pagesFreed c).desk := releaseSwitch_does (same_desk.mono rfl) f.switch rfl
  exact stops.trans (resumeStalled_does (same_desk.mono rfl) rfl)

/-- The pages that an abort gives to stalled channels change no mark. -/
theorem aborting_stand (c : ChanNo) (f : File) (answer : Option Status) (s : State) : SlipsStand s (s.aborting c f answer) := by
  have cut : SlipsStand s ((s.leaveStalled c).cutPages c) := .of_same rfl rfl rfl
  have chan (x : State) (k : Channel → Channel) : SlipsStand x (x.onChan c k) := .of_same rfl rfl rfl
  have stops (x : State) (n : Nat) : SlipsStand x (x.releaseSwitch n) :=
    .of_same (releaseSwitch_does (same_desk.mono rfl) n rfl) (releaseSwitch_does (same_fails.mono rfl) n rfl)
      (releaseSwitch_does (same_mem.mono rfl) n rfl)
  exact ((cut.trans (resumeStalled_stand _)).trans (chan _ _)).trans (stops _ _)

section channel

variable (slip : (s.chan c).slip = some i)
include slip

theorem endNoFile_beside (st : Status) : Beside i s (s.endNoFile c st) := by
  unfold endNoFile
  rw [slip]
  exact (answer_beside st _ s).trans (freeTheChan_beside c _)

theorem chanDone_beside : Beside i s (s.chanDone c) := by
  unfold chanDone
  rw [slip]
  refine Beside.trans ?_ (freeTheChan_beside c _)
  split
  · exact answer_beside _ _ s
  · exact setHeld_beside _ s

theorem abort_beside (cause : AbortCause) (answer : Option Status) : Beside i s (s.abort c cause answer) := by
  by_cases cl : (s.chan c).closing = .none
  · cases hf : (s.chan c).file with
    | none =>
      cases answer with
      | none =>
        rw [abort_no_file cl hf, slip]
        exact (setHeld_beside _ s).trans (freeTheChan_beside c _)
      | some st =>
        rw [abort_no_file_answers cl hf]
        exact endNoFile_beside slip st
    | some f =>
      have freed : Beside i s (s.aborting c f answer) := .of_stand (aborting_stand c f answer s) (by rw [aborting_desk]; rfl)
      have slip' : ((s.aborting c f answer).chan c).slip = some i := by rw [aborting_chan]; exact slip
      rw [abort_file cl hf]
      refine (freed.trans ?_).trans (.of_quiet (runCoder_quiet _))
      obtain ⟨y, posts, quiet, e | e⟩ := submitClosing_notes c [] (abortedPair f.switch (s.committed c) cause)
        (s.abortLater c f answer) (s.aborting c f answer)
      · rw [e]
        exact .of_stand posts.stands quiet
      · rw [e]
        exact (Beside.of_stand posts.stands quiet).trans (chanDone_beside (by rw [posts.chans]; exact slip'))
  · rw [abort_of_closing cl]
    exact .refl i s

end channel

end Sys2Proof.Machine.State
end


section
/-! SUPPORT. What a sweep's turns leave of the desk unit's sweep: its fields stand, through a withdrawal too, after which the executor
may choose and resume an operation (R163, R186 to R190), for O15 and O24. -/

namespace Sys2Proof.Machine.State

open Sys2Proof.Claims

variable {s t u : State} {i j : SlipNo} {c : ChanNo} {o : Op}

/-- The sweep goes on: it is asked for, first, under way, and a desk change waits for it, as before. -/
structure Dealing (s t : State) : Prop where
  asked : t.desk.asked = s.desk.asked
  first : t.desk.first = s.desk.first
  written : t.desk.baseWritten = s.desk.baseWritten
  on : t.desk.sweep.isSome = s.desk.sweep.isSome

namespace Dealing

theorem trans (h : Dealing s t) (g : Dealing t u) : Dealing s u :=
  ⟨g.asked.trans h.asked, g.first.trans h.first, g.written.trans h.written, g.on.trans h.on⟩

theorem refl (s : State) : Dealing s s := ⟨rfl, rfl, rfl, rfl⟩

theorem of_notes (h : t.desk = s.desk.withNotes t.desk) : Dealing s t := by constructor <;> rw [h] <;> rfl
theorem of_beside (h : Beside i s t) : Dealing s t := by constructor <;> rw [h.desk] <;> rfl

theorem onSweep (f : Sweep → Sweep) (s : State) : Dealing s (s.onSweep f) := ⟨rfl, rfl, rfl, Option.isSome_map⟩

end Dealing

theorem onOp_dealing (adm : Nat) (k : Op → Op) (s : State) : Dealing s (s.onOp adm k) := .of_notes rfl
theorem setVisit_dealing (adm : Nat) (v : Option Visit) (s : State) : Dealing s (s.setVisit (.op adm) v) := .of_notes rfl
theorem makeRunning_dealing (o : Op) (s : State) : Dealing s (s.makeRunning o) := .of_notes rfl

/-! ## An operation's end, and its reading -/

theorem answer_dealing (slip : Option SlipNo) (st : Status) (vs : List Byte) (s : State) : Dealing s (s.answer slip st vs) := by
  cases slip with
  | none => exact .refl s
  | some i => exact .of_beside (answer_beside st vs s)

theorem endAnswer_dealing (st : Status) (vs : List Byte) (s : State) : Dealing s (s.endAnswer st vs) := by
  cases h : s.exec.running with
  | none =>
    have : s.endAnswer st vs = s := by simp [endAnswer, h]
    rw [this]
    exact .refl s
  | some o =>
    rw [endAnswer_eq h]
    exact (answer_dealing o.slip st vs s).trans (.of_notes rfl)

theorem verifyEnd_dealing (s : State) : Dealing s s.verifyEnd := by
  unfold verifyEnd
  split
  · split
    · exact endAnswer_dealing _ _ s
    · exact .refl s
  · exact .refl s

theorem verdictDone_dealing (adm : Nat) (s : State) : Dealing s (s.verdictDone (.op adm)) := by
  unfold verdictDone
  split
  · exact .refl s
  · exact (Dealing.of_notes (leaveVisit_does (keeps_notes.mono rfl) _ (s := s) rfl)).trans
      ((onOp_dealing _ _ _).trans (verifyEnd_dealing _))

theorem giveVerdict_dealing (adm : Nat) (out : Option (VerifyCause × Nat)) (v : Visit) (s : State) :
    Dealing s (s.giveVerdict (.op adm) out v) := by
  have counted (x : State) (ok : Bool) (n : Nat) (k : Segment → Segment) : Dealing x ((x.onSegment n k).countReader (.op adm) ok) :=
    .of_notes (countReader_does (keeps_notes.mono rfl) _ _ (onSegment_does (keeps_notes.mono rfl) n k (s := x) rfl))
  unfold giveVerdict
  split
  · exact (counted s _ _ _).trans (verdictDone_dealing adm _)
  · have sent (sub : Submission) (x : State) : Dealing x (x.submit sub).1 := .of_notes (submit_quiet sub x).desk
    dsimp only
    split
    · exact ((counted s _ _ _).trans (sent _ _)).trans (verdictDone_dealing adm _)
    · exact ((counted s _ _ _).trans (sent _ _)).trans (setVisit_dealing _ _ _)

theorem issueFetch_dealing (adm : Nat) (v : Visit) (s : State) : Dealing s (s.issueFetch (.op adm) v) :=
  .of_notes (issueFetch_does (keeps_notes.mono rfl) _ v (s := s) rfl)

theorem markFault_dealing (n : Nat) (s : State) : Dealing s (s.markFault n) :=
  .of_notes (markFault_does (keeps_notes.mono rfl) n (s := s) rfl)

theorem verifyGo_dealing (adm : Nat) (s : State) : Dealing s (s.verifyGo (.op adm)) := by
  unfold verifyGo
  split
  · exact .refl s
  · split
    · exact .refl s
    · split
      · exact giveVerdict_dealing _ _ _ s
      · split
        · exact issueFetch_dealing _ _ s
        · exact (markFault_dealing _ s).trans (giveVerdict_dealing _ _ _ _)

theorem verifyArrives_dealing (adm : Nat) (a : Arrival) (s : State) : Dealing s (s.verifyArrives (.op adm) a) := by
  unfold verifyArrives
  split
  · exact .refl s
  · split
    · exact giveVerdict_dealing _ _ _ s
    · split
      · exact .refl s
      · exact (setVisit_dealing _ _ s).trans (verifyGo_dealing _ _)

theorem extractLeave_dealing (skipped : Bool) (s : State) : Dealing s (s.extractLeave skipped) :=
  .of_notes (extractLeave_does (keeps_notes.mono rfl) skipped (s := s) rfl)

theorem extractGo_dealing (s : State) : Dealing s s.extractGo :=
  .of_notes (extractGo_does (keeps_notes.mono rfl) (s := s) rfl)

theorem extractArrives_dealing (a : Arrival) (s : State) : Dealing s (s.extractArrives a) := by
  have written (p : ExtractParams) (skip : Option (Nat × Nat)) (bs : List (Nat × List Rec)) (w n : Nat) (k : Segment → Segment) :
      Dealing s ((writeBlocks p skip bs w s).1.onSegment n k) :=
    .of_notes (onSegment_does (keeps_notes.mono rfl) _ _ (writeBlocks_does (keeps_notes.mono rfl) p skip bs w (s := s) rfl))
  have goesOn (p : ExtractParams) (skip : Option (Nat × Nat)) (bs : List (Nat × List Rec)) (w : Nat) (k : Op → Op) :
      Dealing s ((writeBlocks p skip bs w s).1.onRunning k) :=
    .of_notes (onRunning_does (keeps_notes.mono rfl) _ (writeBlocks_does (keeps_notes.mono rfl) p skip bs w (s := s) rfl))
  unfold extractArrives
  split
  · exact extractLeave_dealing _ s
  · split
    · split
      · split
        · dsimp only
          split
          · exact (written _ _ _ _ _ _).trans (endAnswer_dealing _ _ _)
          · exact (written _ _ _ _ _ _).trans (endAnswer_dealing _ _ _)
          · split
            · exact (goesOn _ _ _ _ _).trans (extractLeave_dealing _ _)
            · exact (goesOn _ _ _ _ _).trans (extractGo_dealing _)
        · exact .refl s
      · exact .refl s
    · exact .refl s

theorem opArrives_dealing (a : Arrival) (s : State) : Dealing s (s.opArrives a) := by
  unfold opArrives
  split
  · split
    · exact verifyArrives_dealing _ a s
    · exact extractArrives_dealing a s
    · exact .refl s
  · exact .refl s

/-! ## The choice -/

theorem resumeKept_dealing (s : State) : Dealing s s.resumeKept := by
  unfold resumeKept
  split
  · split
    · split
      · exact opArrives_dealing _ s
      · exact .refl s
    · exact verifyEnd_dealing s
  · exact .refl s

theorem nextLoop_dealing (n : Nat) (s : State) : Dealing s (nextLoop n s) := by
  induction n generalizing s with
  | zero => exact .refl s
  | succ n ih =>
    unfold nextLoop
    split
    · exact .refl s
    · split
      · exact ((makeRunning_dealing _ s).trans (resumeKept_dealing _)).trans (ih _)
      · exact .refl s

theorem nextOp_dealing (s : State) : Dealing s s.nextOp := by
  unfold nextOp
  split
  · exact .refl s
  · exact nextLoop_dealing 4 s

/-! ## The channel of a slip -/

theorem chanOfSlip_some (h : s.chanOfSlip i = some c) : (s.chan c).slip = some i ∧ (s.chan c).state ≠ .free := by
  have := List.find?_some h
  simp only [Bool.and_eq_true, bne_iff_ne, beq_iff_eq] at this
  exact ⟨this.2, this.1⟩

theorem applyMarks_beside (slip : (s.chan c).slip = some i) (m : RingMarks) : Beside i s (s.applyMarks c m) := by
  have takes : Beside i s (s.onChan c (Channel.takeMarks m)) := .of_same rfl rfl rfl
  cases fault : marksFault (s.chan c) m with
  | true =>
    rw [applyMarks_fault fault]
    exact abort_beside slip _ _
  | false =>
    cases total : ((s.chan c).takeMarks m).finalTotal with
    | none =>
      rw [applyMarks_no_total fault total]
      exact takes
    | some n =>
      by_cases short : (s.chan c).file = none ∧ n < 64
      · rw [applyMarks_short fault total short.1 short.2]
        exact takes.trans (endNoFile_beside (by rw [onChan_chan_self]; exact slip) _)
      · rw [applyMarks_total fault total fun file => Nat.le_of_not_lt fun lt => short ⟨file, lt⟩]
        exact takes.trans (testEnd_beside c _)

theorem rereadSlip_beside (i : SlipNo) (s : State) : Beside i s (s.rereadSlip i) := by
  unfold rereadSlip
  split
  · rename_i c h
    split
    · exact .refl i s
    · unfold rereadMarks
      repeat' split
      · exact .refl i s
      · exact .refl i s
      · exact applyMarks_beside (chanOfSlip_some h).1 _
  · exact .refl i s

/-! ## The turns -/

theorem withdrawOp_dealing (i : SlipNo) (s : State) : Dealing s (s.withdrawOp i) := by
  have unpins (o : Op) (x : State) : Dealing x (x.unpinOp o) := .of_notes (unpinOp_does (keeps_notes.mono rfl) o (s := x) rfl)
  unfold withdrawOp
  split
  · rename_i o _
    split
    · exact (unpins o s).trans ⟨rfl, rfl, rfl, rfl⟩
    · exact .refl s
  · split
    · split
      · split
        · unfold stopRunning
          split
          · rename_i r _
            refine (unpins r s).trans ?_
            unfold endSilent
            split
            · rename_i o _
              cases o.slip <;> exact ⟨rfl, rfl, rfl, rfl⟩
            · exact .refl _
          · exact .refl s
        · exact ⟨rfl, rfl, rfl, rfl⟩
      · exact .refl s
    · exact .refl s

theorem withdraw_dealing (i : SlipNo) (s : State) : Dealing s (s.withdraw i) := by
  unfold withdraw
  split
  · exact ⟨rfl, rfl, rfl, rfl⟩
  · split
    · rename_i c h
      split
      · exact .refl s
      · exact .of_beside (abort_beside (chanOfSlip_some h).1 _ _)
    · exact (withdrawOp_dealing i s).trans (nextOp_dealing _)

/-! ## Admission -/

theorem takeSlipMark_dealing (i : SlipNo) (s : State) : Dealing s (s.takeSlipMark i) :=
  (Dealing.of_beside (setMark_beside markTaken s)).trans ⟨rfl, rfl, rfl, rfl⟩

theorem admitRetain_dealing (a : Admitted) (s : State) : Dealing s (s.admitRetain a) := by
  unfold admitRetain
  split
  · dsimp only
    split
    · exact .onSweep _ s
    · exact ⟨rfl, rfl, rfl, Option.isSome_map⟩
  · exact .refl s

theorem dispatch_dealing (a : Admitted) (s : State) : Dealing s (s.dispatch a) := by
  unfold dispatch
  split
  · exact admitRetain_dealing a s
  · split
    · exact ⟨rfl, rfl, rfl, rfl⟩
    · exact .onSweep _ s
    · split
      · exact .onSweep _ s
      · exact .refl s

theorem admitSlip_dealing (i : SlipNo) (s : State) : Dealing s (s.admitSlip i) := by
  unfold admitSlip
  split
  · exact .refl s
  · refine (takeSlipMark_dealing i s).trans ?_
    dsimp only
    split
    · exact .of_beside (answer_beside _ _ _)
    · unfold judgeSlip
      dsimp only
      split
      · exact .of_beside (answer_beside _ _ _)
      · exact dispatch_dealing _ _

/-- A slip's turn leaves the fields of the sweep. -/
theorem dealSlip_dealing (first : Bool) (i : SlipNo) (s : State) : Dealing s (s.dealSlip first i) := by
  unfold dealSlip
  split
  · exact .refl s
  · dsimp only
    refine (Dealing.of_beside (clearEntry_beside (i := i) (s.markOf i) s)).trans ?_
    split
    · split
      · exact admitSlip_dealing i _
      · split
        · exact .of_beside (writeAnswer_beside _ _ _)
        · exact .refl _
    · split
      · exact .of_beside (rereadSlip_beside i _)
      · exact (Dealing.of_beside (setHeld_beside .withdrawn _)).trans (withdraw_dealing i _)
    · exact .refl _

theorem dealSlips_dealing (first : Bool) (js : List SlipNo) (s : State) : Dealing s (js.foldl (fun t j => t.dealSlip first j) s) := by
  induction js generalizing s with
  | nil => exact .refl s
  | cons j js ih => exact (dealSlip_dealing first j s).trans (ih _)

end Sys2Proof.Machine.State
end


section
/-! SUPPORT. A sweep from its header to its end (R186): the engine at the marks, the turn of one slip, and what follows when no quick
slip is left, for O15 and O24. -/

namespace Sys2Proof.Machine.State

open Sys2Proof.Claims

variable {s t u v x : State} {i j : SlipNo} {c : ChanNo} {o : Op} {w : Sweep} {e : Exec}

/-! ## The engine at the marks -/

/-- The header has been taken, and at a first sweep the answer map rebuilt. -/
def atMarks (u : State) : State :=
  let v := u.sweeping (u.hostBytes u.desk.place 8)
  if u.desk.first then v.rebuildMap else v

/-- What the header, `h`, and the map leave. -/
structure AtMarks (h : List Byte) (u v : State) : Prop where
  desk : v.desk = { u.desk with asked := false, threshold := min (field h 0 1) 3, enable := h.getD 1 0,
                                sweep := some { quick := [], long := [] }, map := v.desk.map }
  map : ∀ i, bget v.desk.map i = if u.desk.first then u.mapEntry i else bget u.desk.map i
  bytes : ∀ a, u.desk.place + 128 ≤ a → Memory.byte Config.hostFill v.mem a = Memory.byte Config.hostFill u.mem a
  wf : Memory.wf Config.hostFill u.mem = true → Memory.wf Config.hostFill v.mem = true
  fails : v.fails = u.fails
  engine : v.engine = u.engine
  exec : v.exec = u.exec
  feed : v.feed = u.feed
  pool : v.pool = u.pool
  recon : v.recon = u.recon
  ret : v.ret = u.ret
  jnl : v.jnl = u.jnl
  segments : SegmentsStand u v

theorem sweeping_jnl (h : List Byte) (s : State) : (s.sweeping h).jnl = s.jnl :=
  takeSettings_does (same_jnl.mono rfl) h (s := s.onDesk fun d => { d with asked := false }) rfl

theorem atMarks_atMarks (reads : ∀ i, u.readFails (u.answerAt i) 1 = false) : AtMarks (u.hostBytes u.desk.place 8) u u.atMarks := by
  have taken := sweeping_sweeping (u.hostBytes u.desk.place 8) u
  have jnl := sweeping_jnl (u.hostBytes u.desk.place 8) u
  unfold atMarks
  generalize u.hostBytes u.desk.place 8 = h at *
  generalize u.sweeping h = w at *
  have place : w.desk.place = u.desk.place := by rw [taken.desk]
  have slip (i : SlipNo) : w.slipAt i = u.slipAt i := by rw [slipAt, slipAt, place]
  have answer (i : SlipNo) : w.answerAt i = u.answerAt i := by rw [answerAt, answerAt, slip]
  have read (a : Nat) : w.readFails a 1 = u.readFails a 1 := by rw [readFails, readFails, taken.fails]
  have readsW (i : SlipNo) : w.readFails (w.answerAt i) 1 = false := by rw [answer, read]; exact reads i
  dsimp only
  split
  · rename_i first
    obtain ⟨written, map⟩ := rebuildMap_written readsW
    generalize w.rebuildMap = v at *
    have same {α : Type} (F : State → α) (hF : ∀ d m, F { w with desk := d, mem := m } = F w) : F v = F w := by
      rw [written.rest]
      exact hF _ _
    have entry (i : SlipNo) : w.mapEntry i = u.mapEntry i := by
      have byte : w.byteOrFree (u.answerAt i) = u.byteOrFree (u.answerAt i) := by
        rw [byteOrFree_of_reads (by rw [read]; exact reads i), byteOrFree_of_reads (reads i), taken.mem]
      rw [mapEntry, mapEntry, slip, read, answer, byte, markOf, markOf, slip, taken.mem]
    exact
      { desk := by rw [written.desk, taken.desk]
        map := fun i => by rw [map, entry, if_pos first]
        bytes := fun a ha => (written.bytes a (by rw [place]; exact ha)).trans (by rw [taken.mem])
        wf := fun wf => written.wf (by rw [taken.mem]; exact wf)
        fails := written.fails.trans taken.fails
        engine := (same State.engine fun _ _ => rfl).trans taken.engine
        exec := (same State.exec fun _ _ => rfl).trans taken.exec
        feed := (same State.feed fun _ _ => rfl).trans taken.feed
        pool := (same State.pool fun _ _ => rfl).trans taken.pool
        recon := (same State.recon fun _ _ => rfl).trans taken.recon
        ret := (same State.ret fun _ _ => rfl).trans taken.ret
        jnl := (same State.jnl fun _ _ => rfl).trans jnl
        segments := taken.segments.trans
          ⟨same State.engine fun _ _ => rfl, same (fun s => s.cat.usable) fun _ _ => rfl, same (fun s => s.cat.table) fun _ _ => rfl,
            fun l => same (fun s => s.isOnline l) fun _ _ => rfl⟩ }
  · rename_i later
    exact
      { desk := by rw [taken.desk]
        map := fun i => by rw [taken.desk, if_neg later]
        bytes := fun a _ => by rw [taken.mem]
        wf := fun wf => by rw [taken.mem]; exact wf
        fails := taken.fails
        engine := taken.engine
        exec := taken.exec
        feed := taken.feed
        pool := taken.pool
        recon := taken.recon
        ret := taken.ret
        jnl := jnl
        segments := taken.segments }

namespace AtMarks

variable {h : List Byte}

theorem place (m : AtMarks h u v) : v.desk.place = u.desk.place := by rw [m.desk]
theorem held (m : AtMarks h u v) : v.desk.held = u.desk.held := by rw [m.desk]
theorem slipAt (m : AtMarks h u v) (i : SlipNo) : v.slipAt i = u.slipAt i := by rw [State.slipAt, State.slipAt, m.place]
theorem markOf (m : AtMarks h u v) (i : SlipNo) : v.markOf i = u.markOf i := by
  rw [State.markOf, State.markOf, m.slipAt]
  exact m.bytes _ (by rw [State.slipAt]; omega)

/-- The slips but one are as the sweep found them. -/
theorem lone (m : AtMarks h u v) (lone : Lone i u) : Lone i v := by
  obtain ⟨fits, reads, others⟩ := lone
  refine ⟨by rw [DeskFits, m.place]; exact fits, m.fails.trans reads, fun j ne => ?_⟩
  obtain ⟨held, map, mark⟩ := others j ne
  rw [m.held, m.markOf, m.map]
  refine ⟨held, ?_, mark⟩
  split
  · rw [mapEntry, mark]
    have : (markFree == markAnswered) = false := by decide
    simp [this]
  · exact map

end AtMarks

/-- The slips have their turns, and the sweep goes on. -/
theorem beginSweep_turns (ready : u.sweepReady = true) (read : u.readFails u.desk.place 8 = false) :
    u.beginSweep = ((indices 64).foldl (fun t i => t.dealSlip u.desk.first i) u.atMarks).sweepGoesOn := by
  have reads (f : Desk → Desk) (a n : Nat) : (u.onDesk f).readFails a n = u.readFails a n := by simp only [readFails, onDesk_fails]
  have bytes (f : Desk → Desk) (a n : Nat) : (u.onDesk f).hostBytes a n = u.hostBytes a n := by simp only [hostBytes, onDesk_mem]
  unfold beginSweep atMarks
  rw [if_neg (by rw [ready]; decide)]
  simp only [reads, bytes, onDesk_desk, read, Bool.false_eq_true, if_false]
  have first := congrArg Desk.first (sweeping_sweeping (u.hostBytes u.desk.place 8) u).desk
  generalize u.hostBytes u.desk.place 8 = h at *
  change ((indices 64).foldl (fun t i => t.dealSlip (u.sweeping h).desk.first i)
    (if (u.sweeping h).desk.first = true then (u.sweeping h).rebuildMap else u.sweeping h)).sweepGoesOn = _
  rw [first]

/-! ## The end of the sweep -/

/-- Without a desk change that waits, the sweep is over: the engine fields written, the gate opened. -/
theorem finishSweep_over (written : x.handOverLong.desk.baseWritten = false) : ∃ m k g, x.finishSweep =
    x.handOverLong.writeFields.onDesk fun d => { d with messages := m, kept := k, gateOpen := g, sweep := none, first := false } := by
  obtain ⟨m, k, g, gate⟩ := openGate_eq x.handOverLong.writeFields
  refine ⟨m, k, g, ?_⟩
  unfold finishSweep
  dsimp only
  rw [if_neg, gate]
  · rfl
  · rw [gate]
    show ¬ x.handOverLong.writeFields.desk.baseWritten = true
    rw [(writeFields_written x.handOverLong).rest]
    exact Bool.eq_false_iff.mp written

theorem handOverLong_eq (sweep : x.desk.sweep = some w) :
    x.handOverLong = (handOverAll w.long (x.onSweep fun y => { y with long := [] })).nextOp := by
  unfold handOverLong
  rw [sweep]

theorem sweepGoesOn_quick (sweep : x.desk.sweep = some w) (quick : w.quick ≠ []) : x.sweepGoesOn = x := by
  unfold sweepGoesOn
  rw [sweep]
  exact if_neg (by simpa using quick)

theorem sweepGoesOn_over (sweep : x.desk.sweep = some w) (quick : w.quick = []) : x.sweepGoesOn = x.finishSweep := by
  unfold sweepGoesOn
  rw [sweep]
  exact if_pos (by simp [quick])

theorem settle_notes (s : State) : s.settle.desk = s.desk.withNotes s.settle.desk := settle_does (keeps_notes.mono rfl) (s := s) rfl

theorem handOverAll_desk (os : List Op) (s : State) : (handOverAll os s).desk = s.desk := by rw [handOverAll_exec]; rfl

/-- The sweep is no first sweep once it is over (R186). -/
theorem sweepGoesOn_first (on : x.desk.sweep.isSome = true) (written : x.desk.baseWritten = false) :
    x.sweepGoesOn.settleOps.desk.asked = x.desk.asked ∧
    x.sweepGoesOn.settleOps.desk.first = (x.desk.first && x.sweepGoesOn.settleOps.desk.sweep.isSome) := by
  have ends (y : State) : Dealing y y.settleOps := (nextOp_dealing y).trans (.of_notes (settle_notes _))
  obtain ⟨w, sweep⟩ := Option.isSome_iff_exists.mp on
  have settled := ends x.sweepGoesOn
  rw [settled.asked, settled.first, settled.on]
  by_cases quick : w.quick = []
  · have handed : x.handOverLong.desk.asked = x.desk.asked ∧ x.handOverLong.desk.baseWritten = x.desk.baseWritten := by
      have handing := nextOp_dealing (handOverAll w.long (x.onSweep fun y => { y with long := [] }))
      rw [handOverLong_eq sweep, handing.asked, handing.written, handOverAll_desk]
      exact ⟨rfl, rfl⟩
    obtain ⟨m, k, g, finish⟩ := finishSweep_over (handed.2.trans written)
    rw [sweepGoesOn_over sweep quick, finish, (writeFields_written x.handOverLong).rest]
    exact ⟨handed.1, by simp⟩
  · rw [sweepGoesOn_quick sweep quick, sweep]
    exact ⟨rfl, by simp⟩

/-- The engine `x` with its long slips handed over to the executor, which is then `e`. -/
def handed (e : Exec) (x : State) : State := (x.onSweep fun y => { y with long := [] }).onExec fun _ => e

/-- The sweep of the engine `x` is over, and the executor is `e`; what follows of itself has not yet come. -/
structure Over (x : State) (e : Exec) (y : State) : Prop where
  rest : y = { x with desk := y.desk, mem := y.mem, exec := e }
  desk : y.desk = { x.desk.withNotes y.desk with sweep := none, first := false }
  counters : y.desk.counters = x.desk.counters
  mem : y.mem = (x.handed e).writeFields.mem

/-- The hand-over has changed the executor alone, and has left it nothing to choose. -/
theorem over_of_handed (sweep : x.desk.sweep = some w) (quick : w.quick = []) (written : x.desk.baseWritten = false)
    (goes : x.handOverLong = x.handed e) (choice : e.running.isSome = true ∨ leastPrio (e.suspended ++ e.waiting) = none) :
    ∃ y, Over x e y ∧ x.sweepGoesOn.settleOps = y.settle := by
  obtain ⟨m, k, g, finish⟩ := finishSweep_over (x := x) (by rw [goes]; exact written)
  rw [sweepGoesOn_over sweep quick, finish, goes]
  have rest := (writeFields_written (x.handed e)).rest
  generalize hm : (x.handed e).writeFields = z at *
  obtain ⟨mem, rfl⟩ : ∃ mem, z = (x.handed e).onMem fun _ => mem := ⟨_, rest⟩
  refine ⟨((x.handed e).onMem fun _ => mem).onDesk
    fun d => { d with messages := m, kept := k, gateOpen := g, sweep := none, first := false }, ⟨rfl, rfl, rfl, by rw [hm]; rfl⟩, ?_⟩
  rw [settleOps, nextOp_of_noChoice]
  exact choice

/-- The engine fields and the counters stand in the desk header below the answer map. -/
theorem Over.bytes {y : State} (h : Over x e y) (a : Nat) (far : x.desk.place + 48 ≤ a) :
    Memory.byte Config.hostFill y.mem a = Memory.byte Config.hostFill x.mem a := by
  rw [h.mem]
  exact (writeFields_written (x.handed e)).bytes a far

/-- With nothing to hand over and nothing to choose the executor stands. -/
theorem handOverLong_empty (sweep : x.desk.sweep = some w) (long : w.long = []) (choice : NoChoice x) :
    x.handOverLong = x.handed x.exec := by
  rw [handOverLong_eq sweep, long]
  exact nextOp_of_noChoice choice

theorem takeSuspension_congr (exec : t.exec = s.exec) : t.takeSuspension.exec = s.takeSuspension.exec := by
  unfold takeSuspension
  rw [exec]
  cases s.exec.running with
  | none => exact exec
  | some r =>
    cases s.exec.preempt with
    | none => exact exec
    | some a =>
      dsimp only
      cases s.exec.waiting.find? fun o => o.adm == a <;> simp [onExec, exec]

theorem suspendAtOnce_congr (exec : t.exec = s.exec) : t.suspendAtOnce.exec = s.suspendAtOnce.exec := by
  unfold suspendAtOnce
  rw [exec]
  cases s.exec.running with
  | none => exact exec
  | some r =>
    dsimp only
    split
    · exact takeSuspension_congr exec
    · exact exec

/-- A hand-over depends on the executor alone. -/
theorem handOver_congr (exec : t.exec = s.exec) (o : Op) : (t.handOver o).exec = (s.handOver o).exec := by
  have preempts : t.preempts o = s.preempts o := by simp [State.preempts, exec]
  have joined : (t.onExec fun e => { e with waiting := e.waiting ++ [o] }).exec =
      (s.onExec fun e => { e with waiting := e.waiting ++ [o] }).exec := by simp [onExec, exec]
  unfold handOver
  dsimp only
  rw [preempts]
  split
  · exact suspendAtOnce_congr (by simp [onExec, exec])
  · exact joined

theorem onSweep_exec (f : Sweep → Sweep) (s : State) : (s.onSweep f).exec = s.exec := rfl

/-- One long slip is handed over to an executor whose operation runs (R190, R191). -/
theorem handOverLong_one (sweep : x.desk.sweep = some w) (long : w.long = [o]) (runs : x.exec.running.isSome = true) :
    x.handOverLong = x.handed (x.handOver o).exec := by
  have cleared : (x.onSweep fun y => { y with long := [] }).exec.running.isSome = true := runs
  rw [handOverLong_eq sweep, long]
  change ((x.onSweep fun y => { y with long := [] }).handOver o).nextOp = _
  rw [nextOp_of_running (handOver_isSome cleared o), handOver_exec,
    handOver_congr (t := x.onSweep fun y => { y with long := [] }) (s := x) rfl o]
  rfl

/-- One long slip runs at once on an idle executor (R190). -/
theorem handOverLong_idle (sweep : x.desk.sweep = some w) (long : w.long = [o]) (idle : x.exec.running = none)
    (clear : x.exec.suspended = [] ∧ x.exec.waiting = []) (later : GoesOnLater o) (on : x.engine ≠ .recovering) :
    x.handOverLong = x.handed { x.exec with running := some o } := by
  obtain ⟨suspended, waiting⟩ := clear
  have exec : x.exec = { running := none, suspended := [], waiting := [], preempt := x.exec.preempt } := by
    cases h : x.exec
    simp_all
  generalize x.exec.preempt = p at exec
  have joined : handOverAll [o] (x.onSweep fun y => { y with long := [] }) =
      x.handed { running := none, suspended := [], waiting := [o], preempt := p } := by
    rw [handOverAll_exec, handOverAll_idle (s := x.onSweep fun y => { y with long := [] }) idle, onSweep_exec, exec]
    rfl
  rw [handOverLong_eq sweep, long, joined, exec, nextOp_of_goesOn (s := x.handed _) rfl on fun q hq => by
    rw [List.mem_singleton.mp hq]
    exact later]
  show (x.handed _).makeRunning o = _
  simp [makeRunning, handed, onExec]

end Sys2Proof.Machine.State
end


section
/-! SUPPORT. The sweep of a desk with one slip to deal with (R186, R187): the engine at its turn, and the sweep's end, for O15 and
O24. -/

namespace Sys2Proof.Machine.State

open Sys2Proof.Claims

variable {s t u v x : State} {i j : SlipNo} {e : Exec} {m : Byte}

/-! ## A slip's turn, by what is held and by its mark -/

section turn

variable (read : s.readFails (s.slipAt i) 1 = false) (mark : s.markOf i = m) (first : Bool)
include read mark

theorem dealSlip_posted (held : bget s.desk.held i = .notHeld) (posted : m = markPosted) :
    s.dealSlip first i = (s.clearEntry i m).admitSlip i := by
  subst mark
  simp [dealSlip, read, held, posted]

theorem dealSlip_withdrawn (held : bget s.desk.held i = .withdrawn) : s.dealSlip first i = s.clearEntry i m := by
  subst mark
  simp [dealSlip, read, held]

theorem dealSlip_reread (held : bget s.desk.held i = .held) (taken : m = markTaken) :
    s.dealSlip first i = (s.clearEntry i m).rereadSlip i := by
  subst mark
  simp [dealSlip, read, held, taken]

theorem dealSlip_withdraws (held : bget s.desk.held i = .held) (other : m ≠ markTaken) :
    s.dealSlip first i = ((s.clearEntry i m).setHeld i .withdrawn).withdraw i := by
  subst mark
  simp [dealSlip, read, held, other]

end turn

/-! ## The end of the sweep, with what follows of itself -/

/-- What the end of the sweep leaves of the engine `x` at the end of the marks. -/
structure Swept (x : State) (e : Exec) (t : State) : Prop where
  desk : t.desk = { x.desk.withNotes t.desk with sweep := none, first := false }
  exec : t.exec = e
  recon : t.recon = x.recon
  ret : t.ret = x.ret
  segments : SegmentsStand x t
  marks : ∀ i, t.markOf i = x.markOf i
  apart : ∀ c, c ∉ x.feed.stalled → Apart c x t
  feed : NoneResumes x → t.feed = x.feed
  bytes : NoneResumes x → ∀ a, x.desk.place + 48 ≤ a →
    Memory.byte Config.hostFill t.mem a = Memory.byte Config.hostFill x.mem a
  counters : NoneResumes x → ∀ k : Counter, k ≠ .findings → bget t.desk.counters k.index = bget x.desk.counters k.index

theorem settle_stand (s : State) : SlipsStand s s.settle :=
  ((resumeStalled_stand s).trans (.of_quiet (runCoder_quiet _))).trans (.of_quiet (pump_quiet _))

theorem Over.swept {y : State} (h : Over x e y) : Swept x e y.settle := by
  have same {α : Type} (F : State → α) (hF : ∀ d k r, F { x with desk := d, mem := k, exec := r } = F x) : F y = F x := by
    rw [h.rest]
    exact hF _ _ _
  have stand := settle_stand y
  have place : y.desk.place = x.desk.place := by rw [h.desk]; rfl
  have feed : y.feed = x.feed := same State.feed fun _ _ _ => rfl
  have pool : y.pool = x.pool := same State.pool fun _ _ _ => rfl
  have quiet (none : NoneResumes x) : Quiet y y.settle := settle_quiet (by unfold NoneResumes; rw [feed, pool]; exact none)
  exact
    { desk := by rw [settle_notes, h.desk]; rfl
      exec := (settle_exec y).trans (congrArg State.exec h.rest)
      recon := (settle_does (same_recon.mono rfl) rfl : _ = y.recon).trans (same State.recon fun _ _ _ => rfl)
      ret := (settle_does (same_ret.mono rfl) rfl : _ = y.ret).trans (same State.ret fun _ _ _ => rfl)
      segments := SegmentsStand.trans ⟨same State.engine fun _ _ _ => rfl, same (fun s => s.cat.usable) fun _ _ _ => rfl,
        same (fun s => s.cat.table) fun _ _ _ => rfl, fun l => same (fun s => s.isOnline l) fun _ _ _ => rfl⟩ (settle_segments y)
      marks := fun i => (stand.marks i).trans (by
        rw [markOf, markOf, slipAt, slipAt, place]
        exact h.bytes _ (by omega))
      apart := fun c off => (Apart.of_same (same State.engine fun _ _ _ => rfl) (same State.recon fun _ _ _ => rfl) pool
        (same State.jnl fun _ _ _ => rfl) feed).trans (settle_apart (by rw [feed]; exact off))
      feed := fun none => (quiet none).feed.trans feed
      bytes := fun none a ha => ((quiet none).outside a (.inr (by rw [place]; exact ha))).trans (h.bytes a ha)
      counters := fun none k hk => by rw [(quiet none).counters k hk, h.counters] }

/-- Without a long or a quick slip the sweep is over, and the executor stands. -/
theorem swept_empty (sweep : x.desk.sweep = some { quick := [], long := [] }) (written : x.desk.baseWritten = false)
    (choice : NoChoice x) : Swept x x.exec x.sweepGoesOn.settleOps := by
  obtain ⟨y, ends, eq⟩ := over_of_handed sweep rfl written (handOverLong_empty sweep rfl choice) choice
  rw [eq]
  exact ends.swept

/-! ## The engine at the turn of slip i -/

/-- The engine `w` at the turn of slip i, whose mark is m: the header has been taken, and the slip's map entry cleared where it does
not stand. -/
structure AtTurn (bus : Bus) (i : SlipNo) (s w : State) : Prop where
  desk : w.desk = { s.desk with asked := false, threshold := min (field ((at_ bus s).hostBytes s.desk.place 8) 0 1) 3,
                                enable := ((at_ bus s).hostBytes s.desk.place 8).getD 1 0,
                                sweep := some { quick := [], long := [] }, map := w.desk.map }
  map : bget w.desk.map i = if byteAt (at_ bus s) (s.slipAt i) = markAnswered then
    (if s.desk.first then byteAt (at_ bus s) (s.answerAt i) else bget s.desk.map i) else 0
  others : ∀ j, j ≠ i → bget w.desk.map j = 0
  bytes : ∀ a, s.desk.place + 128 ≤ a → byteAt w a = byteAt (at_ bus s) a
  wf : Memory.wf Config.hostFill w.mem = true
  engine : w.engine = s.engine
  exec : w.exec = s.exec
  feed : w.feed = s.feed
  pool : w.pool = s.pool
  recon : w.recon = s.recon
  ret : w.ret = s.ret
  jnl : w.jnl = s.jnl
  segments : SegmentsStand s w
  lone : Lone i w

/-- The engine at the turn of slip i. -/
def turnOf (bus : Bus) (i : SlipNo) (s : State) : State := (at_ bus s).atMarks.clearEntry i (byteAt (at_ bus s) (s.slipAt i))

/-- The engine after it. -/
def dealt (bus : Bus) (i : SlipNo) (s : State) : State := (at_ bus s).atMarks.dealSlip s.desk.first i

section one

variable {bus : Bus} (one : OneSlip bus i s)
include one

theorem oneSlip_lone : Lone i (at_ bus s) := by
  obtain ⟨_, _, fits, reads, _, _, _, others⟩ := one
  exact ⟨fits, reads, others⟩

theorem oneSlip_acts : s.engine ≠ .recovering := by
  have ready := one.2.1
  unfold sweepReady at ready
  simp only [Bool.and_eq_true, bne_iff_ne] at ready
  exact ready.2

theorem atMarks_oneSlip : AtMarks ((at_ bus s).hostBytes s.desk.place 8) (at_ bus s) (at_ bus s).atMarks :=
  atMarks_atMarks fun j => (oneSlip_lone one).reads j (o := 88) (by decide)

theorem turnOf_atTurn : AtTurn bus i s (turnOf bus i s) := by
  have lone := oneSlip_lone one
  have marks := atMarks_oneSlip one
  have written := clearEntry_written i (byteAt (at_ bus s) (s.slipAt i)) (at_ bus s).atMarks
  have spared := clearEntry_spared (i := i) (byteAt (at_ bus s) (s.slipAt i)) (at_ bus s).atMarks
  have map := clearEntry_map i (byteAt (at_ bus s) (s.slipAt i)) (at_ bus s).atMarks
  have seen : SegmentsStand s (at_ bus s) := ⟨rfl, rfl, rfl, fun _ => rfl⟩
  have loneV := marks.lone lone
  have wf : Memory.wf Config.hostFill (at_ bus s).mem = true := wf_onBus bus one.2.2.2.2.1
  have entry : (at_ bus s).mapEntry i =
      if byteAt (at_ bus s) (s.slipAt i) = markAnswered then byteAt (at_ bus s) (s.answerAt i) else 0 := by
    have read := lone.reads i (o := 0) (n := 1) (by decide)
    have area : (at_ bus s).readFails ((at_ bus s).answerAt i) 1 = false := lone.reads i (o := 88) (by decide)
    rw [mapEntry, show (at_ bus s).readFails ((at_ bus s).slipAt i) 1 = false from read, byteOrFree_of_reads area]
    simp only [Bool.not_false, Bool.true_and, beq_iff_eq]
    rfl
  show AtTurn bus i s ((at_ bus s).atMarks.clearEntry i _)
  generalize (at_ bus s).atMarks = v at *
  generalize v.clearEntry i _ = w at *
  have same {α : Type} (F : State → α) (hF : ∀ d k, F { v with desk := d, mem := k } = F v) : F w = F v := by
    rw [written.rest]
    exact hF _ _
  exact
    { desk := by rw [written.desk, marks.desk]; rfl
      map := by
        rw [map, marks.map, entry]
        split
        · rfl
        · rfl
      others := fun j ne => by
        rw [spared.map j ne]
        exact (loneV.2.2 j ne).2.1
      bytes := fun a ha => (written.bytes a (by rw [marks.place]; exact ha)).trans (marks.bytes a ha)
      wf := written.wf (marks.wf wf)
      engine := (same State.engine fun _ _ => rfl).trans marks.engine
      exec := (same State.exec fun _ _ => rfl).trans marks.exec
      feed := (same State.feed fun _ _ => rfl).trans marks.feed
      pool := (same State.pool fun _ _ => rfl).trans marks.pool
      recon := (same State.recon fun _ _ => rfl).trans marks.recon
      ret := (same State.ret fun _ _ => rfl).trans marks.ret
      jnl := (same State.jnl fun _ _ => rfl).trans marks.jnl
      segments := (seen.trans marks.segments).trans
        ⟨same State.engine fun _ _ => rfl, same (fun s => s.cat.usable) fun _ _ => rfl, same (fun s => s.cat.table) fun _ _ => rfl,
          fun l => same (fun s => s.isOnline l) fun _ _ => rfl⟩
      lone := loneV.spared spared }

/-- The read and the mark that a slip's turn goes by. -/
theorem turn_reads : (at_ bus s).atMarks.readFails ((at_ bus s).atMarks.slipAt i) 1 = false :=
  ((atMarks_oneSlip one).lone (oneSlip_lone one)).reads i (o := 0) (by decide)

theorem turn_mark : (at_ bus s).atMarks.markOf i = byteAt (at_ bus s) (s.slipAt i) := (atMarks_oneSlip one).markOf i

theorem turn_held : bget (at_ bus s).atMarks.desk.held i = bget s.desk.held i := by rw [(atMarks_oneSlip one).held]; rfl

/-- The sweep: slip i has its turn, some of the others have theirs, and the sweep goes on. -/
theorem exec_sweep_turn : ∃ rest : List SlipNo, i ∉ rest ∧ rest.Nodup ∧ Machine.exec (.sweep bus) s =
    .next (rest.foldl (fun t j => t.dealSlip s.desk.first j) (dealt bus i s)).sweepGoesOn.settleOps := by
  have lone := oneSlip_lone one
  obtain ⟨rest, off, nodup, turn⟩ := ((atMarks_oneSlip one).lone lone).turn s.desk.first
  refine ⟨rest, off, nodup, ?_⟩
  have read : (at_ bus s).readFails s.desk.place 8 = false := by
    obtain ⟨fits, none, _⟩ := lone
    unfold DeskFits at fits
    simp only [readFails, none, List.any_nil, Bool.or_false]
    refine decide_eq_false ?_
    have : (at_ bus s).desk.place = s.desk.place := rfl
    omega
  have begun := beginSweep_turns (u := at_ bus s) one.2.1 read
  have on := s.commandedOn_on bus (fun t => t.beginSweep.settleOps) one.1 (oneSlip_acts one)
  have eq : Machine.exec (.sweep bus) s = .next (s.commandedOn bus fun t => t.beginSweep.settleOps) := rfl
  have same : s.onBus bus = at_ bus s := rfl
  rw [eq, on, same, begun]
  show _ = (.next (List.foldl _ ((at_ bus s).atMarks.dealSlip s.desk.first i) rest).sweepGoesOn.settleOps : Host.Outcome _ _ _)
  rw [← turn]
  rfl

end one

end Sys2Proof.Machine.State
end


section
/-! SUPPORT. A sweep that passes over slip i, or lets it end nothing (R46, R186, R187), for O15 and O24. -/

namespace Sys2Proof.Machine.State

open Sys2Proof.Claims

variable {s t x : State} {i : SlipNo} {c : ChanNo} {f : File} {bus : Bus} {rest : List SlipNo}

/-- The engine after the sweep in which, after slip i, some other slips have their turns. -/
def afterSweep (bus : Bus) (i : SlipNo) (s : State) (rest : List SlipNo) : State :=
  (rest.foldl (fun t j => t.dealSlip s.desk.first j) (dealt bus i s)).sweepGoesOn.settleOps

namespace AtTurn

variable {w : State} (h : AtTurn bus i s w)
include h

theorem place : w.desk.place = s.desk.place := by rw [h.desk]
theorem held : w.desk.held = s.desk.held := by rw [h.desk]
theorem list : w.desk.list = s.desk.list := by rw [h.desk]
theorem sweep : w.desk.sweep = some { quick := [], long := [] } := by rw [h.desk]
theorem slipAt (j : SlipNo) : w.slipAt j = s.slipAt j := by rw [State.slipAt, State.slipAt, h.place]

theorem noneResumes (none : NoneResumes s) : NoneResumes w := by
  unfold NoneResumes
  rw [h.feed, h.pool]
  exact none

theorem chan (c : ChanNo) : w.chan c = s.chan c := chan_congr h.feed c

theorem chanOfSlip (j : SlipNo) : w.chanOfSlip j = s.chanOfSlip j := by
  unfold State.chanOfSlip
  simp only [h.chan]

theorem byte (j : SlipNo) {o : Nat} : byteAt w (s.slipAt j + o) = byteAt (at_ bus s) (s.slipAt j + o) :=
  h.bytes _ (by rw [State.slipAt]; omega)

theorem markOf (j : SlipNo) : w.markOf j = byteAt (at_ bus s) (s.slipAt j) := by
  rw [State.markOf, h.slipAt]
  exact h.byte j (o := 0)

end AtTurn

section one

variable (one : OneSlip bus i s) (off : i ∉ rest)
include one

theorem oneSlip_noChoice : NoChoice s := one.2.2.2.2.2.1.2
theorem oneSlip_written : s.desk.baseWritten = false := one.2.2.2.2.2.1.1
theorem oneSlip_noneResumes : NoneResumes s := one.2.2.2.2.2.2.1

/-- The fields of the sweep, whatever it has found (R186). -/
theorem afterSweep_fields : (afterSweep bus i s rest).desk.asked = false ∧
    (afterSweep bus i s rest).desk.first = (s.desk.first && (afterSweep bus i s rest).desk.sweep.isSome) := by
  have marks := (atMarks_oneSlip one).desk
  have dealing := (dealSlip_dealing s.desk.first i (at_ bus s).atMarks).trans (dealSlips_dealing s.desk.first rest (dealt bus i s))
  obtain ⟨asked, first⟩ := sweepGoesOn_first
    (x := rest.foldl (fun t j => t.dealSlip s.desk.first j) (dealt bus i s))
    (by rw [dealing.on, marks]; rfl) (by rw [dealing.written, marks]; exact (oneSlip_written one : s.desk.baseWritten = false))
  refine ⟨asked.trans (by rw [dealing.asked, marks]), ?_⟩
  have same : (rest.foldl (fun t j => t.dealSlip s.desk.first j) (dealt bus i s)).desk.first = s.desk.first := by
    rw [dealing.first, marks]
    rfl
  rw [same] at first
  exact first

/-- So is one whose withdrawal was noted before (R192). -/
theorem passed_of_withdrawn (held : bget s.desk.held i = .withdrawn) : dealt bus i s = turnOf bus i s :=
  dealSlip_withdrawn (turn_reads one) (turn_mark one) _ ((turn_held one).trans held)

theorem turn_priority : (turnOf bus i s).priorityOf i = min (byteAt (at_ bus s) (s.slipAt i + 2)).toNat 3 := by
  have turn := turnOf_atTurn one
  rw [priorityOf, byteOrFree_of_reads (turn.lone.reads i (by decide)), turn.slipAt]
  exact congrArg (fun b : Byte => min b.toNat 3) (turn.byte i)

/-- And one that the threshold keeps out (R188). -/
theorem passed_of_threshold (held : bget s.desk.held i = .notHeld) (posted : byteAt (at_ bus s) (s.slipAt i) = markPosted)
    (out : ¬ (min (field ((at_ bus s).hostBytes s.desk.place 8) 0 1) 3 = 0 ∨
      min (byteAt (at_ bus s) (s.slipAt i + 2)).toNat 3 < min (field ((at_ bus s).hostBytes s.desk.place 8) 0 1) 3)) :
    dealt bus i s = turnOf bus i s := by
  have turn := turnOf_atTurn one
  have threshold : (turnOf bus i s).desk.threshold = min (field ((at_ bus s).hostBytes s.desk.place 8) 0 1) 3 := by rw [turn.desk]
  have eq : dealt bus i s = (turnOf bus i s).admitSlip i :=
    dealSlip_posted (turn_reads one) (turn_mark one) _ ((turn_held one).trans held) posted
  rw [eq]
  unfold admitSlip
  rw [threshold, turn_priority one, if_pos]
  omega

include off

/-- A turn of slip i that spares the others is the only one. -/
theorem afterSweep_spared (eq : dealt bus i s = x) (spared : Spared i (turnOf bus i s) x) :
    afterSweep bus i s rest = x.sweepGoesOn.settleOps := by
  have lone : Lone i x := (turnOf_atTurn one).lone.spared spared
  unfold afterSweep
  rw [eq, lone.passes s.desk.first rest off]

/-- Where the turn leaves the executor nothing to choose the sweep is over with it. -/
theorem afterSweep_ends (eq : dealt bus i s = x) (spared : Spared i (turnOf bus i s) x)
    (sweep : x.desk.sweep = (turnOf bus i s).desk.sweep) (written : x.desk.baseWritten = (turnOf bus i s).desk.baseWritten)
    (choice : NoChoice x) : Swept x x.exec (afterSweep bus i s rest) := by
  have turn := turnOf_atTurn one
  rw [afterSweep_spared one off eq spared]
  exact swept_empty (sweep.trans turn.sweep) (by rw [written, turn.desk]; exact oneSlip_written one) choice

/-- A turn that touches slip i and the notice fields alone, and not the executor. -/
theorem afterSweep_beside (eq : dealt bus i s = x) (beside : Beside i (turnOf bus i s) x) (exec : x.exec = s.exec) :
    Swept x s.exec (afterSweep bus i s rest) ∧ (afterSweep bus i s rest).desk.list = s.desk.list ∧
      (afterSweep bus i s rest).desk.sweep = none := by
  have swept := afterSweep_ends one off eq beside.toSpared (by rw [beside.desk]; rfl) (by rw [beside.desk]; rfl)
    (by unfold NoChoice pick; rw [exec]; exact oneSlip_noChoice one)
  rw [exec] at swept
  refine ⟨swept, ?_, by rw [swept.desk]⟩
  rw [swept.desk]
  show x.desk.list = _
  rw [beside.desk]
  exact (turnOf_atTurn one).list

/-! ## A slip that is passed over -/

/-- A sweep that only clears the slip's map entry, where it clears it. -/
theorem afterSweep_passed (eq : dealt bus i s = turnOf bus i s) :
    let t := afterSweep bus i s rest
    byteAt t (s.slipAt i) = byteAt (at_ bus s) (s.slipAt i) ∧ bget t.desk.held i = bget s.desk.held i ∧ t.desk.list = s.desk.list ∧
      t.exec = s.exec ∧ t.desk.sweep = none ∧ t.feed = s.feed ∧ t.desk.nextAdm = s.desk.nextAdm ∧
      bget t.desk.map i = if byteAt (at_ bus s) (s.slipAt i) = markAnswered then
        (if s.desk.first then byteAt (at_ bus s) (s.answerAt i) else bget s.desk.map i) else 0 := by
  have turn := turnOf_atTurn one
  obtain ⟨swept, list, ended⟩ := afterSweep_beside one off eq (.refl i _) turn.exec
  have none := turn.noneResumes (oneSlip_noneResumes one)
  refine ⟨?_, ?_, list, swept.exec, ended, (swept.feed none).trans turn.feed, ?_, ?_⟩
  · exact (swept.bytes none _ (by rw [turn.place, slipAt]; omega)).trans (turn.byte i (o := 0))
  · rw [swept.desk]
    show bget (turnOf bus i s).desk.held i = _
    rw [turn.held]
  · rw [swept.desk]
    show (turnOf bus i s).desk.nextAdm = _
    rw [turn.desk]
  · rw [swept.desk]
    exact turn.map

end one

end Sys2Proof.Machine.State
end


section
/-! SUPPORT. A sweep that reads the marks of an INGEST slip's ring again (R45, R46, R47), for O15. -/

namespace Sys2Proof.Machine

/-! ## The marks -/

/-- The ring faults (R47). -/
theorem marksFault_iff (ch : Channel) (r : RingMarks) : marksFault ch r = true ↔
    r.filled < ch.filledSeen ∨ ch.drained + ch.ringSize < r.filled ∨
    (r.final = true ∧ (r.total < ch.filledSeen ∨ r.total < r.filled)) ∨
    ∃ m, ch.finalTotal = some m ∧ (r.final = false ∨ r.total ≠ m) := by
  unfold marksFault
  cases ch.finalTotal <;> simp [or_assoc]

section marks

variable {ch : Channel} {r : RingMarks} (sound : marksFault ch r = false)
include sound

/-- Marks that are no ring fault and come without a final flag (R46). -/
theorem takeMarks_of_not_final (final : r.final = false) : ch.takeMarks r = { ch with filledSeen := r.filled } := by
  have none : ch.finalTotal = none := by
    cases total : ch.finalTotal with
    | none => rfl
    | some m =>
      have fault := (marksFault_iff ch r).mpr (.inr (.inr (.inr ⟨m, total, .inl final⟩)))
      rw [sound] at fault
      cases fault
  simp [Channel.takeMarks, final, none]

/-- Marks that are no ring fault and come with the final flag. -/
theorem takeMarks_of_final (final : r.final = true) :
    ch.takeMarks r = { ch with filledSeen := r.filled, finalTotal := some r.total } := by
  have total : ch.finalTotal = none ∨ ch.finalTotal = some r.total := by
    cases total : ch.finalTotal with
    | none => exact .inl rfl
    | some m =>
      refine .inr (congrArg some ?_)
      by_contra ne
      have fault := (marksFault_iff ch r).mpr (.inr (.inr (.inr ⟨m, total, .inr fun e => ne e.symm⟩)))
      rw [sound] at fault
      cases fault
  rcases total with none | some
  · simp [Channel.takeMarks, final, none]
  · simp [Channel.takeMarks, some]

end marks

namespace State

open Sys2Proof.Claims

variable {s t x y : State} {i : SlipNo} {c : ChanNo} {f : File} {bus : Bus} {rest : List SlipNo} {st : Status} {vs : List Byte}

/-! ## Marks that are taken and end nothing -/

/-- The end test of a channel that does not end (R58). -/
theorem testEnd_of_not {m : Nat} (file : (s.chan c).file = some f) (total : (s.chan c).finalTotal = some m)
    (not : ¬ ((s.chan c).state = .running ∧ (s.chan c).closing = .none ∧ f.commitDue = false ∧ s.waits (.chan c) = false ∧
      m < (s.chan c).drained + 64)) : s.testEnd c = s := by
  unfold testEnd
  simp only [file, total]
  exact if_neg not

section goes

variable {r : RingMarks} (sound : marksFault (s.chan c) r = false)
include sound

theorem applyMarks_not_final (final : r.final = false) : s.applyMarks c r = s.onChan c (Channel.takeMarks r) := by
  refine applyMarks_no_total sound ?_
  cases total : (s.chan c).finalTotal with
  | none => simp [Channel.takeMarks, final, total]
  | some m =>
    have fault := (marksFault_iff _ r).mpr (.inr (.inr (.inr ⟨m, total, .inl final⟩)))
    rw [sound] at fault
    cases fault

section final

variable (final : r.final = true)
include final

theorem applyMarks_runs_on (file : (s.chan c).file = some f)
    (not : ¬ ((s.chan c).state = .running ∧ (s.chan c).closing = .none ∧ f.commitDue = false ∧ s.waits (.chan c) = false ∧
      r.total < (s.chan c).drained + 64)) : s.applyMarks c r = s.onChan c (Channel.takeMarks r) := by
  have chan : (s.onChan c (Channel.takeMarks r)).chan c =
      { s.chan c with filledSeen := r.filled, finalTotal := some r.total } := by
    rw [onChan_chan_self, takeMarks_of_final sound final]
  rw [applyMarks_total sound (n := r.total) (by rw [takeMarks_of_final sound final]) fun none => by rw [file] at none; cases none]
  exact testEnd_of_not (by rw [chan]; exact file) (by rw [chan]) (by rw [chan]; exact not)

end final

end goes

/-! ## The marks read again -/

namespace AtTurn

variable {w : State} (h : AtTurn bus i s w)
include h

theorem params : w.hostBytes (w.paramsAt i) 56 = (at_ bus s).hostBytes (s.paramsAt i) 56 := by
  rw [paramsAt, h.slipAt]
  exact bytes_congr _ _ fun a lo _ => h.bytes a (by rw [State.slipAt] at lo; omega)

theorem keepsAnswer (held : bget s.desk.held i = .held) (taken : byteAt (at_ bus s) (s.slipAt i) = markTaken) :
    w.dropsAnswer i = false := by
  unfold dropsAnswer
  rw [h.held, held, h.markOf, taken]
  have : (Holding.held == Holding.withdrawn) = false := by decide
  simp [this]

/-- The marks of an open channel are read again (R46). -/
theorem reread (bound : s.chanOfSlip i = some c) (state : (s.chan c).state ≠ .ending) (closing : (s.chan c).closing = .none) :
    w.rereadSlip i = w.applyMarks c (readMarks ((at_ bus s).hostBytes (s.paramsAt i) 56)) := by
  have reads (o n : Nat) (le : o + n ≤ 96) : w.readFails (w.paramsAt i + o) n = false := by
    rw [paramsAt, Nat.add_assoc]
    exact h.lone.reads i (by omega)
  unfold rereadSlip
  rw [h.chanOfSlip, bound]
  dsimp only
  rw [h.chan, if_neg state]
  unfold rereadMarks
  rw [h.chan, if_neg (by simp [closing]), if_neg (by simp [reads]), h.params]

end AtTurn

section one

variable (one : OneSlip bus i s) (off : i ∉ rest) (held : bget s.desk.held i = .held)
  (taken : byteAt (at_ bus s) (s.slipAt i) = markTaken)
include one held taken

theorem dealt_reread : dealt bus i s = (turnOf bus i s).rereadSlip i :=
  dealSlip_reread (turn_reads one) (turn_mark one) _ ((turn_held one).trans held) taken

include off

theorem afterSweep_reread : Swept ((turnOf bus i s).rereadSlip i) s.exec (afterSweep bus i s rest) ∧
    (afterSweep bus i s rest).desk.list = s.desk.list :=
  have exec : ((turnOf bus i s).rereadSlip i).exec = s.exec :=
    (rereadSlip_does (same_exec.mono rfl) i rfl : _ = (turnOf bus i s).exec).trans (turnOf_atTurn one).exec
  have ⟨swept, list, _⟩ := afterSweep_beside one off (dealt_reread one held taken) (rereadSlip_beside i _) exec
  ⟨swept, list⟩

section open_

variable {r : RingMarks} (bound : s.chanOfSlip i = some c) (state : (s.chan c).state ≠ .ending) (closing : (s.chan c).closing = .none)
  (marks : readMarks ((at_ bus s).hostBytes (s.paramsAt i) 56) = r)
include bound state closing marks

/-- The sweep, by the engine that the marks leave, where they free no page. -/
theorem reread_stays (eq : (turnOf bus i s).applyMarks c r = x)
    (pool : x.pool = s.pool) (stalled : x.feed.stalled = s.feed.stalled) :
    (afterSweep bus i s rest).feed = x.feed ∧ (afterSweep bus i s rest).desk.held = x.desk.held ∧
      (afterSweep bus i s rest).desk.map = x.desk.map := by
  obtain ⟨swept, _⟩ := afterSweep_reread one off held taken
  rw [(turnOf_atTurn one).reread bound state closing, marks, eq] at swept
  have none : NoneResumes x := by
    unfold NoneResumes
    rw [stalled, pool]
    exact oneSlip_noneResumes one
  refine ⟨swept.feed none, ?_, ?_⟩
  · rw [swept.desk]
    rfl
  · rw [swept.desk]
    rfl

/-- Of the channels the marks change that of slip i alone, and the slip stays held. -/
theorem reread_becomes {ch : Channel} (eq : (turnOf bus i s).applyMarks c r = x) (becomes : Becomes c ch (turnOf bus i s) x)
    (pool : x.pool = (turnOf bus i s).pool) (desk : x.desk = (turnOf bus i s).desk) :
    (afterSweep bus i s rest).chan c = ch ∧ OtherChans c s (afterSweep bus i s rest) ∧
      bget (afterSweep bus i s rest).desk.held i = .held := by
  have turn := turnOf_atTurn one
  obtain ⟨feed, heldT, _⟩ := reread_stays one off held taken bound state closing marks eq (pool.trans turn.pool)
    (becomes.stalled.trans (by rw [turn.feed]))
  refine ⟨(chan_congr feed c).trans becomes.chan, fun d ne => ?_, ?_⟩
  · rw [chan_congr feed, becomes.others d ne, turn.chan]
  · rw [heldT, desk, turn.held, held]

/-- Marks that are no ring fault are taken, and the channel goes on where they do not end it. -/
theorem reread_taken (goes : (turnOf bus i s).applyMarks c r = (turnOf bus i s).onChan c (Channel.takeMarks r)) :
    (afterSweep bus i s rest).chan c = (s.chan c).takeMarks r ∧ OtherChans c s (afterSweep bus i s rest) ∧
      bget (afterSweep bus i s rest).desk.held i = .held := by
  rw [← (turnOf_atTurn one).chan c]
  exact reread_becomes one off held taken bound state closing marks goes (onChan_becomes _) rfl rfl

section final

variable (sound : marksFault (s.chan c) r = false) (final : r.final = true) (file : (s.chan c).file = some f)
include sound final file

/-- With the final flag the end test follows (R58). -/
theorem reread_tested {ch : Channel}
    (becomes : Becomes c ch ((turnOf bus i s).onChan c (Channel.takeMarks r)) (((turnOf bus i s).onChan c (Channel.takeMarks r)).testEnd c)) :
    (afterSweep bus i s rest).chan c = ch ∧ OtherChans c s (afterSweep bus i s rest) ∧
      bget (afterSweep bus i s rest).desk.held i = .held := by
  have chan := (turnOf_atTurn one).chan c
  have total : (((turnOf bus i s).chan c).takeMarks r).finalTotal = some r.total := by rw [chan, takeMarks_of_final sound final]
  have eq := applyMarks_total (by rw [chan]; exact sound) total (by rw [chan, file]; intro c; cases c)
  exact reread_becomes one off held taken bound state closing marks eq ((onChan_becomes _).trans becomes)
    (testEnd_does (same_pool.mono rfl) c rfl) (testEnd_does (same_desk.mono rfl) c rfl)

/-- A final total that leaves fewer than 64 bytes ends a RUNNING channel that owes and waits for nothing. -/
theorem reread_ends (run : (s.chan c).state = .running) (due : f.commitDue = false) (clear : s.waits (.chan c) = false)
    (le : (s.chan c).drained ≤ r.total) (lt : r.total < (s.chan c).drained + 64) :
    (afterSweep bus i s rest).chan c =
      { s.chan c with state := .ending, filledSeen := r.filled, finalTotal := some r.total, drained := r.total,
                      file := some { f with trailing := r.total - (s.chan c).drained } } := by
  have turn := turnOf_atTurn one
  have tested {ch : Channel} := reread_tested (ch := ch) one off held taken bound state closing marks sound final file
  have chan : ((turnOf bus i s).onChan c (Channel.takeMarks r)).chan c =
      { s.chan c with filledSeen := r.filled, finalTotal := some r.total } := by
    rw [onChan_chan_self, turn.chan, takeMarks_of_final sound final]
  have waits : ((turnOf bus i s).onChan c (Channel.takeMarks r)).waits (.chan c) = false := by
    show (turnOf bus i s).waits (.chan c) = false
    rw [State.waits, turn.jnl]
    exact clear
  generalize (turnOf bus i s).onChan c (Channel.takeMarks r) = w at *
  have ends := testEnd_ends (s := w) (c := c) (f := f) (m := r.total) (by rw [chan]; exact file) (by rw [chan])
    (by rw [chan]; exact run) (by rw [chan]; exact closing) due waits (by rw [chan]; exact le) (by rw [chan]; exact lt)
  rw [(tested ends).1, chan]

end final

end open_

end one

end State

end Sys2Proof.Machine
end


section
/-! SUPPORT. The turn of a POSTED slip that the threshold lets in (R188, R190), for O15. -/

namespace Sys2Proof.Machine.State

open Sys2Proof.Claims

variable {s t u x z : State} {i : SlipNo} {bus : Bus} {rest : List SlipNo} {k : Kind} {a : Admitted} {o : Op} {b : OpBody} {e : Exec}

/-! ## What admission reads -/

theorem readFields_congr {a n : Nat} {fs : List (Nat × Nat)}
    (same : ∀ f ∈ fs, t.readOrFree (a + f.1) f.2 = s.readOrFree (a + f.1) f.2) : t.readFields a n fs = s.readFields a n fs := by
  unfold readFields
  refine List.foldl_ext _ _ _ fun bs f hf => ?_
  rw [readField, readField, same f hf]

/-- Admission depends on the engine state, the journal's room, the retention unit, and the operations and quick slips at hand. -/
theorem admissionRefusal_congr (engine : t.engine = s.engine) (jnl : t.jnl = s.jnl) (ret : t.ret = s.ret) (exec : t.exec = s.exec)
    (quick : (t.desk.sweep.map Sweep.quick).getD [] = (s.desk.sweep.map Sweep.quick).getD [])
    (long : (t.desk.sweep.map Sweep.long).getD [] = (s.desk.sweep.map Sweep.long).getD []) (k : Kind) (p : List Byte) :
    t.admissionRefusal k p = s.admissionRefusal k p := by
  have takes : t.takesKind k = s.takesKind k := by rw [takesKind, takesKind, engine]
  have room : t.hasReserve = s.hasReserve := by
    unfold hasReserve State.room windowSize
    rw [jnl]
  have walks (g : Nat) : t.walkPending g = s.walkPending g := by simp only [walkPending, ret]
  have shortens (g : Nat) : t.shorteningAdmitted g = s.shorteningAdmitted g := by rw [shorteningAdmitted, shorteningAdmitted, quick]
  have pass : t.passPending = s.passPending := by rw [passPending, passPending, allOps, allOps, exec, long]
  have day (d : Nat) : t.badNewDay d = s.badNewDay d := by rw [badNewDay, badNewDay, ret]
  unfold admissionRefusal
  simp only [takes, room, walks, shortens, pass, day]

/-! ## The slip TAKEN -/

/-- The engine `z` that has taken slip i in its turn: held, numbered, its mark TAKEN. -/
structure Taken (bus : Bus) (i : SlipNo) (s z : State) : Prop where
  rest : z = { turnOf bus i s with desk := z.desk, mem := z.mem }
  desk : z.desk = { (turnOf bus i s).desk with held := bset (turnOf bus i s).desk.held i .held, nextAdm := s.desk.nextAdm + 1 }
  bytes : ∀ a, a ≠ s.slipAt i → s.desk.place + 128 ≤ a → byteAt z a = byteAt (at_ bus s) a
  mark : byteAt z (s.slipAt i) = markTaken
  wf : Memory.wf Config.hostFill z.mem = true
  spared : Spared i (turnOf bus i s) z

/-- The slip as admission takes it. -/
def admittedOf (bus : Bus) (i : SlipNo) (s : State) (k : Kind) : Admitted :=
  { slip := i, prio := min (byteAt (at_ bus s) (s.slipAt i + 2)).toNat 3, adm := s.desk.nextAdm,
    urgent := flagSet (byteAt (at_ bus s) (s.slipAt i + 3)), kind := k, params := (at_ bus s).readParams k i }

theorem takeSlipMark_eq (i : SlipNo) (s : State) : s.takeSlipMark i =
    { s with desk := { s.desk with held := bset s.desk.held i .held, nextAdm := s.desk.nextAdm + 1 }, mem := (s.setMark i markTaken).mem } := by
  unfold takeSlipMark setMark hostWrite
  split <;> rfl

section one

variable (one : OneSlip bus i s)
include one

theorem takeSlipMark_taken : Taken bus i s ((turnOf bus i s).takeSlipMark i) := by
  have turn := turnOf_atTurn one
  have marked := setMark_spared (i := i) markTaken (turnOf bus i s)
  have fits := turn.lone.1
  unfold DeskFits at fits
  have low : (turnOf bus i s).slipAt i + 1 ≤ 2 ^ 64 := by
    have := i.isLt
    rw [slipAt]
    omega
  have adm : (turnOf bus i s).desk.nextAdm = s.desk.nextAdm := by rw [turn.desk]
  have slip := turn.slipAt i
  have bytes := turn.bytes
  have wf := turn.wf
  generalize hw : turnOf bus i s = w at *
  rw [takeSlipMark_eq]
  refine ⟨by rw [hw], by rw [hw, ← adm], fun a ne far => ?_, ?_, wf_hostWrite _ _ wf, ?_⟩
  · refine Eq.trans (byte_hostWrite_outside _ _ _ _ ?_) (bytes a far)
    rw [slip, List.length_singleton]
    omega
  · rw [← slip]
    exact byte_hostWrite_one _ _ low wf
  · rw [hw]
    refine ⟨rfl, rfl, fun j ne => bget_bset_ne _ _ _ _ ne.symm, fun _ _ => rfl, fun j ne => ?_⟩
    have same := marked.marks j ne
    rw [markOf, slipAt, marked.place] at same
    exact same

namespace Taken

variable (h : Taken bus i s z)
include h

omit one in
theorem same {α : Type} (F : State → α) (hF : ∀ d m, F { turnOf bus i s with desk := d, mem := m } = F (turnOf bus i s)) :
    F z = F (turnOf bus i s) := by
  rw [h.rest]
  exact hF _ _

theorem lone : Lone i z := (turnOf_atTurn one).lone.spared h.spared
theorem place : z.desk.place = s.desk.place := h.spared.place.trans (turnOf_atTurn one).place
theorem slipAt : z.slipAt i = s.slipAt i := by rw [State.slipAt, State.slipAt, h.place one]
theorem exec : z.exec = s.exec := (h.same State.exec fun _ _ => rfl).trans (turnOf_atTurn one).exec
theorem ret : z.ret = s.ret := (h.same State.ret fun _ _ => rfl).trans (turnOf_atTurn one).ret
theorem engine : z.engine = s.engine := (h.same State.engine fun _ _ => rfl).trans (turnOf_atTurn one).engine
theorem feed : z.feed = s.feed := (h.same State.feed fun _ _ => rfl).trans (turnOf_atTurn one).feed
theorem pool : z.pool = s.pool := (h.same State.pool fun _ _ => rfl).trans (turnOf_atTurn one).pool

theorem sweep : z.desk.sweep = some { quick := [], long := [] } := by
  rw [h.desk]
  exact (turnOf_atTurn one).sweep

theorem noneResumes : NoneResumes z := by
  unfold NoneResumes
  rw [h.feed one, h.pool one]
  exact oneSlip_noneResumes one

/-- The bytes of the slip beside its mark are as the host left them. -/
theorem byte {o : Nat} (pos : 0 < o) : z.byteOrFree (z.slipAt i + o) = byteAt (at_ bus s) (s.slipAt i + o) ∨ 128 ≤ o := by
  by_cases le : o + 1 ≤ 128
  · refine .inl ?_
    rw [byteOrFree_of_reads ((h.lone one).reads i le), h.slipAt one]
    exact h.bytes _ (by omega) (by rw [State.slipAt]; omega)
  · exact .inr (by omega)

theorem params (k : Kind) : z.readParams k i = (at_ bus s).readParams k i := by
  have place : z.paramsAt i = s.paramsAt i := by rw [paramsAt, h.slipAt one, ← paramsAt]
  unfold readParams
  rw [place]
  refine readFields_congr fun f hf => ?_
  have within := fields_within k f hf
  have reads : z.readFails (s.paramsAt i + f.1) f.2 = false := by
    rw [← place, paramsAt, Nat.add_assoc]
    exact (h.lone one).reads i (by omega)
  have readsU : (at_ bus s).readFails (s.paramsAt i + f.1) f.2 = false := by
    show (at_ bus s).readFails ((at_ bus s).slipAt i + 32 + f.1) f.2 = false
    rw [Nat.add_assoc]
    exact (oneSlip_lone one).reads i (by omega)
  rw [readOrFree_of_reads reads, readOrFree_of_reads readsU]
  refine bytes_congr _ _ fun a lo _ => ?_
  rw [paramsAt] at lo
  exact h.bytes a (by omega) (by rw [State.slipAt] at lo; omega)

theorem refusal (k : Kind) (p : List Byte) : z.admissionRefusal k p = (at_ bus s).admissionRefusal k p := by
  have ready := one.2.1
  unfold sweepReady at ready
  simp only [Bool.and_eq_true, Option.isNone_iff_eq_none] at ready
  have none : s.desk.sweep = .none := ready.1.1.2
  refine admissionRefusal_congr (h.engine one) ((h.same State.jnl fun _ _ => rfl).trans (turnOf_atTurn one).jnl) (h.ret one)
    (h.exec one) ?_ ?_ k p
  · rw [h.sweep one]
    show _ = (s.desk.sweep.map Sweep.quick).getD []
    rw [none]
    rfl
  · rw [h.sweep one]
    show _ = (s.desk.sweep.map Sweep.long).getD []
    rw [none]
    rfl

theorem keepsAnswer : z.dropsAnswer i = false := by
  have held : bget z.desk.held i = .held := by
    rw [h.desk]
    exact bget_bset_self _ _ _
  have mark : z.markOf i = markTaken := by
    rw [State.markOf, h.slipAt one]
    exact h.mark
  unfold dropsAnswer
  rw [held, mark]
  have : (Holding.held == Holding.withdrawn) = false := by decide
  simp [this]

end Taken

end one

/-! ## The turn -/

section posted

variable (one : OneSlip bus i s) (held : bget s.desk.held i = .notHeld) (posted : byteAt (at_ bus s) (s.slipAt i) = markPosted)
  (enters : min (field ((at_ bus s).hostBytes s.desk.place 8) 0 1) 3 = 0 ∨
    min (byteAt (at_ bus s) (s.slipAt i + 2)).toNat 3 < min (field ((at_ bus s).hostBytes s.desk.place 8) 0 1) 3)
include one held posted enters

/-- The slip is let in: it is the threshold alone that could keep it out. -/
theorem dealt_posted : dealt bus i s = (turnOf bus i s).admitSlip i ∧
    ¬ ((turnOf bus i s).desk.threshold ≠ 0 ∧ (turnOf bus i s).desk.threshold ≤ (turnOf bus i s).priorityOf i) := by
  have threshold : (turnOf bus i s).desk.threshold = min (field ((at_ bus s).hostBytes s.desk.place 8) 0 1) 3 := by
    rw [(turnOf_atTurn one).desk]
  refine ⟨dealSlip_posted (turn_reads one) (turn_mark one) _ ((turn_held one).trans held) posted, ?_⟩
  rw [threshold, turn_priority one]
  omega

/-- A code of no kind is answered UNKNOWN-KIND. -/
theorem dealt_unknown (kind : Kind.ofCode (byteAt (at_ bus s) (s.slipAt i + 1)).toNat = none) :
    dealt bus i s = ((turnOf bus i s).takeSlipMark i).answer (some i) .unknownKind [] := by
  have code := ((takeSlipMark_taken one).byte one (o := 1) (by decide)).resolve_right (by decide)
  obtain ⟨eq, enters⟩ := dealt_posted one held posted enters
  rw [eq, admitSlip, if_neg enters]
  simp only [code, kind]

/-- The slip is taken, and judged by its kind. -/
theorem dealt_judged (kind : Kind.ofCode (byteAt (at_ bus s) (s.slipAt i + 1)).toNat = some k) : dealt bus i s =
    ((turnOf bus i s).takeSlipMark i).judgeSlip i (min (byteAt (at_ bus s) (s.slipAt i + 2)).toNat 3) s.desk.nextAdm k := by
  have code := ((takeSlipMark_taken one).byte one (o := 1) (by decide)).resolve_right (by decide)
  have adm : (turnOf bus i s).desk.nextAdm = s.desk.nextAdm := by rw [(turnOf_atTurn one).desk]
  obtain ⟨eq, enters⟩ := dealt_posted one held posted enters
  rw [eq, admitSlip, if_neg enters, turn_priority one, adm]
  simp only [code, kind]

theorem dealt_refused {st : Status} (kind : Kind.ofCode (byteAt (at_ bus s) (s.slipAt i + 1)).toNat = some k)
    (refused : (at_ bus s).admissionRefusal k ((at_ bus s).readParams k i) = some st) :
    dealt bus i s = ((turnOf bus i s).takeSlipMark i).answer (some i) st [] := by
  have taken := takeSlipMark_taken one
  rw [dealt_judged one held posted enters kind]
  unfold judgeSlip
  dsimp only
  rw [taken.params one, taken.refusal one, refused]

theorem dealt_admitted (kind : Kind.ofCode (byteAt (at_ bus s) (s.slipAt i + 1)).toNat = some k)
    (admitted : (at_ bus s).admissionRefusal k ((at_ bus s).readParams k i) = none) :
    dealt bus i s = ((turnOf bus i s).takeSlipMark i).dispatch (admittedOf bus i s k) := by
  have taken := takeSlipMark_taken one
  have flag := (taken.byte one (o := 3) (by decide)).resolve_right (by decide)
  rw [dealt_judged one held posted enters kind]
  unfold judgeSlip
  dsimp only
  rw [taken.params one, taken.refusal one, admitted, flag]
  rfl

end posted

end Sys2Proof.Machine.State
end


section
/-! SUPPORT. What the sweep makes of a POSTED slip that is let in (R188, R190), for O15. -/

namespace Sys2Proof.Machine.State

open Sys2Proof.Claims

variable {s t u x z : State} {i : SlipNo} {bus : Bus} {rest : List SlipNo} {k : Kind} {a : Admitted} {o : Op} {b : OpBody} {e : Exec}

/-! ## What the end leaves of the slips -/

/-- What is held, mapped, listed and counted, the retention unit, and the bytes of the slips stand. -/
structure Leaves (s t : State) : Prop where
  held : t.desk.held = s.desk.held
  map : t.desk.map = s.desk.map
  list : t.desk.list = s.desk.list
  adm : t.desk.nextAdm = s.desk.nextAdm
  ret : t.ret = s.ret
  bytes : ∀ a, s.desk.place + 48 ≤ a → byteAt t a = byteAt s a

theorem Swept.leaves (h : Swept x e t) (none : NoneResumes x) : Leaves x t := by
  refine ⟨?_, ?_, ?_, ?_, h.ret, h.bytes none⟩ <;> rw [h.desk] <;> rfl

theorem settle_leaves (none : NoneResumes s) : Leaves s s.settle := by
  have notes := settle_notes s
  refine ⟨?_, ?_, ?_, ?_, settle_does (same_ret.mono rfl) rfl, fun a far => (settle_quiet none).outside a (.inr far)⟩
  · rw [notes]; rfl
  · rw [notes]; rfl
  · rw [notes]; rfl
  · rw [notes]; rfl

/-- A slip's admission changes neither the slips nor host memory, and frees no page. -/
structure Admits (s t : State) : Prop where
  desk : t.desk = { s.desk with sweep := t.desk.sweep, list := t.desk.list }
  mem : t.mem = s.mem
  fails : t.fails = s.fails
  exec : t.exec = s.exec
  engine : t.engine = s.engine
  feed : t.feed = s.feed
  pool : t.pool = s.pool

theorem Admits.spared (h : Admits s t) : Spared i s t := by
  refine .of_stand ⟨?_, ?_, ?_, h.fails, fun j => ?_, by rw [h.mem]; exact id⟩
  · rw [h.desk]
  · rw [h.desk]
  · rw [h.desk]
  · rw [markOf, markOf, slipAt, slipAt, h.desk, h.mem]

theorem Admits.noneResumes (h : Admits s t) (none : NoneResumes s) : NoneResumes t := by
  unfold NoneResumes
  rw [h.feed, h.pool]
  exact none

/-! ## The classes of kinds (R188) -/

theorem addFeed_admits (a : Admitted) (s : State) : Admits s (s.addFeed a) := ⟨rfl, rfl, rfl, rfl, rfl, rfl, rfl⟩
theorem addQuick_admits (a : Admitted) (s : State) : Admits s (s.addQuick a) := ⟨rfl, rfl, rfl, rfl, rfl, rfl, rfl⟩
theorem addLong_admits (o : Op) (s : State) : Admits s (s.addLong o) := ⟨rfl, rfl, rfl, rfl, rfl, rfl, rfl⟩
theorem lengthen_admits (f : Retention → Retention) (o : Op) (s : State) : Admits s ((s.onRet f).addLong o) :=
  ⟨rfl, rfl, rfl, rfl, rfl, rfl, rfl⟩

theorem addQuick_sweep (sweep : s.desk.sweep = some { quick := [], long := [] }) (a : Admitted) :
    (s.addQuick a).desk.sweep = some { quick := [a], long := [] } := by
  show s.desk.sweep.map _ = _
  rw [sweep]
  rfl

theorem addLong_sweep (sweep : s.desk.sweep = some { quick := [], long := [] }) (o : Op) :
    (s.addLong o).desk.sweep = some { quick := [], long := [o] } := by
  show s.desk.sweep.map _ = _
  rw [sweep]
  rfl

/-- A group's count lengthened, its mark raised (R143). -/
def lengthened (g : GroupNo) (old new : Nat) (r : Retention) : Retention :=
  { r with groups := bset r.groups g { days := new, walk := some (old, new) } }

/-- What the dispatch of an admitted slip makes of the engine, by the class of its kind (R188). -/
inductive Dispatched (a : Admitted) (z : State) : State → Prop
  | feed : a.kind = .ingest → Dispatched a z (z.addFeed a)
  | quick : a.kind.cls = .quick →
      (a.kind = .retain → ∀ g : GroupNo, field a.params 0 1 = g.val → field a.params 2 2 ≤ (bget z.ret.groups g).days) →
      Dispatched a z (z.addQuick a)
  | long (b : OpBody) : a.kind.body a.params = some b → Dispatched a z (z.addLong (a.op b))
  | walk (g : GroupNo) : a.kind = .retain → field a.params 0 1 = g.val → (bget z.ret.groups g).days < field a.params 2 2 →
      Dispatched a z ((z.onRet (lengthened g (bget z.ret.groups g).days (field a.params 2 2))).addLong (a.op (.walk g 0 0)))

theorem Dispatched.admits (h : Dispatched a z x) : Admits z x := by
  cases h with
  | feed => exact addFeed_admits _ _
  | quick => exact addQuick_admits _ _
  | long => exact addLong_admits _ _
  | walk => exact lengthen_admits _ _ _

theorem group_small (h : u.admissionRefusal .retain a.params = none) : field a.params 0 1 < 4 := by
  unfold admissionRefusal at h
  split at h
  · cases h
  · split at h
    · cases h
    · dsimp only at h
      split at h
      · cases h
      · omega

/-- An admitted slip is dispatched. -/
theorem dispatch_dispatched (h : u.admissionRefusal a.kind a.params = none) : Dispatched a z (z.dispatch a) := by
  by_cases retain : a.kind = .retain
  · have small : field a.params 0 1 < 4 := group_small (retain ▸ h)
    by_cases le : field a.params 2 2 ≤ (bget z.ret.groups ⟨field a.params 0 1, small⟩).days
    · have eq : z.dispatch a = z.addQuick a := by simp [dispatch, retain, admitRetain, small, le]
      rw [eq]
      refine .quick (by rw [retain]; rfl) fun _ g group => ?_
      obtain rfl : ⟨field a.params 0 1, small⟩ = g := Fin.ext group
      exact le
    · refine Eq.mp (congrArg (Dispatched a z) ?_) (.walk ⟨field a.params 0 1, small⟩ retain rfl (Nat.not_le.mp le))
      simp only [dispatch, retain, admitRetain, small, le, dite_true, if_false]
      rfl
  · cases cls : a.kind.cls with
    | feed =>
      have eq : z.dispatch a = z.addFeed a := by
        unfold dispatch
        split
        · exact absurd ‹_› retain
        · rw [cls]
      rw [eq]
      refine .feed ?_
      cases kind : a.kind <;> rw [kind] at cls <;> first | rfl | cases cls
    | quick =>
      have eq : z.dispatch a = z.addQuick a := by
        unfold dispatch
        split
        · exact absurd ‹_› retain
        · rw [cls]
      rw [eq]
      exact .quick cls fun same => absurd same retain
    | long =>
      have long : ∃ b, a.kind.body a.params = some b := by
        revert cls
        cases a.kind <;> intro cls <;> first | exact ⟨_, rfl⟩ | exact absurd cls (by decide)
      obtain ⟨b, body⟩ := long
      have eq : z.dispatch a = z.addLong (a.op b) := by
        unfold dispatch
        split
        · exact absurd ‹_› retain
        · rw [cls]
          dsimp only
          rw [body]
      rw [eq]
      exact .long b body

/-- The kinds with an operation body are the long ones. -/
theorem body_long (h : k.body a.params = some b) : k.cls = .long := by
  unfold Kind.body at h
  split at h <;> first | rfl | cases h

/-- An operation just admitted has no reading, and a VERIFY begins at number 0. -/
theorem op_goesOnLater (h : k.body a.params = some b) : GoesOnLater (a.op b) := by
  have fresh : b.visit = none ∧ ∀ sel cursor n v, b = .verify sel cursor n v → cursor = 0 := by
    unfold Kind.body at h
    split at h <;> cases h <;> refine ⟨rfl, fun sel cursor n v e => ?_⟩ <;> cases e
    rfl
  refine ⟨fresh.1, fun sel cursor n v e => ?_⟩
  rw [fresh.2 sel cursor n v e]
  decide

theorem walk_goesOnLater (a : Admitted) (g : GroupNo) : GoesOnLater (a.op (.walk g 0 0)) := ⟨rfl, fun _ _ _ _ e => by cases e⟩

theorem leastPrio_eq_none {os : List Op} (h : leastPrio os = none) : os = [] := by
  cases os with
  | nil => rfl
  | cons o os =>
    unfold leastPrio at h
    split at h
    · split at h <;> cases h
    · cases h

/-! ## The sweep with the slip let in -/

section one

variable (one : OneSlip bus i s) (off : i ∉ rest)
include one off

/-- A slip that is answered in its turn (R188). -/
theorem posted_answered {st : Status} (eq : dealt bus i s = ((turnOf bus i s).takeSlipMark i).answer (some i) st []) :
    let t := afterSweep bus i s rest
    t.desk.nextAdm = s.desk.nextAdm + 1 ∧ bget t.desk.map i = st.code ∧ byteAt t (s.slipAt i) = markAnswered ∧
      bget t.desk.held i = .notHeld ∧ t.exec = s.exec := by
  have taken := takeSlipMark_taken one
  have lone := taken.lone one
  have exec := taken.exec one
  have slip := taken.slipAt one
  have none := taken.noneResumes one
  have place := taken.place one
  have keeps := taken.keepsAnswer one
  generalize (turnOf bus i s).takeSlipMark i = z at *
  have written : z.answer (some i) st [] = z.writeAnswer i st [] := by simp [answer, keeps]
  rw [written] at eq
  have beside := writeAnswer_beside (i := i) st [] z
  have wrote := writeAnswer_wrote i st [] z
  have execX : (z.writeAnswer i st []).exec = s.exec := (writeAnswer_does (same_exec.mono rfl) i _ _ rfl : _ = z.exec).trans exec
  have feed : (z.writeAnswer i st []).feed = z.feed := writeAnswer_does (same_feed.mono rfl) i _ _ rfl
  have pool : (z.writeAnswer i st []).pool = z.pool := writeAnswer_does (same_pool.mono rfl) i _ _ rfl
  obtain ⟨n, desk⟩ := wrote.desk
  have mark := wrote.mark lone.1 taken.wf
  generalize z.writeAnswer i st [] = x at *
  have swept := afterSweep_ends one off eq (taken.spared.trans beside.toSpared) (by rw [beside.desk, taken.desk]; rfl)
    (by rw [beside.desk, taken.desk]; rfl) (by unfold NoChoice pick; rw [execX]; exact oneSlip_noChoice one)
  have noneX : NoneResumes x := by
    unfold NoneResumes
    rw [feed, pool]
    exact none
  have left := swept.leaves noneX
  refine ⟨?_, ?_, ?_, ?_, swept.exec.trans execX⟩
  · rw [left.adm, desk]
    show z.desk.nextAdm = _
    rw [taken.desk]
  · rw [left.map, desk]
    exact bget_bset_self _ _ _
  · rw [slip] at mark
    exact (left.bytes _ (by rw [beside.place, place, slipAt]; omega)).trans mark
  · rw [left.held, desk]
    exact bget_bset_self _ _ _

omit off in
/-- A slip that is admitted stays TAKEN and held, whatever waits for it. -/
theorem admitted_stays (posted : byteAt (at_ bus s) (s.slipAt i) = markPosted) (admits : Admits ((turnOf bus i s).takeSlipMark i) x)
    (left : Leaves x t) : t.desk.nextAdm = s.desk.nextAdm + 1 ∧ bget t.desk.map i = 0 ∧ byteAt t (s.slipAt i) = markTaken ∧
      bget t.desk.held i = .held := by
  have turn := turnOf_atTurn one
  have taken := takeSlipMark_taken one
  have place := taken.place one
  generalize (turnOf bus i s).takeSlipMark i = z at *
  have placeX : x.desk.place = s.desk.place := by rw [admits.desk, place]
  refine ⟨?_, ?_, ?_, ?_⟩
  · rw [left.adm, admits.desk, taken.desk]
  · rw [left.map, admits.desk, taken.desk, turn.map, posted, if_neg (by decide)]
  · refine (left.bytes _ (by rw [placeX, slipAt]; omega)).trans ?_
    rw [byteAt, admits.mem]
    exact taken.mark
  · rw [left.held, admits.desk, taken.desk]
    exact bget_bset_self _ _ _

/-- A slip that leaves no long operation and no quick slip behind. -/
theorem admitted_feed (eq : dealt bus i s = x) (admits : Admits ((turnOf bus i s).takeSlipMark i) x)
    (sweep : x.desk.sweep = ((turnOf bus i s).takeSlipMark i).desk.sweep) : Leaves x (afterSweep bus i s rest) := by
  have turn := turnOf_atTurn one
  have taken := takeSlipMark_taken one
  have exec := taken.exec one
  have none := taken.noneResumes one
  have sweepZ := taken.sweep one
  generalize (turnOf bus i s).takeSlipMark i = z at *
  have swept := afterSweep_ends one off eq (taken.spared.trans admits.spared) (sweep.trans (sweepZ.trans turn.sweep.symm))
    (by rw [admits.desk, taken.desk]) (by unfold NoChoice pick; rw [admits.exec, exec]; exact oneSlip_noChoice one)
  exact swept.leaves (admits.noneResumes none)

/-- A quick slip waits in the sweep for its command (R189). -/
theorem admitted_quick (eq : dealt bus i s = x) (admits : Admits ((turnOf bus i s).takeSlipMark i) x)
    (sweep : x.desk.sweep = some { quick := [a], long := [] }) :
    Leaves x (afterSweep bus i s rest) ∧ (afterSweep bus i s rest).desk.sweep = some { quick := [a], long := [] } := by
  have taken := takeSlipMark_taken one
  have exec := taken.exec one
  have none := taken.noneResumes one
  generalize (turnOf bus i s).takeSlipMark i = z at *
  have choice : NoChoice x := by
    unfold NoChoice pick
    rw [admits.exec, exec]
    exact oneSlip_noChoice one
  rw [afterSweep_spared one off eq (taken.spared.trans admits.spared), sweepGoesOn_quick sweep (by simp), settleOps,
    nextOp_of_noChoice choice]
  refine ⟨settle_leaves (admits.noneResumes none), ?_⟩
  rw [settle_notes]
  exact sweep

/-- A long operation is handed over to an executor whose operation runs, and runs at once on an idle one (R190). -/
theorem admitted_long (eq : dealt bus i s = x) (admits : Admits ((turnOf bus i s).takeSlipMark i) x)
    (sweep : x.desk.sweep = some { quick := [], long := [o] }) (later : GoesOnLater o) :
    let t := afterSweep bus i s rest
    Leaves x t ∧ t.desk.sweep = none ∧ (s.exec.running.isSome = true → t.exec = (s.handOver o).exec) ∧
      (s.exec.running = none → t.exec = { s.exec with running := some o }) := by
  have turn := turnOf_atTurn one
  have taken := takeSlipMark_taken one
  have exec := taken.exec one
  have engine := taken.engine one
  have none := taken.noneResumes one
  generalize (turnOf bus i s).takeSlipMark i = z at *
  have execX : x.exec = s.exec := admits.exec.trans exec
  have written : x.desk.baseWritten = false := by
    rw [admits.desk, taken.desk, turn.desk]
    exact oneSlip_written one
  have ends (e : Exec) (goes : x.handOverLong = x.handed e)
      (choice : e.running.isSome = true ∨ leastPrio (e.suspended ++ e.waiting) = .none) : Swept x e (afterSweep bus i s rest) := by
    obtain ⟨y, finish, settles⟩ := over_of_handed sweep rfl written goes choice
    rw [afterSweep_spared one off eq (taken.spared.trans admits.spared), settles]
    exact finish.swept
  dsimp only
  cases running : s.exec.running with
  | some r =>
    have runs : x.exec.running.isSome = true := by rw [execX, running]; rfl
    have swept := ends _ (handOverLong_one sweep rfl runs) (.inl (handOver_isSome runs o))
    refine ⟨swept.leaves (admits.noneResumes none), ?_, fun _ => ?_, fun idle => (nomatch idle)⟩
    · rw [swept.desk]
    · rw [swept.exec, handOver_congr execX]
  | none =>
    have picks : s.pick = .none := (oneSlip_noChoice one).resolve_left (by rw [running]; decide)
    obtain ⟨suspended, waiting⟩ := List.append_eq_nil_iff.mp (leastPrio_eq_none picks)
    have swept := ends _ (handOverLong_idle sweep rfl (by rw [execX]; exact running) (by rw [execX]; exact ⟨suspended, waiting⟩) later
      (by rw [admits.engine, engine]; exact oneSlip_acts one)) (.inl rfl)
    refine ⟨swept.leaves (admits.noneResumes none), ?_, fun runs => (nomatch runs), fun _ => ?_⟩
    · rw [swept.desk]
    · rw [swept.exec, execX]

end one

end Sys2Proof.Machine.State

namespace Sys2Proof.Claims
open Sys2Proof.Machine Sys2Proof.Machine.State

variable {s : State} {i : SlipNo} {bus : Bus} {rest : List SlipNo}

/-- What the sweep makes of slip i, admitted as `a`: it is held and TAKEN, and listed, quick, running or handed over (R188, R190). -/
def AdmittedSlip (i : SlipNo) (a : Admitted) (s t : State) : Prop :=
  let quick := t.desk.sweep = some { quick := [a], long := [] }
  let handed (o : Op) := (s.exec.running.isSome = true → t.exec = (s.handOver o).exec) ∧
    (s.exec.running = none → t.exec = { s.exec with running := some o }) ∧ t.desk.sweep = none
  bget t.desk.map i = 0 ∧ byteAt t (s.slipAt i) = markTaken ∧ bget t.desk.held i = .held ∧
  (a.kind = .ingest → t.desk.list = insertBy Admitted.before a s.desk.list) ∧
  (a.kind.cls = .quick → a.kind ≠ .retain → quick) ∧
  (∀ b, a.kind.body a.params = some b → handed (a.op b)) ∧
  (a.kind = .retain → ∀ g : GroupNo, field a.params 0 1 = g.val →
    let old := (bget s.ret.groups g).days
    let new := field a.params 2 2
    (new ≤ old → quick ∧ t.ret = s.ret) ∧
    (old < new → handed (a.op (.walk g 0 0)) ∧
      t.ret = { s.ret with groups := bset s.ret.groups g { days := new, walk := some (old, new) } }))

theorem posted_admitted {k : Kind} (one : OneSlip bus i s) (off : i ∉ rest) (held : bget s.desk.held i = .notHeld)
    (posted : byteAt (at_ bus s) (s.slipAt i) = markPosted)
    (enters : min (field ((at_ bus s).hostBytes s.desk.place 8) 0 1) 3 = 0 ∨
      min (byteAt (at_ bus s) (s.slipAt i + 2)).toNat 3 < min (field ((at_ bus s).hostBytes s.desk.place 8) 0 1) 3)
    (kind : Kind.ofCode (byteAt (at_ bus s) (s.slipAt i + 1)).toNat = some k)
    (admission : (at_ bus s).admissionRefusal k ((at_ bus s).readParams k i) = none) :
    (afterSweep bus i s rest).desk.nextAdm = s.desk.nextAdm + 1 ∧
      AdmittedSlip i (admittedOf bus i s k) s (afterSweep bus i s rest) := by
  have eq := dealt_admitted one held posted enters kind admission
  have taken := takeSlipMark_taken one
  have sweep := taken.sweep one
  have ret := taken.ret one
  have list : ((turnOf bus i s).takeSlipMark i).desk.list = s.desk.list := by
    rw [taken.desk]
    exact (turnOf_atTurn one).list
  have goes := dispatch_dispatched (a := admittedOf bus i s k) (z := (turnOf bus i s).takeSlipMark i) admission
  have admits := goes.admits
  have feeds := admitted_feed one off eq admits
  have quickly {b : Admitted} := admitted_quick (a := b) one off eq admits
  have longs {o : Op} := admitted_long (o := o) one off eq admits
  generalize ex : ((turnOf bus i s).takeSlipMark i).dispatch (admittedOf bus i s k) = x at *
  generalize admittedOf bus i s k = a at *
  have stays (left : Leaves x (afterSweep bus i s rest)) := admitted_stays one posted admits left
  generalize (turnOf bus i s).takeSlipMark i = z at *
  unfold AdmittedSlip
  dsimp only
  cases goes with
  | feed kind =>
    have left := feeds rfl
    obtain ⟨adm, status, mark, held⟩ := stays left
    refine ⟨adm, status, mark, held, fun _ => ?_, fun cls => ?_, fun b body => ?_, fun retain => ?_⟩
    · rw [left.list, ← list]
      rfl
    · rw [kind] at cls
      cases cls
    · rw [kind] at body
      cases body
    · rw [kind] at retain
      cases retain
  | quick cls short =>
    obtain ⟨left, quick⟩ := quickly (addQuick_sweep sweep a)
    obtain ⟨adm, status, mark, held⟩ := stays left
    refine ⟨adm, status, mark, held, fun kind => ?_, fun _ _ => quick, fun b body => ?_, fun retain g group => ?_⟩
    · rw [kind] at cls
      cases cls
    · exact absurd (cls.symm.trans (body_long body)) (by decide)
    · have le := short retain g group
      rw [ret] at le
      exact ⟨fun _ => ⟨quick, left.ret.trans ret⟩, fun lt => absurd le (Nat.not_le.mpr lt)⟩
  | long b body =>
    obtain ⟨left, done, runs, idle⟩ := longs (addLong_sweep sweep _) (op_goesOnLater body)
    obtain ⟨adm, status, mark, held⟩ := stays left
    refine ⟨adm, status, mark, held, fun kind => ?_, fun cls => ?_, fun b' body' => ?_, fun retain => ?_⟩
    · rw [kind] at body
      cases body
    · exact absurd (cls.symm.trans (body_long body)) (by decide)
    · obtain rfl := Option.some.inj (body.symm.trans body')
      exact ⟨runs, idle, done⟩
    · rw [retain] at body
      cases body
  | walk g kind group lt =>
    obtain ⟨left, done, runs, idle⟩ := longs (addLong_sweep (s := z.onRet _) sweep _) (walk_goesOnLater a g)
    obtain ⟨adm, status, mark, held⟩ := stays left
    rw [ret] at lt
    refine ⟨adm, status, mark, held, fun ingest => ?_, fun _ retain => absurd kind retain, fun b body => ?_, fun _ g' group' => ?_⟩
    · rw [kind] at ingest
      cases ingest
    · rw [kind] at body
      cases body
    · obtain rfl : g = g' := Fin.ext (group.symm.trans group')
      refine ⟨fun le => absurd le (Nat.not_le.mpr lt), fun _ => ⟨⟨runs, idle, done⟩, left.ret.trans ?_⟩⟩
      rw [← ret]
      rfl

/-- A POSTED slip that is not held and is let in, by what admission makes of it. -/
theorem postedSlip (one : OneSlip bus i s) (off : i ∉ rest) (held : bget s.desk.held i = .notHeld)
    (posted : byteAt (at_ bus s) (s.slipAt i) = markPosted)
    (enters : min (field ((at_ bus s).hostBytes s.desk.place 8) 0 1) 3 = 0 ∨
      min (byteAt (at_ bus s) (s.slipAt i + 2)).toNat 3 < min (field ((at_ bus s).hostBytes s.desk.place 8) 0 1) 3) :
    PostedSlip bus i s (afterSweep bus i s rest) := by
  have answered {st : Status} := posted_answered one off (st := st)
  unfold PostedSlip
  dsimp only
  cases kind : Kind.ofCode (byteAt (at_ bus s) (s.slipAt i + 1)).toNat with
  | none =>
    obtain ⟨adm, status, mark, free, _⟩ := answered (dealt_unknown one held posted enters kind)
    exact ⟨adm, fun _ => ⟨status, mark, free⟩, fun k hk => nomatch hk⟩
  | some k =>
    cases refusal : (at_ bus s).admissionRefusal k ((at_ bus s).readParams k i) with
    | some st =>
      obtain ⟨adm, facts⟩ := answered (dealt_refused one held posted enters kind refusal)
      refine ⟨adm, fun none => (nomatch none), fun k' hk => ?_⟩
      obtain rfl := Option.some.inj hk
      refine ⟨fun st' he => ?_, fun none => absurd (refusal.symm.trans none) (by simp)⟩
      obtain rfl := Option.some.inj (refusal.symm.trans he)
      exact facts
    | none =>
      obtain ⟨adm, facts⟩ := posted_admitted one off held posted enters kind refusal
      refine ⟨adm, fun none => (nomatch none), fun k' hk => ?_⟩
      obtain rfl := Option.some.inj hk
      exact ⟨fun st he => absurd (refusal.symm.trans he) (by simp), fun _ => facts⟩

end Sys2Proof.Claims
end


section
namespace Sys2Proof.Claims
open Sys2Proof.Machine Sys2Proof.Machine.State

variable {s : State} {i : SlipNo} {bus : Bus} {rest : List SlipNo}

/-- A held slip's marks that are no ring fault, and what they make of its channel (R46, R58). -/
theorem reread_marks {c : ChanNo} {f : File} {r : RingMarks} (one : OneSlip bus i s) (off : i ∉ rest) (held : bget s.desk.held i = .held)
    (taken : byteAt (at_ bus s) (s.slipAt i) = markTaken) (bound : s.chanOfSlip i = some c) (file : (s.chan c).file = some f)
    (state : (s.chan c).state ≠ .ending) (closing : (s.chan c).closing = .none)
    (marks : readMarks ((at_ bus s).hostBytes (s.paramsAt i) 56) = r) (sound : marksFault (s.chan c) r = false) :
    let t := afterSweep bus i s rest
    let ends := (s.chan c).state = .running ∧ f.commitDue = false ∧ s.waits (.chan c) = false ∧ r.total < (s.chan c).drained + 64
    OtherChans c s t ∧ bget t.desk.held i = .held ∧ (¬ (r.final = true ∧ ends) → t.chan c = (s.chan c).takeMarks r) := by
  have turn := turnOf_atTurn one
  have chan := turn.chan c
  have waits : (turnOf bus i s).waits (.chan c) = s.waits (.chan c) := by rw [State.waits, turn.jnl, ← State.waits]
  have soundW : marksFault ((turnOf bus i s).chan c) r = false := by rw [chan]; exact sound
  have goesOn := reread_taken one off held taken bound state closing marks
  cases final : r.final with
  | false =>
    obtain ⟨same, others, heldT⟩ := goesOn (applyMarks_not_final soundW final)
    exact ⟨others, heldT, fun _ => same⟩
  | true =>
    obtain ⟨_, becomes, _⟩ := testEnd_becomes c ((turnOf bus i s).onChan c (Channel.takeMarks r))
    obtain ⟨_, others, heldT⟩ := reread_tested one off held taken bound state closing marks sound final file becomes
    refine ⟨others, heldT, fun not => (goesOn (applyMarks_runs_on soundW final (f := f) (by rw [chan]; exact file) ?_)).1⟩
    rw [chan, waits]
    exact fun ⟨run, _, due, clear, lt⟩ => not ⟨rfl, run, due, clear, lt⟩

end Sys2Proof.Claims

namespace Sys2Proof
open Machine Machine.State Claims

/-- Settles O15: the sweep is slip i's turn alone, and the turn's engine is followed through the sweep's end. -/
theorem sweepFindsTheOtherSlips : Obligations.SweepFindsTheOtherSlips := by
  unfold Obligations.SweepFindsTheOtherSlips
  refine ⟨marksFault_iff, fun bus i s one => ?_⟩
  obtain ⟨rest, off, _, goes⟩ := exec_sweep_turn one
  obtain ⟨asked, first⟩ := afterSweep_fields (rest := rest) one
  refine ⟨afterSweep bus i s rest, goes, asked, fun isFirst held posted => ?_, fun withdrawn => ?_,
    fun notFirst held taken c f bound file state closing => ?_⟩
  · refine ⟨by rw [first, isFirst, Bool.true_and], fun enters => postedSlip one off held posted enters, fun out => ?_⟩
    obtain ⟨mark, heldT, list, exec, _, _, adm, map⟩ := afterSweep_passed one off (passed_of_threshold one held posted out)
    refine ⟨mark.trans posted, heldT.trans held, ?_, list, exec, adm⟩
    rw [map, posted, if_neg (by decide)]
  · obtain ⟨mark, heldT, list, exec, _, feed, _, map⟩ := afterSweep_passed one off (passed_of_withdrawn one withdrawn)
    exact ⟨heldT.trans withdrawn, mark, exec, list, feed, fun ne => by rw [map, if_neg ne], fun eq => by rw [map, if_pos eq]⟩
  · intro ch r ends sound
    obtain ⟨others, heldT, goesOn⟩ := reread_marks one off held taken bound file state closing rfl sound
    obtain ⟨swept, _⟩ := afterSweep_reread one off held taken
    refine ⟨heldT, swept.exec, others, fun final => ?_, fun final not => ?_, fun final ⟨run, due, clear, lt⟩ le => ?_⟩
    · rw [goesOn (by simp [r, final]), takeMarks_of_not_final sound final]
    · rw [goesOn fun both => not both.2, takeMarks_of_final sound final]
    · exact reread_ends one off held taken bound state closing rfl sound final file run due clear le lt

end Sys2Proof
end


section
/-! SUPPORT. After a record: the commit point owed, the end of the file, the ring that cannot be read (R45, R51, R56, R58), for O24. -/

namespace Sys2Proof.Machine.State

open Sys2Proof.Claims

variable {u s t w : State} {c : ChanNo} {f g : File}

/-- The 1,024th record of an interval owes a commit point (R51, R56). -/
theorem recordFinished_due (file : (s.chan c).file = some g) (full : g.account.counts.seen % 1024 = 0) :
    s.recordFinished c = s.withFile c { g with commitDue := true } := by
  have : s.recordFinished c = s.onFile c fun x => { x with commitDue := true } := by simp [recordFinished, file, full]
  rw [this, onFile_eq file]

/-- Any other record is followed by the end test (R58). -/
theorem recordFinished_test (file : (s.chan c).file = some g) (part : g.account.counts.seen % 1024 ≠ 0) :
    s.recordFinished c = s.testEnd c := by
  simp [recordFinished, file, part]

end Sys2Proof.Machine.State

namespace Sys2Proof.Claims

open Sys2Proof.Machine Sys2Proof.Machine.State

variable {u s t w : State} {c : ChanNo} {f g : File}

/-- A record of the file f has been counted and stands where it goes: on `w` its channel, past the record, is about to finish it. -/
structure Finishes (u : State) (c : ChanNo) (f g : File) (w : State) : Prop where
  taken : u.takeRecord c = w.recordFinished c
  becomes : Becomes c { u.chan c with drained := (u.chan c).drained + 64, file := some g } u w
  seen : g.account.counts.seen = f.account.counts.seen + 1
  due : g.commitDue = f.commitDue
  jnl : w.jnl = u.jnl

/-- The record is accepted and there is a page to write it into (R53). -/
def Writes (u : State) (c : ChanNo) : Prop := (u.openPage c (u.groupOf (u.recordIn c).cls)).isSome = true ∨ u.poolHasPage = true

/-- A record that is finished: rejected, expired on arrival, a duplicate, or accepted and written (R51). -/
def IsFinished (u : State) (c : ChanNo) (f : File) : Prop :=
  (u.recordIn c).rejected = true ∨ u.expiredOnArrival (u.recordKey c f) = true ∨
    ((u.recordJudged c f).gaps.length ≤ 256 ∧ ((u.recordJudged c f).verdict = .duplicate ∨ Writes u c))

theorem placed_finishes (e : u.takeRecord c = w.recordFinished c) (pool : w = (accepting u c f).onPool fun _ => w.pool) :
    Finishes u c f (f.accepts (u.recordIn c) (u.recordJudged c f)) w where
  taken := e
  becomes := by
    rw [pool]
    exact accepting_becomes
  seen := rfl
  due := rfl
  jnl := by
    rw [pool]
    exact past_jnl (g := f.accepts (u.recordIn c) (u.recordJudged c f))

/-- Every record that is finished, by its outcome. -/
theorem record_finishes (h : Takes u c f) (n : IsFinished u c f) : ∃ g w, Finishes u c f g w := by
  cases r : (u.recordIn c).rejected
  case true => exact ⟨_, _, takeRecord_rejected h r, past_becomes, rfl, rfl, past_jnl⟩
  cases e : u.expiredOnArrival (u.recordKey c f)
  case true => exact ⟨_, _, takeRecord_expired h r e, past_becomes, rfl, rfl, past_jnl⟩
  obtain ⟨room, goes⟩ := (n.resolve_left (by simp [r])).resolve_left (by simp [e])
  cases v : (u.recordJudged c f).verdict
  case duplicate => exact ⟨_, _, takeRecord_duplicate h r e room v, past_becomes, rfl, rfl, past_jnl⟩
  have writes : Writes u c := goes.resolve_left (by simp [v])
  cases p : u.openPage c (u.groupOf (u.recordIn c).cls) with
  | some p => exact ⟨_, _, placed_finishes (takeRecord_open h r e room v p) rfl⟩
  | none =>
    have free : u.poolHasPage = true := writes.resolve_left (by simp [p])
    exact ⟨_, _, placed_finishes (takeRecord_new h r e room v p free) rfl⟩

section finishes

variable (h : Takes u c f) (k : Finishes u c f g w)
include h k

/-- The channel at the end of the command is the channel when the record is finished. -/
theorem finishes_chan : ((u.takeRecord c).settle.chan c) = (w.recordFinished c).chan c := by
  rw [k.taken]
  exact (finished_settle k.becomes h.alone).2.chan c

/-- A finished record whose number is a multiple of 1,024: the channel runs on and owes a commit point (R51, R56). -/
theorem finishes_due (full : (f.account.counts.seen + 1) % 1024 = 0) :
    (u.takeRecord c).settle.chan c = { u.chan c with drained := (u.chan c).drained + 64, file := some { g with commitDue := true } } := by
  rw [finishes_chan h k, recordFinished_due (g := g) (by rw [k.becomes.chan]) (by rw [k.seen]; exact full), withFile_chan, k.becomes.chan]

section test

variable (part : (f.account.counts.seen + 1) % 1024 ≠ 0)
include part

/-- Any other finished record without a final total, or with 64 bytes or more left: the channel runs on and owes nothing. -/
theorem finishes_on (far : ∀ m, (u.chan c).finalTotal = some m → (u.chan c).drained + 128 ≤ m) :
    (u.takeRecord c).settle.chan c = { u.chan c with drained := (u.chan c).drained + 64, file := some g } := by
  have chan := k.becomes.chan
  have stays : w.testEnd c = w := by
    cases e : (u.chan c).finalTotal with
    | none => exact testEnd_of_no_total (by rw [chan]; exact e)
    | some m => exact testEnd_of_far (m := m) (by rw [chan]; exact e) (by rw [chan]; exact far m e)
  rw [finishes_chan h k, recordFinished_test (g := g) (by rw [chan]) (by rw [k.seen]; exact part), stays, chan]

/-- With fewer than 64 bytes left the file is in ENDING, drained to its final total (R58). -/
theorem finishes_ending {m : Nat} (total : (u.chan c).finalTotal = some m) (le : (u.chan c).drained + 64 ≤ m)
    (lt : m < (u.chan c).drained + 128) : (u.takeRecord c).settle.chan c =
      { u.chan c with state := .ending, drained := m, file := some { g with trailing := m - ((u.chan c).drained + 64) } } := by
  obtain ⟨run, closing, due, clear, _⟩ := recordReady_iff.mp h.ready
  have chan := k.becomes.chan
  have owes : g.commitDue = false := by
    rw [k.due]
    simpa [h.file] using due
  have ends := testEnd_ends (s := w) (c := c) (f := g) (m := m) (by rw [chan]) (by rw [chan]; exact total) (by rw [chan]; exact run)
    (by rw [chan]; exact closing) owes (by rw [waits, k.jnl]; exact clear) (by rw [chan]; exact le) (by rw [chan]; exact lt)
  rw [finishes_chan h k, recordFinished_test (g := g) (by rw [chan]) (by rw [k.seen]; exact part), ends.chan, chan]

end test

end finishes

/-! ## A ring that cannot be read -/

theorem takeRecord_unread (r : u.recordReady c = true) (f : u.readFails (u.ringAt c (u.chan c).drained) 64 = true) :
    u.takeRecord c = u.ringFault c := by simp [takeRecord, r, f]

/-- The file is aborted with cause RING-FAULT, the drained mark as it was (R45). -/
theorem record_unread (ready : u.recordReady c = true) (file : (u.chan c).file = some f) (alone : u.feed.stalled = [])
    (bad : u.readFails (u.ringAt c (u.chan c).drained) 64 = true) :
    let t := (u.takeRecord c).settle
    OtherChans c u t ∧ CutOff u c f.switch (abortedPair f.switch (u.committed c) .ringFault) t ∧
      (u.engine = .ready → EntriesFit 3 u → Ended u c (u.chan c).slip .ringFault
        (ingestValues (u.chan c).drained (u.committed c)) t) := by
  obtain ⟨_, closing, _⟩ := recordReady_iff.mp ready
  obtain ⟨others, stalled⟩ := abort_others closing file alone .ringFault .ringFault
  have q := settle_quiet (.inl stalled)
  rw [takeRecord_unread ready bad]
  exact ⟨otherChans_trans others (otherChans_of_feed q.feed c), (abort_cutOff closing file alone .ringFault .ringFault).quiet q,
    fun on fits => (abort_ended closing file alone .ringFault .ringFault on fits (.refl u) (fun _ _ => rfl) alone).quiet q⟩

end Sys2Proof.Claims
end


section
/-! SUPPORT. A withdrawn file's pages, freed at a sweep, and the channel that waits first for one (R54, R60, R186), for O24. -/

namespace Sys2Proof.Machine.State

open Sys2Proof.Claims

variable {s t u x : State} {i : SlipNo} {c d e : ChanNo} {f : File} {n g : Nat} {k : StreamKey} {r : Rec} {p q : Page}

/-! ## The page that a resumed channel opens -/

/-- An OPEN page of channel d with serial n and key k that holds the record r alone, not yet committed. -/
def HoldsOne (d : ChanNo) (n : Nat) (k : StreamKey) (r : Rec) (p : Page) : Prop :=
  p.serial = n ∧ p.key = k ∧ p.owner = some d ∧ p.sealedUp = false ∧ p.committed = 0 ∧ p.places.map Place.data = [r]

/-- The coder's work changes no more than standings. -/
theorem HoldsOne.kept (h : HoldsOne d n k r p) (kept : PageKept p q) : HoldsOne d n k r q := by
  obtain ⟨serial, key, owner, sealedUp, committed, data⟩ := h
  have same : q.places.map Place.data = p.places.map Place.data := by
    have places := kept.places
    generalize p.places = ps, q.places = qs at places
    induction places with
    | nil => rfl
    | cons place _ ih => simp [place.1, ih]
  rw [kept.same]
  exact ⟨serial, key, owner, sealedUp, committed, same.trans data⟩

/-- A page is known by its serial (R52). -/
theorem page_of_serial (legal : s.pool.legal = true) (hp : p ∈ s.pool.pages) (hq : q ∈ s.pool.pages) (same : p.serial = q.serial) :
    p = q := by
  have nodup : (s.pool.pages.map Page.serial).Nodup := List.pairwise_map.mpr ((serials_of_legal legal).imp Nat.ne_of_lt)
  exact List.inj_on_of_nodup_map nodup hp hq same

/-- Channel d, whose record waited, has its page and has left the waiting order. -/
structure Resumed (d : ChanNo) (n : Nat) (k : StreamKey) (r : Rec) (s : State) : Prop where
  legal : s.pool.legal = true
  out : d ∉ s.feed.stalled
  state : (s.chan d).state ≠ .stalled
  held : (s.chan d).file.map File.held = some none
  page : ∃ p ∈ s.pool.pages, HoldsOne d n k r p

namespace Resumed

variable (h : Resumed d n k r s)
include h

/-- What goes on beside the channel and keeps its page. -/
theorem beside (apart : Apart d s t) (legal : t.pool.legal = true) (page : ∃ p ∈ t.pool.pages, HoldsOne d n k r p) :
    Resumed d n k r t where
  legal := legal
  out := apart.stalled h.out
  state := by rw [apart.chan]; exact h.state
  held := by rw [apart.chan]; exact h.held
  page := page

theorem of_pool (apart : Apart d s t) (pool : t.pool = s.pool) : Resumed d n k r t :=
  h.beside apart (by rw [pool]; exact h.legal) (by rw [pool]; exact h.page)

theorem quiet (quiet : Quiet s t) (legal : t.pool.legal = true) : Resumed d n k r t := by
  obtain ⟨p, hp, holds⟩ := h.page
  obtain ⟨q, hq, kept⟩ := quiet.page hp
  exact h.beside (.of_quiet quiet) legal ⟨q, hq, holds.kept kept⟩

theorem runCoder : Resumed d n k r s.runCoder := h.quiet (runCoder_quiet s) (runCoder_does (keeps_pool.mono rfl) id h.legal)
theorem pump : Resumed d n k r s.pump := h.quiet (pump_quiet s) (pump_does (keeps_pool.mono rfl) id h.legal)

/-- A record of another channel goes into that channel's pages. -/
theorem placeRecord {key : StreamKey} {r' : Rec} (ne : e ≠ d) (placed : s.placeRecord e key r' = some t) : Resumed d n k r t := by
  refine h.beside (placeRecord_apart ne placed) (placeRecord_does (keeps_pool.mono rfl) placed id h.legal) ?_
  obtain ⟨p, hp, holds⟩ := h.page
  obtain ⟨q, found, rfl⟩ | ⟨_, rfl⟩ := placeRecord_cases placed
  · obtain ⟨hq, owner, _⟩ := openPage_some found
    refine ⟨p, List.mem_map.mpr ⟨p, hp, if_neg fun same => ?_⟩, holds⟩
    obtain rfl := page_of_serial h.legal hp hq same
    exact ne (Option.some.inj (owner.symm.trans holds.2.2.1))
  · refine ⟨p, List.mem_map.mpr ⟨p, List.mem_append_left _ hp, if_neg fun same => ?_⟩, holds⟩
    have below : ∀ q ∈ s.pool.pages, q.serial < s.pool.serial := by
      have legal := h.legal
      unfold Pool.legal at legal
      simp only [Bool.and_eq_true, List.all_eq_true, decide_eq_true_eq] at legal
      exact legal.1.2
    exact absurd same (Nat.ne_of_lt (below p hp))

/-- A page for another channel, and another turn of its own in the order. -/
theorem resumeOne (e : ChanNo) : Resumed d n k r (s.resumeOne e) := by
  have left : Resumed d n k r (s.leaveStalled e) := h.of_pool (leaveStalled_apart e s) rfl
  by_cases same : e = d
  · subst same
    obtain ⟨f, file, held⟩ := Option.map_eq_some_iff.mp h.held
    have : s.resumeOne e = s.leaveStalled e := by simp [State.resumeOne, file, held]
    rw [this]
    exact left
  · unfold State.resumeOne
    split
    · split
      · split
        · rename_i placed
          exact (((h.placeRecord same placed).of_pool (onChan_apart same _ _) rfl).of_pool (leaveStalled_apart e _) rfl).of_pool
            (recordFinished_apart same _) (recordFinished_pool _ _)
        · exact h
      · exact left
    · exact left

theorem resumeAll (cs : List ChanNo) : Resumed d n k r (resumeAll cs s) := by
  induction cs generalizing s with
  | nil => exact h
  | cons e es ih =>
    unfold State.resumeAll
    split
    · exact ih (h.resumeOne e)
    · exact h

theorem settle : Resumed d n k r s.settle := (Resumed.runCoder (h.resumeAll s.feed.stalled)).pump

end Resumed

/-! ## The channel's turn -/

/-- A finished record leaves a RUNNING channel RUNNING or in ENDING. -/
theorem recordFinished_state (run : (s.chan c).state = .running) : ((s.recordFinished c).chan c).state ≠ .stalled := by
  have tested : ((s.testEnd c).chan c).state ≠ .stalled := by
    unfold testEnd
    dsimp only
    split
    · split
      · split
        · rw [onChan_chan_self]
          exact ChanState.noConfusion
        · rw [(raiseDrained_becomes _).chan, onChan_chan_self]
          exact ChanState.noConfusion
      · rw [run]
        exact ChanState.noConfusion
    · rw [run]
      exact ChanState.noConfusion
  unfold recordFinished
  split
  · split
    · unfold onFile
      rw [onChan_chan_self, run]
      exact ChanState.noConfusion
    · exact tested
  · rw [run]
    exact ChanState.noConfusion

/-- The channel that waits first opens a page for the record it holds. -/
theorem resumeOne_resumed (legal : s.pool.legal = true) (file : (s.chan d).file = some f) (held : f.held = some (r, g))
    (closed : s.openPage d g = none) (free : s.poolHasPage = true) :
    Resumed d s.pool.serial (fileKey f g) r (s.resumeOne d) := by
  have placed : s.placeRecord d (fileKey f g) r = some ((s.newPage d (fileKey f g)).writePlace s.pool.serial r) := by
    simp [placeRecord, fileKey, closed, free]
  have legal' := resumeOne_does (keeps_pool.mono rfl) d id legal
  have eq : s.resumeOne d = ((((s.newPage d (fileKey f g)).writePlace s.pool.serial r).onChan d fun ch =>
      { ch with state := .running, file := some { f with held := none } }).leaveStalled d).recordFinished d := by
    simp [resumeOne, file, held, placed]
  rw [eq] at legal' ⊢
  set w := (((s.newPage d (fileKey f g)).writePlace s.pool.serial r).onChan d fun ch =>
      { ch with state := .running, file := some { f with held := none } }).leaveStalled d with hw
  have chan : w.chan d = { s.chan d with state := .running, file := some { f with held := none } } := by
    rw [hw]
    exact onChan_chan_self _
  obtain ⟨ch, becomes, ⟨_, _, finished⟩, _⟩ := recordFinished_becomes (s := w) (c := d) (f := { f with held := none }) (by rw [chan])
  refine ⟨legal', ?_, recordFinished_state (by rw [chan]), ?_, ?_⟩
  · rw [becomes.stalled]
    exact leaveStalled_notin d _
  · rw [becomes.chan, finished]
    rfl
  · rw [recordFinished_pool]
    refine ⟨_, List.mem_map.mpr ⟨_, List.mem_append_right _ List.mem_cons_self, rfl⟩, ?_⟩
    rw [if_pos rfl]
    exact ⟨rfl, rfl, rfl, rfl, rfl, rfl⟩

/-! ## The withdrawn file -/

/-- A page without a committed record goes with its file (R60 step 1). -/
theorem cutPages_free (legal : s.pool.legal = true) (empty : ∃ p ∈ s.pool.pages, p.owner = some c ∧ p.committed = 0) :
    (s.cutPages c).poolHasPage = true := by
  have short : s.pool.pages.length ≤ 8192 := by
    unfold Pool.legal at legal
    simp only [Bool.and_eq_true, decide_eq_true_eq] at legal
    exact legal.2
  obtain ⟨p, hp, owner, committed⟩ := empty
  have cut : ((s.pool.pages.map fun p => if p.owner = some c then cutPage p else p).filter fun p => !p.done).length <
      s.pool.pages.length := by
    rw [← List.length_map (as := s.pool.pages) (f := fun p => if p.owner = some c then cutPage p else p)]
    refine List.length_filter_lt_length_iff_exists.mpr ⟨cutPage p, List.mem_map.mpr ⟨p, hp, if_pos owner⟩, ?_⟩
    simp [Page.done, cutPage, committed]
  exact decide_eq_true (Nat.lt_of_lt_of_le cut short)

/-- No other channel's page is touched. -/
theorem openPage_cutPages (closed : s.openPage d g = none) : (s.cutPages c).openPage d g = none := by
  refine List.find?_eq_none.mpr fun p hp => ?_
  obtain ⟨q, hq, rfl⟩ := List.mem_map.mp (List.mem_filter.mp hp).1
  split
  · simp [cutPage]
  · exact List.find?_eq_none.mp closed q hq

section withdrawn

variable {h : File} {rest : List ChanNo} (closing : (s.chan c).closing = .none) (open_ : (s.chan c).file = some h)
  (empty : ∃ p ∈ s.pool.pages, p.owner = some c ∧ p.committed = 0) (waits : s.feed.stalled = d :: rest) (ne : d ≠ c)
  (file : (s.chan d).file = some f) (held : f.held = some (r, g)) (closed : s.openPage d g = none) (legal : s.pool.legal = true)
include empty waits ne file held closed legal

/-- Its page goes to the channel that waits first (R54). -/
theorem pagesFreed_resumed : Resumed d s.pool.serial (fileKey f g) r (s.pagesFreed c) := by
  have cut : ((s.leaveStalled c).cutPages c).pool.legal = true := cutPages_does (keeps_pool.mono rfl) c id legal
  have first : ((s.leaveStalled c).cutPages c).feed.stalled = d :: rest.filter fun x => x != c := by
    show s.feed.stalled.filter _ = _
    rw [waits]
    simp [ne]
  unfold pagesFreed resumeStalled
  rw [first, State.resumeAll, if_pos (cutPages_free (s := s.leaveStalled c) legal empty)]
  exact (resumeOne_resumed cut file held (openPage_cutPages closed) (cutPages_free (s := s.leaveStalled c) legal empty)).resumeAll _

include closing open_ in
theorem abort_resumed (cause : AbortCause) (answer : Option Status) :
    Resumed d s.pool.serial (fileKey f g) r (s.abort c cause answer) := by
  have freed := pagesFreed_resumed empty waits ne file held closed legal
  have stopped : Resumed d s.pool.serial (fileKey f g) r (s.aborting c h answer) :=
    freed.of_pool ((onChan_apart ne.symm _ _).trans (releaseSwitch_apart _ _)) (aborting_pool answer)
  rw [abort_file closing open_]
  exact (stopped.of_pool (submitClosing_apart ne.symm _ _ _ _) (submitClosing_pool _ _ _ _ _)).runCoder

end withdrawn

/-! ## The sweep -/

/-- What the end of the sweep leaves of the engine, and the pages given and selections made after it. -/
theorem Over.resumed {e : Exec} {y : State} (ends : Over x e y) (h : Resumed d n k r x) : Resumed d n k r y.settle := by
  have same {α : Type} (F : State → α) (hF : ∀ d k r, F { x with desk := d, mem := k, exec := r } = F x) : F y = F x := by
    rw [ends.rest]
    exact hF _ _ _
  have pool : y.pool = x.pool := same State.pool fun _ _ _ => rfl
  refine (h.of_pool (.of_same ?_ ?_ pool ?_ ?_) pool).settle
  · exact same State.engine fun _ _ _ => rfl
  · exact same State.recon fun _ _ _ => rfl
  · exact same State.jnl fun _ _ _ => rfl
  · exact same State.feed fun _ _ _ => rfl

theorem withdrawn_exec (i : SlipNo) (c : ChanNo) (s : State) : ((s.setHeld i .withdrawn).abort c .withdrawn none).exec = s.exec :=
  abort_does (s := s.setHeld i .withdrawn) (same_exec.mono rfl) c _ _ rfl

section one

variable {bus : Bus} {others : List SlipNo} (one : OneSlip bus i s) (off : i ∉ others) (held : bget s.desk.held i = .held)
  (other : byteAt (at_ bus s) (s.slipAt i) ≠ markTaken) (unlisted : ∀ a ∈ s.desk.list, a.slip ≠ i)
  (bound : s.chanOfSlip i = some c) (state : (s.chan c).state ≠ .ending)
include one held other unlisted bound state

/-- A held slip's mark that is not TAKEN withdraws it: its channel's file is aborted without an answer (R62). -/
theorem dealt_withdraws : dealt bus i s = ((turnOf bus i s).setHeld i .withdrawn).abort c .withdrawn none := by
  have turn := turnOf_atTurn one
  have deals : dealt bus i s = ((turnOf bus i s).setHeld i .withdrawn).withdraw i :=
    dealSlip_withdraws (turn_reads one) (turn_mark one) _ ((turn_held one).trans held) other
  have list : ((turnOf bus i s).setHeld i .withdrawn).desk.list = s.desk.list := turn.list
  have chan : ((turnOf bus i s).setHeld i .withdrawn).chanOfSlip i = some c := (turn.chanOfSlip i).trans bound
  have stands : (((turnOf bus i s).setHeld i .withdrawn).chan c).state ≠ .ending := by
    show ((turnOf bus i s).chan c).state ≠ .ending
    rw [turn.chan]
    exact state
  rw [deals]
  unfold withdraw
  rw [list, if_neg (by simpa using unlisted), chan]
  exact if_neg stands

include off in
/-- The sweep is over with that abort. -/
theorem afterSweep_withdraws : ∃ y, Over (((turnOf bus i s).setHeld i .withdrawn).abort c .withdrawn none) s.exec y ∧
    afterSweep bus i s others = y.settle := by
  have turn := turnOf_atTurn one
  have slip : (((turnOf bus i s).setHeld i .withdrawn).chan c).slip = some i := by
    show ((turnOf bus i s).chan c).slip = _
    rw [turn.chan]
    exact (chanOfSlip_some bound).1
  have beside : Beside i (turnOf bus i s) (((turnOf bus i s).setHeld i .withdrawn).abort c .withdrawn none) :=
    (setHeld_beside .withdrawn _).trans (abort_beside slip _ _)
  have exec := (withdrawn_exec i c (turnOf bus i s)).trans turn.exec
  rw [afterSweep_spared one off (dealt_withdraws one held other unlisted bound state) beside.toSpared]
  generalize ((turnOf bus i s).setHeld i .withdrawn).abort c .withdrawn none = x at *
  have sweep : x.desk.sweep = some { quick := [], long := [] } := by
    rw [beside.desk]
    exact turn.sweep
  have written : x.desk.baseWritten = false := by
    rw [beside.desk]
    show (turnOf bus i s).desk.baseWritten = false
    rw [turn.desk]
    exact oneSlip_written one
  have choice : NoChoice x := by
    unfold NoChoice pick
    rw [exec]
    exact oneSlip_noChoice one
  rw [← exec]
  exact over_of_handed sweep rfl written (handOverLong_empty sweep rfl choice) choice

end one

end Sys2Proof.Machine.State
end


section
/-! Sitting 3: O24, a record reaches its end. -/

namespace Sys2Proof.Claims
open Sys2Proof.Machine Sys2Proof.Machine.State

variable {u s : State} {c : ChanNo} {f : File}

/-- A finished record that is no 1,024th owes no commit point, whether or not it ends its file. -/
theorem finishes_owes {g : File} {w : State} (h : Takes u c f) (k : Finishes u c f g w) (part : (f.account.counts.seen + 1) % 1024 ≠ 0) :
    ((u.takeRecord c).settle.chan c).file.map File.commitDue = some false := by
  obtain ⟨_, _, due, _⟩ := recordReady_iff.mp h.ready
  obtain ⟨ch, becomes, ⟨n, file⟩, _⟩ := testEnd_becomes c w
  have owes : g.commitDue = false := by
    rw [k.due]
    simpa [h.file] using due
  rw [finishes_chan h k, recordFinished_test (g := g) (by rw [k.becomes.chan]) (by rw [k.seen]; exact part), becomes.chan, file,
    k.becomes.chan]
  exact congrArg some owes

/-- What a finished record makes of its channel, by the count of records seen and the final total (R51, R56, R58). -/
theorem finished_record (h : Takes u c f) (n : IsFinished u c f) :
    let t := (u.takeRecord c).settle
    ((f.account.counts.seen + 1) % 1024 = 0 → (t.chan c).state = .running ∧ (t.chan c).drained = (u.chan c).drained + 64 ∧
      (t.chan c).file.map File.commitDue = some true ∧ (t.chan c).finalTotal = (u.chan c).finalTotal) ∧
    ((f.account.counts.seen + 1) % 1024 ≠ 0 →
      (t.chan c).file.map File.commitDue = some false ∧
      ((u.chan c).finalTotal = none → (t.chan c).state = .running ∧ (t.chan c).drained = (u.chan c).drained + 64) ∧
      ∀ m, (u.chan c).finalTotal = some m →
        ((u.chan c).drained + 128 ≤ m → (t.chan c).state = .running ∧ (t.chan c).drained = (u.chan c).drained + 64) ∧
        ((u.chan c).drained + 64 ≤ m → m < (u.chan c).drained + 128 → (t.chan c).state = .ending ∧ (t.chan c).drained = m ∧
          (t.chan c).file.map File.trailing = some (m - ((u.chan c).drained + 64)))) := by
  obtain ⟨run, _⟩ := recordReady_iff.mp h.ready
  obtain ⟨g, w, k⟩ := record_finishes h n
  have stays {ch : Channel} (e : ch = { u.chan c with drained := (u.chan c).drained + 64, file := some g }) :
      ch.state = .running ∧ ch.drained = (u.chan c).drained + 64 := by rw [e]; exact ⟨run, rfl⟩
  refine ⟨fun full => ?_, fun part => ⟨?_, fun total => ?_, fun m total => ⟨fun far => ?_, fun le lt => ?_⟩⟩⟩
  · rw [finishes_due h k full]
    exact ⟨run, rfl, rfl, rfl⟩
  · exact finishes_owes h k part
  · exact stays (finishes_on h k part fun m e => absurd (total.symm.trans e) (by simp))
  · exact stays (finishes_on h k part fun m' e => by
      obtain rfl := Option.some.inj (total.symm.trans e)
      exact far)
  · rw [finishes_ending h k part total le lt]
    exact ⟨rfl, rfl, rfl⟩

/-- A record for which there is no page: its channel is STALLED and owes nothing (R53). -/
theorem waiting_record (h : Takes u c f) (rejected : (u.recordIn c).rejected = false)
    (live : u.expiredOnArrival (u.recordKey c f) = false) (room : (u.recordJudged c f).gaps.length ≤ 256)
    (v : (u.recordJudged c f).verdict = .accepted) (stuck : ¬ Writes u c) :
    let t := (u.takeRecord c).settle
    (t.chan c).state = .stalled ∧ (t.chan c).drained = (u.chan c).drained + 64 ∧ (t.chan c).file.map File.commitDue = some false ∧
      (t.chan c).finalTotal = (u.chan c).finalTotal := by
  obtain ⟨_, _, due, _⟩ := recordReady_iff.mp h.ready
  obtain ⟨closed, full⟩ := not_or.mp stuck
  simp only [Option.isSome_iff_ne_none, ne_eq, not_not] at closed
  simp only [Bool.not_eq_true] at full
  obtain ⟨_, _, _, chan, _⟩ := record_stalled h full (u.recordIn c).corrected (u.groupOf (u.recordIn c).cls)
  rw [takeRecord_stalls h rejected live room v closed full]
  dsimp only
  rw [chan]
  refine ⟨rfl, rfl, congrArg some ?_, rfl⟩
  show f.commitDue = false
  simpa [h.file] using due

/-- A sweep that withdraws the file of channel c, which has a page without a committed record, while channel d waits first. -/
theorem withdrawn_sweep {bus : Bus} {i : SlipNo} {d : ChanNo} {rest : List ChanNo} {others : List SlipNo} {r : Rec} {g : Nat}
    (one : OneSlip bus i s) (off : i ∉ others) (held : bget s.desk.held i = .held) (other : byteAt (at_ bus s) (s.slipAt i) ≠ markTaken)
    (unlisted : ∀ a ∈ s.desk.list, a.slip ≠ i) (bound : s.chanOfSlip i = some c) (state : (s.chan c).state ≠ .ending)
    (closing : (s.chan c).closing = .none) (open_ : (s.chan c).file.isSome = true)
    (empty : ∃ p ∈ s.pool.pages, p.owner = some c ∧ p.committed = 0) (waits : s.feed.stalled = d :: rest) (ne : d ≠ c)
    (file : (s.chan d).file = some f) (keeps : f.held = some (r, g)) (closed : s.openPage d g = none)
    (legal : s.pool.legal = true) :
    let t := afterSweep bus i s others
    Resumed d s.pool.serial (fileKey f g) r t ∧ c ∉ t.feed.stalled ∧ ∀ p ∈ t.pool.pages, p.owner ≠ some c := by
  obtain ⟨h, open_⟩ := Option.isSome_iff_exists.mp open_
  obtain ⟨y, ends, eq⟩ := afterSweep_withdraws one off held other unlisted bound state
  have turn := turnOf_atTurn one
  have chan (e : ChanNo) : ((turnOf bus i s).setHeld i .withdrawn).chan e = s.chan e := turn.chan e
  have feed : ((turnOf bus i s).setHeld i .withdrawn).feed = s.feed := turn.feed
  have pool : ((turnOf bus i s).setHeld i .withdrawn).pool = s.pool := turn.pool
  generalize (turnOf bus i s).setHeld i .withdrawn = v at *
  have closingV : (v.chan c).closing = .none := by rw [chan]; exact closing
  have openV : (v.chan c).file = some h := by rw [chan]; exact open_
  have resumed := abort_resumed closingV openV (by rw [pool]; exact empty) (by rw [feed]; exact waits) ne
    (by rw [chan]; exact file) keeps (by rw [openPage, pool]; exact closed) (by rw [pool]; exact legal) .withdrawn none
  have aborted := abort_aborted closingV openV .withdrawn none
  rw [pool] at resumed
  rw [eq]
  have apart := ends.swept.apart c aborted.stalled
  exact ⟨ends.resumed resumed, apart.stalled aborted.stalled, apart.owner aborted.owner⟩

end Sys2Proof.Claims

namespace Sys2Proof
open Machine Machine.State Claims

/-- Settles O24: a finished record by the channel on which it is finished, an unreadable ring as an abort, and a sweep that withdraws
a file by the page that the abort frees. -/
theorem recordReachesItsEnd : Obligations.RecordReachesItsEnd := by
  unfold Obligations.RecordReachesItsEnd
  refine ⟨fun bus c f s acts ready file alone => ?_, fun bus i c d rest f r g s one _ held other unlisted bound state closing open_ empty
    waits ne file keeps closed legal => ?_⟩
  · intro d raw g expired j written finished a
    obtain ⟨ret, kept, _⟩ := recordTake_frame bus c s
    by_cases reads : (at_ bus s).readFails (s.ringAt c d) 64 = false
    · have h : Takes (at_ bus s) c f := ⟨ready, file, alone, reads⟩
      have goes := finished_record h
      refine ⟨_, exec_recordTake bus c acts, record_others (u := at_ bus s) h, ret, kept, fun _ => ⟨fun n => (goes n).1,
        fun n => (goes n).2, fun rejected live room v stuck => ?_⟩, fun bad => absurd (reads.symm.trans bad) (by simp)⟩
      exact waiting_record h rejected live room v stuck
    · have bad : (at_ bus s).readFails (s.ringAt c d) 64 = true := by simpa using reads
      obtain ⟨others, cut, ended⟩ := record_unread (u := at_ bus s) ready file alone bad
      refine ⟨_, exec_recordTake bus c acts, others, ret, kept, fun good => absurd (good.symm.trans bad) (by simp),
        fun _ => ⟨cut.state, cut.owner, cut.gaps, fun on => ⟨cut.sent on, fun fits => ?_⟩⟩⟩
      have ended := ended on fits
      exact ⟨ended.chan, ended.binding, ended.answered⟩
  · obtain ⟨others, off, _, goes⟩ := exec_sweep_turn one
    obtain ⟨resumed, free, noOwner⟩ := withdrawn_sweep one off held other unlisted bound state closing open_ empty waits ne file keeps
      closed legal
    exact ⟨_, goes, free, resumed.out, resumed.state, resumed.held, noOwner, resumed.page⟩

end Sys2Proof
end


section
/-! SUPPORT. What the restorations of a recovery leave of the notices, the share and the journal (R126, R174, R175, R195, R197), for O8. -/

namespace Sys2Proof.Machine.State

open Sys2Proof.Claims

variable {s t u : State}

/-! ## The relation -/

/-- A CLOSED gate stays so, no RESTARTS and no share changes, and the journal's store and line only grow, the store not at all while a
submission waits in the line (R175, R195). -/
structure Subdued (s t : State) : Prop where
  gate : s.desk.gateOpen = false → t.desk.gateOpen = false
  restarts : bget t.desk.counters Counter.restarts.index = bget s.desk.counters Counter.restarts.index
  share : t.lanes.share = s.lanes.share
  store : s.jnl.store <+: t.jnl.store
  line : s.jnl.line <+: t.jnl.line
  stuck : s.jnl.line ≠ [] → t.jnl.store = s.jnl.store

namespace Subdued

theorem of_same (desk : t.desk = s.desk) (share : t.lanes.share = s.lanes.share) (store : t.jnl.store = s.jnl.store)
    (line : t.jnl.line = s.jnl.line) : Subdued s t where
  gate h := by rw [desk]; exact h
  restarts := by rw [desk]
  share := share
  store := by rw [store]
  line := by rw [line]
  stuck _ := store

theorem refl (s : State) : Subdued s s := of_same rfl rfl rfl rfl

theorem trans (h : Subdued s t) (g : Subdued t u) : Subdued s u where
  gate closed := g.gate (h.gate closed)
  restarts := g.restarts.trans h.restarts
  share := g.share.trans h.share
  store := h.store.trans g.store
  line := h.line.trans g.line
  stuck waits := (g.stuck fun none => waits (List.prefix_nil.mp (none ▸ h.line))).trans (h.stuck waits)

/-- The parts of an engine that hold no notice, no lane and no journal. -/
theorem obeys : Obeys Subdued [.desk, .buf, .exec, .feed, .pool, .recon, .eds, .coder, .cat, .dir, .ret, .holds, .scrub, .media, .bus,
    .power] := by
  refine ⟨fun h g => h.trans g, fun p hp => ?_⟩
  cases p
  case notes | book | place | lanes | online | jnl | marks | regs | format => exact absurd hp (by decide)
  case desk => intro s a bs _ _; exact of_same (hostWrite_desk ..) (by rw [hostWrite_lanes]) (by rw [hostWrite_jnl]) (by rw [hostWrite_jnl])
  case buf => intro s a bs; exact of_same (hostWrite_desk ..) (by rw [hostWrite_lanes]) (by rw [hostWrite_jnl]) (by rw [hostWrite_jnl])
  case pool | cat | dir | ret | media => intro s f _; exact .of_same rfl rfl rfl rfl
  all_goals intro s f; exact .of_same rfl rfl rfl rfl

end Subdued

/-! ## Notices and entries -/

/-- A notice leaves a CLOSED gate so, whichever it is (R195). -/
theorem notice_gate (c : Counter) (closed : s.desk.gateOpen = false) : (s.notice c).desk.gateOpen = false := by
  have desk (u : State) : (u.writeCounter c).desk = u.desk := writeCounter_does (same_desk.mono rfl) c rfl
  unfold notice
  dsimp only
  split
  · rfl
  · rw [desk]
    exact closed

/-- A notice other than RESTARTS, which a CLOSED gate keeps from sending a message (R195). -/
theorem notice_subdued {c : Counter} (ne : c ≠ .restarts) (s : State) : Subdued s (s.notice c) where
  gate := notice_gate c
  restarts := notice_counter_ne ne.symm s
  share := congrArg Lanes.share (notice_does (same_lanes.mono rfl) c rfl)
  store := by rw [show (s.notice c).jnl = s.jnl from notice_does (same_jnl.mono rfl) c rfl]
  line := by rw [show (s.notice c).jnl = s.jnl from notice_does (same_jnl.mono rfl) c rfl]
  stuck _ := congrArg Journal.store (notice_does (same_jnl.mono rfl) c rfl)

theorem formRun_subdued (s : State) : Subdued s s.formRun := by
  obtain ⟨out, p, jnl⟩ := formRun_jnl s
  exact .of_same (formRun_does (same_desk.mono rfl) rfl) (formRun_queues s).share (by rw [jnl]) (by rw [jnl])

theorem pump_subdued (s : State) : Subdued s s.pump := by
  have jnl : s.pump.jnl = s.formRun.jnl := grantLanes_does (same_jnl.mono rfl) rfl
  refine (formRun_subdued s).trans (.of_same (grantLanes_does (same_desk.mono rfl) rfl) (grantLanes_share _) ?_ ?_)
  · rw [jnl]
  · rw [jnl]

/-- Entries taken: of what Subdued says only the store moves, and no submission waits. -/
theorem takeEntries_subdued (es : List EntryBody) (second : Bool) (empty : s.jnl.line = []) : Subdued s (takeEntries second es s) := by
  induction es generalizing second s with
  | nil => exact .refl s
  | cons b bs ih =>
    have taken : Subdued s (s.takeEntry second b) := by
      have entered (e : Entry) :
          Subdued s (s.onJnl fun j => { j with store := j.store ++ [e], buffer := j.buffer ++ [e], head := j.head + 1 }) :=
        ⟨id, rfl, rfl, List.prefix_append _ _, List.prefix_rfl, fun waits => absurd empty waits⟩
      unfold takeEntry
      dsimp only
      split
      · exact (entered _).trans (notice_subdued (by decide) _)
      · exact entered _
    exact taken.trans (ih true (by rw [takeEntry_jnl]; exact empty))

theorem submit_subdued (sub : Submission) (s : State) : Subdued s (s.submit sub).1 := by
  unfold submit
  split
  · exact .refl s
  · split
    · rename_i takes
      have taken : Subdued s (takeEntries false sub.entries s) :=
        takeEntries_subdued sub.entries false (List.isEmpty_iff.mp (Bool.and_eq_true_iff.mp takes).1)
      unfold takeSubmission
      dsimp only
      split
      · exact taken.trans (formRun_subdued _)
      · exact taken
    · exact ⟨id, rfl, rfl, List.prefix_rfl, List.prefix_append _ _, fun _ => rfl⟩

theorem log_subdued (k : EntryKind) (sub : Subject) (v1 : Int) (v2 v3 : Nat) (s : State) : Subdued s (s.log k sub v1 v2 v3) :=
  submit_subdued _ s

theorem postEach_subdued (who : Producer) (es : List EntryBody) (s : State) : Subdued s (postEach who es s) := by
  induction es generalizing s with
  | nil => exact .refl s
  | cons e es ih => exact (submit_subdued _ s).trans (ih _)

/-! ## The catalog and the editions -/

theorem dropEdition_subdued (i : SlotNo) (s : State) : Subdued s (s.dropEdition i) :=
  (onSlot_does (Subdued.obeys.mono rfl) i _ (.refl s)).trans (log_subdued ..)

theorem unbindEdition_subdued (ref : Option EditionRef) (s : State) : Subdued s (s.unbindEdition ref) := by
  unfold unbindEdition
  dsimp only
  split
  · exact .refl s
  · rename_i r
    have less := onSlot_does (Subdued.obeys.mono rfl) r.slot (fun x => { x with refs := x.refs - 1 }) (.refl s)
    split
    · exact less.trans (dropEdition_subdued _ _)
    · exact less

theorem judgeWatch_subdued (s : State) : Subdued s s.judgeWatch := by
  unfold judgeWatch
  dsimp only
  split
  · exact .refl s
  · have side : Subdued s (s.onCat fun c => { c with watch := { c.watch with low := s.sideLow } }) := .of_same rfl rfl rfl rfl
    have crosses := side.trans (notice_subdued (c := .freeWatch) (by decide) _)
    repeat' split
    · exact crosses
    · exact side
    · exact crosses
    · exact side

theorem closeSegment_subdued (cause : CloseCause) (n : Nat) (s : State) : Subdued s (s.closeSegment cause n) := by
  unfold closeSegment
  split
  · rename_i g _
    have first : Subdued s (s.onDir g.key fun d => { d with filling := none }) := onDir_does (Subdued.obeys.mono rfl) g.key _ (.refl s)
    dsimp only
    split
    · have freed := setContent_does (Subdued.obeys.mono rfl) n .free first
      have unbound := (freed.trans (judgeWatch_subdued _)).trans (unbindEdition_subdued g.edition _)
      exact (dropFromDir_does (Subdued.obeys.mono rfl) g.key unbound).trans (log_subdued ..)
    · exact (setContent_does (Subdued.obeys.mono rfl) n _ first).trans (log_subdued ..)
  · exact .refl s

theorem closeAll_subdued (cause : CloseCause) (ns : List Nat) (s : State) : Subdued s (closeAll cause ns s) := by
  induction ns generalizing s with
  | nil => exact .refl s
  | cons n ns ih => exact (closeSegment_subdued cause n s).trans (ih _)

theorem eraseDone_subdued (n : Nat) (ok : Bool) (s : State) : Subdued s (s.eraseDone n ok) := by
  unfold eraseDone
  split
  · rename_i g _ _ _
    dsimp only
    refine .trans ?_ (unbindEdition_subdued ..)
    have judged (x : Extent) : Subdued s (((s.setExtent n x).dropFromDir g.key).judgeWatch) :=
      (dropFromDir_does (s0 := s) (s := s.setExtent n x) (Subdued.obeys.mono rfl) g.key (.of_same rfl rfl rfl rfl)).trans
        (judgeWatch_subdued _)
    split
    · exact judged _
    · exact (judged _).trans (log_subdued ..)
    · exact (judged _).trans (log_subdued ..)
  · exact .refl s

theorem eraseArrives_subdued (n : Nat) (ok : Bool) (s : State) : Subdued s (s.eraseArrives n ok) := by
  unfold eraseArrives
  split
  · have marked : Subdued s (if ok then s else s.markFault n) := by
      split
      · exact .refl s
      · exact markFault_does (Subdued.obeys.mono rfl) n (.refl s)
    dsimp only
    generalize (if ok then s else s.markFault n) = x at marked ⊢
    split
    · exact (marked.trans (submit_subdued _ _)).trans (eraseDone_subdued _ _ _)
    · exact marked.trans (submit_subdued _ _)
  · exact .refl s

theorem issueErase_subdued (n : Nat) (s : State) : Subdued s (s.issueErase n) := by
  unfold issueErase
  split
  · exact .of_same rfl rfl rfl rfl
  · exact eraseArrives_subdued _ _ _

theorem reissueAll_subdued (ns : List Nat) (s : State) : Subdued s (reissueAll ns s) := by
  induction ns generalizing s with
  | nil => exact .refl s
  | cons n ns ih => exact (issueErase_subdued n s).trans (ih _)

/-! ## The coder -/

theorem runCoder_subdued (s : State) : Subdued s s.runCoder :=
  runCoder_keeps (Subdued.obeys.mono rfl) (fun _ h => h.trans (log_subdued ..)) (.refl s)

theorem settle_subdued (s : State) : Subdued s s.settle :=
  ((resumeStalled_does (Subdued.obeys.mono rfl) (.refl s)).trans (runCoder_subdued _)).trans (pump_subdued _)

/-! ## The restorations -/

theorem recoverCatalog_subdued (s : State) : Subdued s s.recoverCatalog :=
  ((Subdued.of_same rfl rfl rfl rfl : Subdued s (s.onSegments _)).trans (closeAll_subdued _ _ _)).trans (reissueAll_subdued _ _)

theorem abortBinding_subdued (c : ChanNo) (s : State) : Subdued s (s.abortBinding c) := by
  unfold abortBinding
  split
  · exact ((submit_subdued _ s).trans (postEach_subdued _ _ _)).trans (.of_same rfl rfl rfl rfl)
  · exact .of_same rfl rfl rfl rfl

theorem recoverFeed_subdued (s : State) : Subdued s s.recoverFeed := by
  have all (cs : List ChanNo) (x : State) : Subdued x (cs.foldl (fun t c => t.abortBinding c) x) := by
    induction cs generalizing x with
    | nil => exact .refl x
    | cons c cs ih => exact (abortBinding_subdued c x).trans (ih _)
  exact (Subdued.of_same rfl rfl rfl rfl : Subdued s (s.onPages fun ps => ps.map recoverPage).freePages).trans (all _ _)

theorem recoverEditions_subdued (s : State) : Subdued s s.recoverEditions := by
  have recount (i : SlotNo) (x : State) : Subdued x (x.recountSlot i) := by
    have slot := onSlot_does (Subdued.obeys.mono rfl) i (fun y => { y with refs := x.boundTo i }) (.refl x)
    unfold recountSlot
    dsimp only
    split
    · exact slot.trans (dropEdition_subdued _ _)
    · exact slot
  have all (is : List SlotNo) (x : State) : Subdued x (is.foldl (fun t i => t.recountSlot i) x) := by
    induction is generalizing x with
    | nil => exact .refl x
    | cons i is ih => exact (recount i x).trans (ih _)
  exact all _ s

/-- The restorations between the journal's and the coder's. -/
theorem restoration_subdued (cause : StartCause) (s : State) : ∀ k, 1 ≤ k → k ≤ 6 → Subdued s (restoration cause k s)
  | 1, _, _ => recoverCatalog_subdued s
  | 2, _, _ => recoverFeed_subdued s
  | 3, _, _ => recoverRecon_does (Subdued.obeys.mono rfl) (.refl s)
  | 4, _, _ => recoverEditions_subdued s
  | 5, _, _ => recoverRetention_does (Subdued.obeys.mono rfl) (.refl s)
  | 6, _, _ => recoverAudit_does (Subdued.obeys.mono rfl) (.refl s)

end Sys2Proof.Machine.State
end


section
/-! SUPPORT. The recovery's restorations in order, and the walks that the executor then has (R154, R183, R190, R197), for O8. -/

namespace Sys2Proof.Machine.State

open Sys2Proof.Claims

variable {d s s0 t u r x : State} {k : Nat}

/-! ## What no restoration changes -/

/-- The power, the stamp, the engine state, the retention unit, the journal's marks, the lanes that are ONLINE, and of the desk unit all
but its notice fields stand. -/
structure Standing (s t : State) : Prop where
  powered : t.powered = s.powered
  stamp : t.stamp = s.stamp
  pending : t.pending = s.pending
  engine : t.engine = s.engine
  ret : t.ret = s.ret
  release : t.jnl.release = s.jnl.release
  settled : t.jnl.settled = s.jnl.settled
  desk : t.desk = s.desk.withNotes t.desk
  online : ∀ l, (bget t.lanes.lane l).online = (bget s.lanes.lane l).online

namespace Standing

theorem refl (s : State) : Standing s s := ⟨rfl, rfl, rfl, rfl, rfl, rfl, rfl, rfl, fun _ => rfl⟩

theorem trans (h : Standing s t) (g : Standing t u) : Standing s u :=
  ⟨g.powered.trans h.powered, g.stamp.trans h.stamp, g.pending.trans h.pending, g.engine.trans h.engine, g.ret.trans h.ret,
    g.release.trans h.release, g.settled.trans h.settled, by rw [g.desk, h.desk]; rfl, fun l => (g.online l).trans (h.online l)⟩

theorem obeys : Obeys Standing [.notes, .desk, .buf, .exec, .feed, .pool, .recon, .eds, .coder, .cat, .dir, .lanes, .scrub, .jnl] := by
  refine ⟨fun h g => h.trans g, fun p hp => ?_⟩
  cases p
  case book | place | online | ret | holds | marks | format | media | regs | bus | power => exact absurd hp (by decide)
  case notes => exact fun s f hf => ⟨rfl, rfl, rfl, rfl, rfl, rfl, rfl, hf s.desk, fun _ => rfl⟩
  case lanes => exact fun s f hf => ⟨rfl, rfl, rfl, rfl, rfl, rfl, rfl, rfl, hf s.lanes⟩
  case jnl => exact fun s f hf => ⟨rfl, rfl, rfl, rfl, rfl, (hf s.jnl).1, (hf s.jnl).2, rfl, fun _ => rfl⟩
  case desk => exact fun s a bs _ _ => by rw [hostWrite_eq]; exact ⟨rfl, rfl, rfl, rfl, rfl, rfl, rfl, rfl, fun _ => rfl⟩
  case buf => exact fun s a bs => by rw [hostWrite_eq]; exact ⟨rfl, rfl, rfl, rfl, rfl, rfl, rfl, rfl, fun _ => rfl⟩
  case pool | cat | dir => exact fun s f _ => ⟨rfl, rfl, rfl, rfl, rfl, rfl, rfl, rfl, fun _ => rfl⟩
  all_goals exact fun s f => ⟨rfl, rfl, rfl, rfl, rfl, rfl, rfl, rfl, fun _ => rfl⟩

end Standing

/-- The restorations before the last, for every relation that their parts respect. -/
theorem restoration_obeys {R : State → State → Prop}
    (o : Obeys R [.notes, .desk, .exec, .feed, .pool, .recon, .eds, .cat, .dir, .lanes, .jnl]) (cause : StartCause) (h : R s0 s) :
    ∀ k, k ≤ 6 → R s0 (restoration cause k s)
  | 0, _ => recoverJournal_does (o.mono rfl) cause h
  | 1, _ => recoverCatalog_does (o.mono rfl) h
  | 2, _ => recoverFeed_does (o.mono rfl) h
  | 3, _ => recoverRecon_does (o.mono rfl) h
  | 4, _ => recoverEditions_does (o.mono rfl) h
  | 5, _ => recoverRetention_does (o.mono rfl) h
  | 6, _ => recoverAudit_does (o.mono rfl) h

/-- No restoration but the feed unit's touches the feed unit. -/
theorem restoration_feed (cause : StartCause) (s : State) : ∀ k, k ≤ 6 → k ≠ 2 → (restoration cause k s).feed = s.feed
  | 0, _, _ => recoverJournal_does (same_feed.mono rfl) cause rfl
  | 1, _, _ => recoverCatalog_does (same_feed.mono rfl) rfl
  | 2, _, ne => absurd rfl ne
  | 3, _, _ => recoverRecon_does (same_feed.mono rfl) rfl
  | 4, _, _ => recoverEditions_does (same_feed.mono rfl) rfl
  | 5, _, _ => recoverRetention_does (same_feed.mono rfl) rfl
  | 6, _, _ => recoverAudit_does (same_feed.mono rfl) rfl

/-- And that one touches the bindings alone (R64). -/
theorem recoverFeed_idle (s : State) : s.recoverFeed.feed.chans = s.feed.chans ∧ s.recoverFeed.feed.stalled = s.feed.stalled := by
  have one (c : ChanNo) (x : State) : (x.abortBinding c).feed.chans = x.feed.chans ∧ (x.abortBinding c).feed.stalled = x.feed.stalled := by
    unfold abortBinding
    split
    · have same (who : Producer) (es fs : List EntryBody) : (postEach who fs (x.post who es)).feed = x.feed :=
        postEach_does (same_feed.mono rfl) _ _ (post_does (same_feed.mono rfl) _ _ rfl)
      rw [setBinding, onFeed_feed, same]
      exact ⟨rfl, rfl⟩
    · exact ⟨rfl, rfl⟩
  have all (cs : List ChanNo) (x : State) : (cs.foldl (fun t c => t.abortBinding c) x).feed.chans = x.feed.chans ∧
      (cs.foldl (fun t c => t.abortBinding c) x).feed.stalled = x.feed.stalled := by
    induction cs generalizing x with
    | nil => exact ⟨rfl, rfl⟩
    | cons c cs ih => exact ⟨(ih _).1.trans (one c x).1, (ih _).2.trans (one c x).2⟩
  have pages : (s.onPages fun ps => ps.map recoverPage).freePages.feed = s.feed := rfl
  unfold recoverFeed
  rw [← pages]
  exact all _ _

/-- No restoration but the retention unit's touches the executor. -/
theorem restoration_exec (cause : StartCause) (s : State) : ∀ k, k ≤ 6 → k ≠ 5 → (restoration cause k s).exec = s.exec
  | 0, _, _ => recoverJournal_does (same_exec.mono rfl) cause rfl
  | 1, _, _ => recoverCatalog_does (same_exec.mono rfl) rfl
  | 2, _, _ => recoverFeed_does (same_exec.mono rfl) rfl
  | 3, _, _ => recoverRecon_does (same_exec.mono rfl) rfl
  | 4, _, _ => recoverEditions_does (same_exec.mono rfl) rfl
  | 5, _, ne => absurd rfl ne
  | 6, _, _ => recoverAudit_does (same_exec.mono rfl) rfl

/-! ## RESTART (R183) -/

/-- What the journal takes, or what waits in its line, of the RESTART entry of a recovery that begins on the engine d. -/
structure Restarted (b : EntryBody) (d t : State) : Prop where
  store : d.jnl.store <+: t.jnl.store
  took : d.jnl.buffer.length < 4096 ∧ 0 < d.room →
    (∃ e ∈ t.jnl.store, e.seq = d.jnl.head ∧ e.day = d.ret.day ∧ e.second = false ∧ e.body = b) ∧
      bget t.desk.counters Counter.restarts.index = bget d.desk.counters Counter.restarts.index + 1
  waits : ¬ (d.jnl.buffer.length < 4096 ∧ 0 < d.room) → (t.jnl.line.head?.map Submission.entries) = some [b] ∧
    t.jnl.store = d.jnl.store ∧ bget t.desk.counters Counter.restarts.index = bget d.desk.counters Counter.restarts.index

theorem Restarted.subdued {b : EntryBody} (h : Restarted b d s) (g : Subdued s t) : Restarted b d t where
  store := h.store.trans g.store
  took fits := by
    obtain ⟨⟨e, he, entry⟩, count⟩ := h.took fits
    exact ⟨⟨e, g.store.subset he, entry⟩, g.restarts.trans count⟩
  waits full := by
    obtain ⟨first, store, count⟩ := h.waits full
    obtain ⟨x, hx, entries⟩ := Option.map_eq_some_iff.mp first
    obtain ⟨xs, line⟩ : ∃ xs, s.jnl.line = x :: xs := List.head?_eq_some_iff.mp hx
    obtain ⟨ys, longer⟩ := g.line
    refine ⟨?_, (g.stuck (by simp [line])).trans store, g.restarts.trans count⟩
    rw [← longer, line]
    exact congrArg some entries

end Sys2Proof.Machine.State
end


section
/-! SUPPORT. A recovery from its begin, restoration by restoration, to READY (R154, R183, R190, R197), for O8. -/

namespace Sys2Proof.Machine.State

open Sys2Proof.Claims

variable {d s t r x : State} {k : Nat}

/-! ## The first restoration -/

/-- The RESTART entry of a power-on. -/
def restartEntry (d : State) : EntryBody := EntryBody.mk0 .restart .none 1 d.jnl.settled (d.jnl.head - d.jnl.settled)

def restartSub (d : State) : Submission := { entries := [restartEntry d], who := .block, acts := [.restarted] }

/-- One entry taken. -/
theorem takeSubmission_store (b : EntryBody) (s : State) : (s.takeSubmission [b]).jnl.store = s.jnl.store ++ [s.entryOf false b] := by
  have taken : (takeEntries false [b] s).jnl.store = s.jnl.store ++ [s.entryOf false b] := by
    rw [takeEntries, takeEntries, takeEntry_jnl]
  unfold takeSubmission
  dsimp only
  split
  · obtain ⟨out, p, jnl⟩ := formRun_jnl (takeEntries false [b] s)
    rw [jnl]
    exact taken
  · exact taken

/-- Where there is room the entry is taken and RESTARTS advances; otherwise it waits first in the line (R183). -/
theorem recoverJournal_restarted (recovers : d.engine = .recovering) (empty : d.jnl.line = []) (closed : d.desk.gateOpen = false) :
    let t := recoverJournal .powerOn d
    Restarted (restartEntry d) d t ∧ t.desk.gateOpen = false ∧ t.lanes.share = d.lanes.share := by
  have eq : recoverJournal .powerOn d =
      if (d.formRun.submit (restartSub d)).2 then (d.formRun.submit (restartSub d)).1.notice .restarts
      else (d.formRun.submit (restartSub d)).1 := rfl
  obtain ⟨out, p, jnl⟩ := formRun_jnl d
  have formed := formRun_subdued d
  have subdued := submit_subdued (restartSub d) d.formRun
  have on : d.formRun.journalOff = false := by
    have : d.formRun.engine = .recovering := (formRun_does (same_engine.mono rfl) rfl : _ = d.engine).trans recovers
    simp [journalOff, this]
  have ret : d.formRun.ret = d.ret := formRun_does (same_ret.mono rfl) rfl
  have line : d.formRun.jnl.line = [] := by rw [jnl]; exact empty
  have takes : d.formRun.canTake (restartSub d) = decide (d.jnl.buffer.length < 4096 ∧ 0 < d.room) := by
    unfold canTake State.room windowSize
    rw [jnl]
    refine decide_eq_decide.mpr ?_
    simp only [restartSub, List.length_singleton, Config.journalBuffer, Config.journalWindow]
    omega
  have goes : d.formRun.submit (restartSub d) = if d.jnl.buffer.length < 4096 ∧ 0 < d.room then
      (d.formRun.takeSubmission [restartEntry d], true)
      else (d.formRun.onJnl fun j => { j with line := j.line ++ [restartSub d] }, false) := by
    unfold submit
    rw [if_neg (by simp [on]), line, takes]
    simp only [List.isEmpty_nil, Bool.true_and, decide_eq_true_eq]
    rfl
  have start := formed.trans subdued
  rw [eq]
  by_cases fits : d.jnl.buffer.length < 4096 ∧ 0 < d.room
  · rw [goes, if_pos fits] at start ⊢
    dsimp only at start ⊢
    rw [if_pos rfl]
    have store := takeSubmission_store (restartEntry d) d.formRun
    generalize d.formRun.takeSubmission [restartEntry d] = y at *
    have journal : (y.notice .restarts).jnl = y.jnl := notice_does (same_jnl.mono rfl) .restarts rfl
    refine ⟨⟨by rw [journal]; exact start.store, fun _ => ⟨⟨d.formRun.entryOf false (restartEntry d), ?_, ?_, ?_, rfl, rfl⟩, ?_⟩,
      fun full => absurd fits full⟩, notice_gate _ (start.gate closed), ?_⟩
    · rw [journal, store]
      exact List.mem_append_right _ List.mem_cons_self
    · show d.formRun.jnl.head = _
      rw [jnl]
    · show d.formRun.ret.day = _
      rw [ret]
    · rw [notice_counters, bget_bset_self, start.restarts]
    · exact (congrArg Lanes.share (notice_does (same_lanes.mono rfl) .restarts rfl : _ = y.lanes)).trans start.share
  · rw [goes, if_neg fits] at start ⊢
    dsimp only at start ⊢
    rw [if_neg (by decide)]
    refine ⟨⟨start.store, fun c => absurd c fits, fun _ => ⟨?_, ?_, start.restarts⟩⟩, start.gate closed, start.share⟩
    · show Option.map _ (d.formRun.jnl.line ++ [restartSub d]).head? = _
      rw [line]
      rfl
    · show d.formRun.jnl.store = _
      rw [jnl]

/-! ## The restorations in order -/

theorem Restarted.congr {b : EntryBody} {e : State} (h : Restarted b d t) (jnl : e.jnl = d.jnl) (ret : e.ret = d.ret)
    (counters : e.desk.counters = d.desk.counters) : Restarted b e t := by
  obtain ⟨store, took, waits⟩ := h
  have room : e.room = d.room := by rw [State.room, State.room, windowSize, windowSize, jnl]
  constructor <;> rw [jnl]
  · exact store
  · rw [room, ret, counters]
    exact took
  · rw [room, counters]
    exact waits

/-- The walks that are pending in the retention unit, in group order (R154 step 3). -/
def pendingWalks (s : State) : List Op := ((indices 4).filter fun g => (bget s.ret.groups g).walk.isSome).map recoveredWalk

/-- A recovery that began on the engine d, with k of the first seven restorations made. -/
structure Recovered (d r : State) (k : Nat) : Prop where
  stands : Standing d r
  exec : r.exec = { Exec.blank with waiting := if 6 ≤ k then pendingWalks d else [] }
  idle : r.feed.chans = d.feed.chans ∧ r.feed.stalled = d.feed.stalled
  bindings : 3 ≤ k → ∀ c, bget r.feed.bindings c = none
  gate : r.desk.gateOpen = false
  share : r.lanes.share = d.lanes.share
  begun : k = 0 → r.jnl = d.jnl ∧ r.desk.counters = d.desk.counters
  restart : 1 ≤ k → Restarted (restartEntry d) d r

namespace Recovered

/-- The count of the restorations is no part of what they restore. -/
theorem counted (h : Recovered d r k) (m : Recovery) : Recovered d { r with recovery := m } k :=
  { h with
    stands := h.stands.trans ⟨rfl, rfl, rfl, rfl, rfl, rfl, rfl, rfl, fun _ => rfl⟩
    restart := fun made => (h.restart made).subdued (.of_same rfl rfl rfl rfl) }

theorem pump (h : Recovered d r k) (made : 1 ≤ k) : Recovered d r.pump k := by
  have subdued := pump_subdued r
  have feed : r.pump.feed = r.feed := pump_does (same_feed.mono rfl) rfl
  exact
    { stands := pump_does (Standing.obeys.mono rfl) h.stands
      exec := (pump_does (same_exec.mono rfl) rfl : _ = r.exec).trans h.exec
      idle := by rw [feed]; exact h.idle
      bindings := by rw [feed]; exact h.bindings
      gate := subdued.gate h.gate
      share := subdued.share.trans h.share
      begun := fun none => absurd none (by omega)
      restart := fun made => (h.restart made).subdued subdued }

/-- The restoration that comes next. -/
theorem restoration (h : Recovered d r k) (recovers : d.engine = .recovering) (empty : d.jnl.line = []) (le : k ≤ 6) :
    Recovered d (restoration .powerOn k r) (k + 1) := by
  have journal : k = 0 → Restarted (restartEntry d) d (State.restoration .powerOn k r) ∧
      (State.restoration .powerOn k r).desk.gateOpen = false ∧ (State.restoration .powerOn k r).lanes.share = d.lanes.share := by
    rintro rfl
    obtain ⟨jnl, counters⟩ := h.begun rfl
    have entry : restartEntry r = restartEntry d := by rw [restartEntry, restartEntry, jnl]
    obtain ⟨restarted, gate, share⟩ := recoverJournal_restarted (h.stands.engine.trans recovers) (by rw [jnl]; exact empty) h.gate
    rw [entry] at restarted
    exact ⟨restarted.congr jnl.symm h.stands.ret.symm counters.symm, gate, share.trans h.share⟩
  have later (made : k ≠ 0) : Subdued r (State.restoration .powerOn k r) := restoration_subdued .powerOn r k (by omega) le
  have feeds : State.restoration .powerOn 2 r = r.recoverFeed := rfl
  refine ⟨restoration_obeys (Standing.obeys.mono rfl) .powerOn h.stands k le, ?_, ?_, fun three => ?_, ?_, ?_,
    fun none => absurd none (by omega), fun _ => ?_⟩
  · by_cases five : k = 5
    · subst five
      have walks : pendingWalks r = pendingWalks d := by rw [pendingWalks, pendingWalks, h.stands.ret]
      show { r.exec with waiting := pendingWalks r } = _
      rw [h.exec, walks]
      rfl
    · have same : (6 ≤ k + 1) ↔ 6 ≤ k := by omega
      rw [restoration_exec .powerOn r k le five, h.exec]
      simp only [same]
  · by_cases two : k = 2
    · subst two
      obtain ⟨chans, stalled⟩ := recoverFeed_idle r
      rw [feeds]
      exact ⟨chans.trans h.idle.1, stalled.trans h.idle.2⟩
    · rw [restoration_feed .powerOn r k le two]
      exact h.idle
  · by_cases two : k = 2
    · subst two
      rw [feeds]
      exact recoverFeed_bindings r
    · rw [restoration_feed .powerOn r k le two]
      exact h.bindings (by omega)
  · by_cases none : k = 0
    · exact (journal none).2.1
    · exact (later none).gate h.gate
  · by_cases none : k = 0
    · exact (journal none).2.2
    · exact (later none).share.trans h.share
  · by_cases none : k = 0
    · exact (journal none).1
    · exact (h.restart (by omega)).subdued (later none)

end Recovered

theorem restoreTimes_succ (n : Nat) (s : State) : restoreTimes (n + 1) s = (restoreTimes n s).restoreNext := by
  induction n generalizing s with
  | zero => rfl
  | succ n ih => exact ih s.restoreNext

theorem restoreNext_recovery (recovers : r.engine = .recovering) (le : r.recovery.made ≤ 6) :
    r.restoreNext.recovery = { r.recovery with made := r.recovery.made + 1 } := by
  rw [restoreNext_eq recovers rfl]
  generalize ex : ({ r with recovery := { r.recovery with made := r.recovery.made + 1 } } : State) = x
  have same : (State.restoration r.recovery.cause r.recovery.made x).pump.recovery = x.recovery :=
    pump_does (same_recovery.mono rfl) (restoration_obeys (same_recovery.mono rfl) _ rfl _ le)
  rw [same, ← ex]

/-- The first restorations of a recovery. -/
theorem restoreTimes_recovered (start : Recovered d d 0) (recovers : d.engine = .recovering) (empty : d.jnl.line = [])
    (recovery : d.recovery = Recovery.start .powerOn) : ∀ n, n ≤ 7 →
    Recovered d (restoreTimes n d) n ∧ (restoreTimes n d).recovery = { cause := .powerOn, made := n }
  | 0, _ => ⟨start, recovery⟩
  | n + 1, le => by
    obtain ⟨h, count⟩ := restoreTimes_recovered start recovers empty recovery n (by omega)
    rw [restoreTimes_succ]
    generalize restoreTimes n d = r at *
    have made : r.recovery.made = n := by rw [count]
    have cause : r.recovery.cause = .powerOn := by rw [count]
    have on := h.stands.engine.trans recovers
    refine ⟨?_, by rw [restoreNext_recovery on (by omega), count]⟩
    rw [restoreNext_eq on made, cause]
    exact ((h.counted _).restoration recovers empty (by omega)).pump (by omega)

end Sys2Proof.Machine.State
end


section
/-! SUPPORT. The last restoration: the engine READY, and the first of the pending walks chosen (R121, R154, R190, R197), for O8. -/

namespace Sys2Proof.Machine.State

open Sys2Proof.Claims

variable {d s t r z : State} {k : Nat} {os : List Op}

/-! ## The choice among the walks -/

/-- Among operations of one priority the first is chosen (R190). -/
theorem leastPrio_first (same : ∀ o ∈ os, o.prio = 0) : leastPrio os = os.head? := by
  induction os with
  | nil => rfl
  | cons o os ih =>
    have rest := ih fun q hq => same q (List.mem_cons_of_mem _ hq)
    have first := same o List.mem_cons_self
    unfold leastPrio
    split
    · rw [if_neg (by omega)]
      rfl
    · rfl

theorem pendingWalks_prio (s : State) : ∀ o ∈ pendingWalks s, o.prio = 0 := by
  intro o ho
  obtain ⟨g, _, rfl⟩ := List.mem_map.mp ho
  rfl

theorem pendingWalks_later (s : State) : ∀ o ∈ pendingWalks s, GoesOnLater o := by
  intro o ho
  obtain ⟨g, _, rfl⟩ := List.mem_map.mp ho
  exact ⟨rfl, fun _ _ _ _ e => by cases e⟩

/-- The walks have numbers of their own. -/
theorem pendingWalks_apart (s : State) : (pendingWalks s).Pairwise fun a b => a.adm ≠ b.adm := by
  refine List.pairwise_map.mpr (((indices_nodup 4).filter _).imp fun {a b} ne same => ne (Fin.ext ?_))
  have : 2 ^ 64 + a.val = 2 ^ 64 + b.val := same
  omega

/-- The first walk runs, and the others wait behind it in their order. -/
theorem chosen_walks (exec : z.exec = { Exec.blank with waiting := os }) (same : ∀ o ∈ os, o.prio = 0)
    (apart : os.Pairwise fun a b => a.adm ≠ b.adm) :
    z.chosen.exec.suspended = [] ∧ z.chosen.exec.running.toList ++ z.chosen.exec.waiting = os := by
  have pick : z.pick = os.head? := by
    unfold State.pick
    rw [exec]
    exact leastPrio_first same
  unfold chosen
  rw [pick]
  cases os with
  | nil =>
    dsimp only [List.head?_nil]
    rw [exec]
    exact ⟨rfl, rfl⟩
  | cons o os =>
    have others : os.filter (fun x => x.adm != o.adm) = os :=
      List.filter_eq_self.mpr fun q hq => bne_iff_ne.mpr ((List.pairwise_cons.mp apart).1 q hq).symm
    dsimp only [List.head?_cons]
    unfold makeRunning
    rw [onExec_exec, exec]
    refine ⟨rfl, ?_⟩
    simp [others]

/-! ## READY -/

/-- A start-up's recovery, whatever it has made: what stands of the engine d on which it began, but for the engine state. -/
structure Started (d t : State) : Prop where
  stands : Standing { d with engine := t.engine } t
  chans : t.feed.chans = d.feed.chans
  gate : t.desk.gateOpen = false
  share : t.lanes.share = d.lanes.share

theorem Recovered.started (h : Recovered d r k) : Started d r :=
  ⟨⟨h.stands.powered, h.stands.stamp, h.stands.pending, rfl, h.stands.ret, h.stands.release, h.stands.settled, h.stands.desk,
    h.stands.online⟩, h.idle.1, h.gate, h.share⟩

/-- The coder's restoration: the engine is READY, nothing but what follows of itself has been done, and a walk is chosen. -/
theorem recoverCoder_starts (h : Recovered d r 7) (alone : d.feed.stalled = []) :
    let t := r.recoverCoder.pump
    Started d t ∧ t.engine = .ready ∧ Restarted (restartEntry d) d t ∧ (∀ c, bget t.feed.bindings c = none) ∧
      t.exec.suspended = [] ∧ t.exec.running.toList ++ t.exec.waiting = pendingWalks d := by
  have ready := recoverCoder_ready r
  generalize hz : ({ r with engine := .ready, recovery := Recovery.start .powerOn } : State) = z
  have eq : r.recoverCoder = z.settleOps := by rw [← hz]; rfl
  have subd : Subdued r z := by rw [← hz]; exact .of_same rfl rfl rfl rfl
  have exec : z.exec = { Exec.blank with waiting := pendingWalks d } := by
    rw [← hz]
    exact h.exec
  have engine : z.engine ≠ .recovering := by rw [← hz]; exact EngineState.noConfusion
  have feed : z.feed = r.feed := by rw [← hz]
  have begun : Standing { d with engine := z.engine } z := by
    rw [← hz]
    exact ⟨h.stands.powered, h.stands.stamp, h.stands.pending, rfl, h.stands.ret, h.stands.release, h.stands.settled, h.stands.desk,
      h.stands.online⟩
  have chooses : z.nextOp = z.chosen := nextOp_of_goesOn (by rw [exec]; rfl) engine fun q hq => by
    rw [exec] at hq
    exact pendingWalks_later d q hq
  have walks := chosen_walks exec (pendingWalks_prio d) (pendingWalks_apart d)
  have rest := chosen_rest z
  rw [eq, settleOps, chooses] at ready ⊢
  generalize z.chosen = y at *
  have later : Subdued z y.settle.pump := by
    have same : Subdued z y := by rw [rest]; exact .of_same rfl rfl rfl rfl
    exact (same.trans (settle_subdued y)).trans (pump_subdued _)
  have stands : Standing z y.settle.pump := by
    have same : Standing z y := by rw [rest]; exact ⟨rfl, rfl, rfl, rfl, rfl, rfl, rfl, rfl, fun _ => rfl⟩
    exact pump_does (Standing.obeys.mono rfl) (settle_does (Standing.obeys.mono rfl) same)
  have feedY : y.feed = z.feed := by rw [rest]; rfl
  have feedT : y.settle.pump.feed = r.feed :=
    ((pump_does (same_feed.mono rfl) rfl : _ = y.settle.feed).trans
      (settle_quiet (.inl (by rw [feedY, feed, h.idle.2]; exact alone))).feed).trans (feedY.trans feed)
  have execT : y.settle.pump.exec = y.exec := (pump_does (same_exec.mono rfl) rfl : _ = y.settle.exec).trans (settle_exec y)
  have subdued : Subdued r y.settle.pump := subd.trans later
  refine ⟨⟨?_, ?_, subdued.gate h.gate, subdued.share.trans h.share⟩, ready, (h.restart (by decide)).subdued subdued, fun c => ?_, ?_, ?_⟩
  · rw [stands.engine]
    exact begun.trans stands
  · rw [feedT]
    exact h.idle.1
  · rw [feedT]
    exact h.bindings (by decide) c
  · rw [execT]
    exact walks.1
  · rw [execT]
    exact walks.2

end Sys2Proof.Machine.State
end


section
/-! Sitting 3: O8, power-on with the validity stamp. -/

namespace Sys2Proof.Machine.State

open Sys2Proof.Claims

variable {d s t : State}

/-- The engine on which the recovery of a power-on begins: what retained memory holds, and none of the working state. -/
structure Begins (present : BitVec 16) (s d : State) : Prop where
  powered : d.powered = true
  stamp : d.stamp = s.stamp
  pending : d.pending = s.pending
  engine : d.engine = .recovering
  recovery : d.recovery = Recovery.start .powerOn
  base : d.desk.base = 0
  period : d.desk.period = 0
  held : d.desk.held = Vector.replicate 64 .notHeld
  list : d.desk.list = []
  asked : d.desk.asked = false
  sweep : d.desk.sweep = none
  gate : d.desk.gateOpen = false
  nextAdm : d.desk.nextAdm = 0
  counters : d.desk.counters = s.desk.counters
  lanes : ∀ l, bget d.lanes.lane l = Lane.start (present.getLsbD l.val)
  share : d.lanes.share = 0
  exec : d.exec = Exec.blank
  chans : d.feed.chans = Vector.replicate 8 Channel.idle
  stalled : d.feed.stalled = []
  ret : d.ret = s.ret
  jnl : d.jnl = { s.jnl with out := none, pointer := 0, line := [] }

theorem dropWorking_begins (present : BitVec 16) (torn : List (Nat × Byte)) (s : State) : Begins present s
    { (((({ s with powered := true } : State).onDesk fun d => { d with base := 0, period := 0 }).tear torn).laneStart
        present).dropWorking with engine := .recovering, recovery := Recovery.start .powerOn } where
  powered := rfl
  stamp := rfl
  pending := rfl
  engine := rfl
  recovery := rfl
  base := rfl
  period := rfl
  held := rfl
  list := rfl
  asked := rfl
  sweep := rfl
  gate := rfl
  nextAdm := rfl
  counters := rfl
  lanes := laneStart_lane present _
  share := rfl
  exec := rfl
  chans := rfl
  stalled := rfl
  ret := rfl
  jnl := rfl

theorem powerUp_begins (present : BitVec 16) (start : Start) (stamp : s.stamp = true) :
    ∃ d, Begins present s d ∧ s.powerUp present start = restoreTimes start.made d := by
  refine ⟨_, dropWorking_begins present start.torn s, ?_⟩
  unfold powerUp startUp
  dsimp only
  rw [if_pos]
  · rfl
  · exact (dropWorking_dropped present start.torn _).stamp.trans stamp

variable {present : BitVec 16}

theorem Begins.recovered (h : Begins present s d) : Recovered d d 0 where
  stands := .refl d
  exec := h.exec
  idle := ⟨rfl, rfl⟩
  bindings three := absurd three (by decide)
  gate := h.gate
  share := rfl
  begun _ := ⟨rfl, rfl⟩
  restart made := absurd made (by decide)

theorem Begins.empty (h : Begins present s d) : d.jnl.line = [] := by rw [h.jnl]

/-- After all eight restorations. -/
theorem restoreTimes_ready (h : Begins present s d) : ∃ r, Recovered d r 7 ∧ restoreTimes 8 d = r.recoverCoder.pump := by
  obtain ⟨seven, count⟩ := restoreTimes_recovered h.recovered h.engine h.empty h.recovery 7 (by decide)
  have eq := restoreTimes_succ 7 d
  generalize restoreTimes 7 d = r at *
  have made : r.recovery.made = 7 := by rw [count]
  refine ⟨_, seven.counted { r.recovery with made := r.recovery.made + 1 }, ?_⟩
  rw [eq, restoreNext_eq (seven.stands.engine.trans h.engine) made, restoration_last]

/-- A power-on with the stamp: what stands whatever has been made, RESTART, and where the recovery has come to. -/
structure PowersOn (present : BitVec 16) (start : Start) (s d t : State) : Prop where
  begins : Begins present s d
  started : Started d t
  restart : 1 ≤ start.made.val → Restarted (restartEntry d) d t
  store : d.jnl.store <+: t.jnl.store
  full : start.made.val = 8 → t.engine = .ready ∧ (∀ c, bget t.feed.bindings c = none) ∧ t.exec.suspended = [] ∧
    t.exec.running.toList ++ t.exec.waiting = pendingWalks d
  part : start.made.val ≠ 8 → t.engine = .recovering ∧ t.recovery = { cause := .powerOn, made := start.made.val }

theorem powerUp_powersOn (start : Start) (stamp : s.stamp = true) : ∃ d, PowersOn present start s d (s.powerUp present start) := by
  obtain ⟨d, begins, eq⟩ := powerUp_begins present start stamp
  refine ⟨d, ?_⟩
  rw [eq]
  have le := start.made.isLt
  by_cases all : start.made.val = 8
  · obtain ⟨r, seven, last⟩ := restoreTimes_ready begins
    obtain ⟨started, ready, restart, rest⟩ := recoverCoder_starts seven begins.stalled
    rw [all, last]
    exact ⟨begins, started, fun _ => restart, restart.store, fun _ => ⟨ready, rest⟩, fun ne => absurd all ne⟩
  · obtain ⟨h, count⟩ := restoreTimes_recovered begins.recovered begins.engine begins.empty begins.recovery start.made.val (by omega)
    refine ⟨begins, h.started, h.restart, ?_, fun c => absurd c all, fun _ => ⟨h.stands.engine.trans begins.engine, count⟩⟩
    by_cases none : start.made.val = 0
    · rw [none] at h ⊢
      exact List.prefix_rfl
    · exact (h.restart (by omega)).store

section powersOn

variable {start : Start} (h : PowersOn present start s d t)
include h

/-- RESTART, by what the journal held before the power was away. -/
theorem PowersOn.restarted (made : 1 ≤ start.made.val) :
    let restart := EntryBody.mk0 .restart .none 1 s.jnl.settled (s.jnl.head - s.jnl.settled)
    let fits := s.jnl.buffer.length < 4096 ∧ 0 < s.room
    (fits → (∃ e ∈ t.jnl.store, e.seq = s.jnl.head ∧ e.day = s.ret.day ∧ e.second = false ∧ e.body = restart) ∧
      bget t.desk.counters Counter.restarts.index = bget s.desk.counters Counter.restarts.index + 1) ∧
    (¬ fits → (t.jnl.line.head?.map Submission.entries) = some [restart] ∧ t.jnl.store = s.jnl.store ∧
      bget t.desk.counters Counter.restarts.index = bget s.desk.counters Counter.restarts.index) := by
  obtain ⟨_, took, waits⟩ := h.restart made
  have room : d.room = s.room := by rw [State.room, State.room, windowSize, windowSize, h.begins.jnl]
  rw [restartEntry, room, h.begins.counters, h.begins.ret, h.begins.jnl] at took
  rw [restartEntry, room, h.begins.counters, h.begins.jnl] at waits
  exact ⟨took, waits⟩

/-- The walks of the groups whose walk is pending, in group order. -/
theorem PowersOn.walks : (pendingWalks d).map (fun o => (o.slip, o.prio, o.begun, o.body)) =
    ((indices 4).filter fun g => (bget s.ret.groups g).walk.isSome).map fun g => (none, 0, true, .walk g 0 0) := by
  rw [pendingWalks, h.begins.ret, List.map_map]
  rfl

end powersOn

end Sys2Proof.Machine.State

namespace Sys2Proof
open Machine Machine.State Claims

/-- Settles O8: the start-up leaves nothing but what retained memory holds, each restoration keeps that and the journal's RESTART, and
the last lets the executor choose the first walk. -/
theorem powerOnWithStampRecovers : Obligations.PowerOnWithStampRecovers := by
  unfold Obligations.PowerOnWithStampRecovers
  intro present start s stamp
  obtain ⟨d, on⟩ := powerUp_powersOn (present := present) start stamp
  refine ⟨_, exec_powerOn present start s, ?_⟩
  generalize s.powerUp present start = t at *
  obtain ⟨begins, ⟨stands, chans, gate, share⟩, _, store, full, part⟩ := id on
  have desk := stands.desk
  refine ⟨stands.powered.trans begins.powered, (stands.stamp.trans begins.stamp).trans stamp, ?_, ?_, fun l => ?_,
    share.trans begins.share, fun i => ?_, ?_, ?_, ?_, gate, ?_, fun c => ?_, stands.ret.trans begins.ret,
    stands.pending.trans begins.pending, fun all => ?_, part, ?_, ?_, ?_, fun made => (on.restarted made).1,
    fun made => (on.restarted made).2⟩
  · rw [desk]
    exact begins.base
  · rw [desk]
    exact begins.period
  · rw [stands.online]
    show (bget d.lanes.lane l).online = _
    rw [begins.lanes]
    rfl
  · rw [desk]
    show bget d.desk.held i = _
    rw [begins.held, bget_replicate]
  · rw [desk]
    exact begins.list
  · rw [desk]
    exact begins.asked
  · rw [desk]
    exact begins.sweep
  · rw [desk]
    exact begins.nextAdm
  · rw [State.chan, chans, begins.chans, bget_replicate]
  · obtain ⟨ready, bindings, suspended, walks⟩ := full all
    refine ⟨ready, bindings, suspended, ?_⟩
    rw [walks]
    exact on.walks
  · rw [stands.release]
    show d.jnl.release = _
    rw [begins.jnl]
  · rw [stands.settled]
    show d.jnl.settled = _
    rw [begins.jnl]
  · rw [begins.jnl] at store
    exact store

end Sys2Proof
end
